-- ==== Sys2Proof/Word.lean ====
section
/-! DEFINITION. The machine's byte, its sparse tables and its little-endian numbers (R8, R13). -/

namespace Sys2Proof

/-- One octet. -/
abbrev Byte := BitVec 8

/-- A sparse table of like things by number: an entry that is not listed reads as the reader's default. -/
abbrev Tbl (α : Type) := List (Nat × α)

namespace Tbl

/-- The entry at key `k`, or `d` where nothing is listed. -/
def get {α : Type} (d : α) (t : Tbl α) (k : Nat) : α :=
  match t with
  | [] => d
  | (k', v) :: r => if k' = k then v else get d r k

/-- The table without any entry at `k`. -/
def erase {α : Type} (t : Tbl α) (k : Nat) : Tbl α :=
  match t with
  | [] => []
  | (k', v) :: r => if k' = k then erase r k else (k', v) :: erase r k

/-- The table with `v` listed at `k`, in ascending order of keys. -/
def insert {α : Type} (t : Tbl α) (k : Nat) (v : α) : Tbl α :=
  match t with
  | [] => [(k, v)]
  | (k', v') :: r => if k < k' then (k, v) :: (k', v') :: r else (k', v') :: insert r k v

/-- The table that reads `v` at `k` and as before elsewhere. -/
def set {α : Type} (t : Tbl α) (k : Nat) (v : α) : Tbl α := insert (erase t k) k v

/-- The table with the entry at `k` changed by `f`. -/
def modify {α : Type} (d : α) (t : Tbl α) (k : Nat) (f : α → α) : Tbl α := set t k (f (get d t k))

end Tbl

/-- The number that a list of octets spells, first octet least significant (R13). -/
def leNat : List Byte → Nat
  | [] => 0
  | b :: r => b.toNat + 256 * leNat r

/-- The `n` octets of `v`, least significant first (R13). -/
def leBytes : Nat → Nat → List Byte
  | 0, _ => []
  | n + 1, v => BitVec.ofNat 8 v :: leBytes n (v / 256)

/-- The field [hi:lo] of a number (R8). -/
def bits (hi lo v : Nat) : Nat := v / 2 ^ lo % 2 ^ (hi + 1 - lo)

/-- Bit `i` of a number (R8). -/
def bit (i v : Nat) : Bool := v.testBit i

/-- A `w`-bit two's-complement field read as an integer. -/
def sext (w v : Nat) : Int := if v % 2 ^ w < 2 ^ (w - 1) then (v % 2 ^ w : Nat) else (v % 2 ^ w : Nat) - (2 ^ w : Nat)

/-- An integer's `w`-bit two's-complement pattern. -/
def twos (w : Nat) (i : Int) : Nat := (i % (2 ^ w : Nat)).toNat

/-- The number with bit `i` set. -/
def setBit (v i : Nat) : Nat := v ||| 2 ^ i

/-- The number with bit `i` clear. -/
def clrBit (v i : Nat) : Nat := if v.testBit i then v - 2 ^ i else v

end Sys2Proof
end

