-- ==== Sys2Proof/Syntax.lean ====
section
/-! DEFINITION. The commands of the block: one constructor per row of the table of operations and events. -/

namespace Sys2Proof

/-- The transports of R43. -/
inductive Transport where
  | eth | i3c | vdm | mbx | tap
  deriving DecidableEq, Repr

/-- The vendor identifier that an MCTP message carries (R44): the one that `1000.04` holds, or another. -/
inductive MctpVendor where
  | jurad
  | other (v : BitVec 16)
  deriving DecidableEq, Repr

/-- Where a Geind frame comes in: its transport, the host function that carried it (R36, R43), on management Ethernet the UDP port
that it is sent to (R43), and over MCTP the message's type and vendor identifier (R44). -/
structure Port where
  tr : Transport
  fn : Nat
  udp : Nat := 47115
  msgType : Nat := 0x7E
  vendor : MctpVendor := .jurad
  deriving DecidableEq, Repr

/-- One item record (R24). `padOk` is false when a padding byte is not zero (R481). -/
structure Item where
  idx : Nat
  sub : Nat
  ty : Nat
  rsv : Nat
  istatus : Nat
  seg : Nat
  data : List Byte
  padOk : Bool
  deriving DecidableEq, Repr

/-- The subscription header (R32); in a NOTIFY, the SUBID and the dropped count of its header (R34). -/
structure SubHdr where
  period : Nat
  mode : Nat
  plan : Nat
  subid : Nat
  dropped : Nat
  deriving DecidableEq, Repr

/-- A Geind frame (R23), its fields as received. `size` is its length in bytes, `crcOk` says that its CRC-32C is right,
`agree` that LENGTH and ITEMS agree with the bytes received; `time` is a READ-MULTI response's sample time. -/
structure Frame where
  ver : Nat
  op : Nat
  flags : Nat
  status : Nat
  session : Nat
  seq : Nat
  time : Nat
  hdr : Option SubHdr
  items : List Item
  tag : Option (List Byte)
  size : Nat
  crcOk : Bool
  agree : Bool
  deriving DecidableEq, Repr

/-- Who sends a WRITE of one object: its port, SESSION, SEQ and tag. -/
structure Who where
  port : Port
  sess : Nat
  seq : Nat
  tag : Option (List Byte)
  deriving DecidableEq, Repr

/-- A thread instruction's fields (R177), its payload still whole (R178). -/
structure TInstr where
  cls : BitVec 4
  op : BitVec 8
  pen : Bool
  psel : BitVec 3
  pneg : Bool
  immb : Bool
  rsv : BitVec 2
  payload : BitVec 44
  deriving DecidableEq, Repr

/-- A requester at a home: a core's L1, or an agent without a cache (R214, R218). -/
inductive Agent where
  | core (k : Nat)
  | mover (k g : Nat)
  | copyEngine (e : Nat)
  | link (l : Nat)
  | host (p : Nat)
  deriving DecidableEq, Repr

/-- The operations performed at a home (R191, R192), and LOCK.BEGIN, which an ATM message carries as well (R194, R214). -/
inductive AtomOp where
  | add | minS | minU | maxS | maxU | and | or | xor | swap | cas | redB32 | redW16 | redB16 | lock
  deriving DecidableEq, Repr

/-- The caches that a CTRL object disables (R224, R227, R228). -/
inductive CacheId where
  | l1d (k : Nat)
  | l1i (k : Nat)
  | slice (d s : Nat)
  deriving DecidableEq, Repr

/-- The token buckets of R238. -/
inductive BucketId where
  | slice (p d s : Nat)
  | lattice (p d : Nat)
  deriving DecidableEq, Repr

/-- What came of a transfer that met a parity error (R241). `recovered`: a retry succeeded after `n` errors.
`readFails`, `writeFails`: the transfer of a 32-byte word of the channel still fails after the fourth retry and the retraining;
`retrained`: it succeeded after the retraining. -/
inductive ParityCase where
  | recovered (n : Nat)
  | retrained
  | readFails (word : Nat)
  | writeFails (word : Nat) (data : List Byte)
  deriving DecidableEq, Repr

/-- What ECC finds at a memory word (R242). -/
inductive EccCase where
  | clean
  | corrected
  | uncorrectable
  deriving DecidableEq, Repr

/-- A perimeter message: the transport header of R353 with its data and signal record (R354).
`len` is LEN: the data bytes, or those that a READ-REQ asks for. `key` is the key it was sealed under and `intact` says that nothing in it was changed since: the symbolic form of R369. -/
structure PMsg where
  dv : Nat
  sv : Nat
  hops : Nat
  mtype : Nat
  sig : Option (Nat × Nat)
  addrk : Nat
  darc : Nat
  depoch : Nat
  sarc : Nat
  mseq : Nat
  sdie : Nat
  kctr : Nat
  addr : Nat
  opx : Nat
  name : Nat
  len : Nat
  cls : Nat
  data : List Byte
  key : Nat
  intact : Bool
  deriving DecidableEq, Repr

/-- A key installation request (R431): partition, slot, the reserved byte, job, epoch, secret. -/
structure KeyReq where
  part : Nat
  slot : Nat
  rsv : Nat
  job : Nat
  epoch : Nat
  secret : List Byte
  vendor : Nat
  secured : Bool
  deriving DecidableEq, Repr

/-- What the power manager measures in one loop (R379, R381, R387): W and m°C. Lists are by partition or cluster. -/
structure PowerSample where
  input : Nat
  fixed : Nat
  mem : Nat
  link : Nat
  compute : Nat
  idle : Nat
  parts : List Nat
  clusters : List Nat
  temps : List Int
  stackTemps : List Int
  vin48 : Nat
  aux : Nat
  outlet : Int
  deriving DecidableEq, Repr

/-- The margins the gnomon unit measures (R404). -/
inductive MarginSample where
  | timing (c : Nat) (ps : Int) (load : Nat) (mv : Nat)
  | sram (k : Nat) (mv : Nat)
  | lane (l n : Nat) (mv : Int)
  deriving DecidableEq, Repr

/-- The energy accounted in one recalibration period (R327), in mJ. -/
structure EnergySample where
  parts : List Nat
  idle : Nat
  total : Nat
  deriving DecidableEq, Repr

/-- The events of R396. -/
inductive SiteEv where
  | corrected | latticeReplay | slotAbandoned | linkRetrained | uncorrectable | parity | exhausted | failedTest
  deriving DecidableEq, Repr

/-- An event of R396 and its place in its site: a channel's 32-byte word, or a cache's set and sector (log entry 42). -/
structure SiteHit where
  ev : SiteEv
  place : Nat
  deriving DecidableEq, Repr

/-- The data of an IWR (R214): octets that begin at the request's address, and a byte mask whose bit j is that of octet j. -/
structure MaskedBytes where
  mask : Nat
  bytes : List Byte
  deriving DecidableEq, Repr

/-- The commands, one per row of the table. `k` is a core, `g` a group or generator, `i` a thread instruction's fields,
`w` who writes, `r` a ring or requester, `l` a link, `d` a die, `c` a cluster or cache. -/
inductive Instr where
  /-- READ: R26. -/
  | read (p : Port) (f : Frame)
  /-- CONSUME_READ: R16. -/
  | consumeRead (p : Port) (f : Frame)
  /-- DESCRIPTOR_READ: R31. -/
  | descriptorRead (p : Port) (f : Frame)
  /-- READ_MULTI: R27. -/
  | readMulti (p : Port) (f : Frame)
  /-- WRITE: R28. -/
  | write (p : Port) (f : Frame)
  /-- F_WRITE_DURABLE: R20. -/
  | fWriteDurable
  /-- SUBSCRIBE: R32. -/
  | subscribe (p : Port) (f : Frame)
  /-- SUBSCRIBE_CANCEL: R32. -/
  | subscribeCancel (p : Port) (f : Frame)
  /-- NOTIFY_PERIODIC: R34. -/
  | notifyPeriodic (subid : Nat)
  /-- NOTIFY_ON_CHANGE: R32. -/
  | notifyOnChange (subid : Nat)
  /-- SESSION_OPEN: R38. -/
  | sessionOpen (w : Who) (v : List Byte)
  /-- SESSION_PROOF: R39. -/
  | sessionProof (w : Who) (v : List Byte)
  /-- CRED_SLOT_UNLOCK: R41. -/
  | credSlotUnlock (slot : Nat)
  /-- SESSION_CLOSE: R52. -/
  | sessionClose (w : Who) (v : Nat)
  /-- SESSION_IDLE_TIMEOUT: R36. -/
  | sessionIdleTimeout (sess : Nat)
  /-- PENDING_SESSION_TIMEOUT: R41. -/
  | pendingSessionTimeout (sess : Nat)
  /-- RESTORE: R51. -/
  | restore (w : Who) (v : Nat)
  /-- MBX_DOORBELL: R46. -/
  | mbxDoorbell (fn : Nat) (len : Nat)
  /-- MBX_RESPONSE: R46. -/
  | mbxResponse (fn : Nat)
  /-- MBX_RSP_ACK: R46. -/
  | mbxRspAck (fn : Nat) (v : Nat)
  /-- MBX_NTF_TAIL: R45. -/
  | mbxNtfTail (fn : Nat) (v : Nat)
  /-- REGISTER_WRITE: R45. -/
  | registerWrite (fn : Nat) (bar : Nat) (off : Nat) (data : List Byte)
  /-- ARRAY_CLOCK_GATE: R117. -/
  | arrayClockGate (a : Nat)
  /-- ARRAY_START_ADMITTED: R344. -/
  | arrayStartAdmitted (a : Nat)
  /-- ARRAY_ENTRY_PUSH: R92. -/
  | arrayEntryPush (a : Nat)
  /-- ARRAY_PARITY_ERROR: R118. -/
  | arrayParityError (a : Nat) (prow : Nat) (pcol : Nat)
  /-- ARRAY_REPAIR_DONE: R121. -/
  | arrayRepairDone (a : Nat)
  /-- REPAIR_REQUEST: R124. -/
  | repairRequest (w : Who) (v : Nat)
  /-- PROGRAM_LOADED: R127. -/
  | programLoaded (k : Nat)
  /-- STEP_REPEAT: R134. -/
  | stepRepeat (k : Nat)
  /-- TILE: R136. -/
  | tile (k : Nat)
  /-- TILE_EXPANDER_ISSUE: R109. -/
  | tileExpanderIssue (k : Nat)
  /-- PARAM_COLUMN: R138. -/
  | paramColumn (k : Nat)
  /-- PARAM_TABLE: R138. -/
  | paramTable (k : Nat)
  /-- PARAM_ZERO: R138. -/
  | paramZero (k : Nat)
  /-- AGEN: R139. -/
  | agen (k : Nat)
  /-- LOADCT: R140. -/
  | loadct (k : Nat)
  /-- SETCMP: R140. -/
  | setcmp (k : Nat)
  /-- TANGENT: R383. -/
  | tangent (k : Nat)
  /-- SYNC_CHORD: R141. -/
  | syncChord (k : Nat)
  /-- SYNC_SIGWAIT: R141. -/
  | syncSigwait (k : Nat)
  /-- SYNC_SIGADD: R141. -/
  | syncSigadd (k : Nat)
  /-- END: R142. -/
  | endWord (k : Nat)
  /-- MOVER_READ_RETURN: R158. -/
  | moverReadReturn (k : Nat) (g : Nat)
  /-- STORE_MOVER_WRITE: R158. -/
  | storeMoverWrite (k : Nat) (g : Nat)
  /-- STREAM_COMPLETE: R157. -/
  | streamComplete (k : Nat) (g : Nat)
  /-- TOKEN_EMIT: R150. -/
  | tokenEmit (k : Nat)
  /-- HALT_REQ: R165. -/
  | haltReq (w : Who) (k : Nat) (v : Nat)
  /-- RESUME: R165. -/
  | resume (w : Who) (k : Nat)
  /-- RESUME_STEP: R165. -/
  | resumeStep (w : Who) (k : Nat) (n : Nat)
  /-- STEP_COUNT_HALT: R165. -/
  | stepCountHalt (k : Nat)
  /-- BLOCK_PLACE: R169. -/
  | blockPlace (k : Nat)
  /-- IFETCH_MISS: R176. -/
  | ifetchMiss (k : Nat) (g : Nat)
  /-- ADD: R180. -/
  | add (k g : Nat) (i : TInstr)
  /-- SUB: R180. -/
  | sub (k g : Nat) (i : TInstr)
  /-- MUL_LO: R180. -/
  | mulLo (k g : Nat) (i : TInstr)
  /-- MUL_HI_S: R180. -/
  | mulHiS (k g : Nat) (i : TInstr)
  /-- MUL_HI_U: R180. -/
  | mulHiU (k g : Nat) (i : TInstr)
  /-- AND: R180. -/
  | andOp (k g : Nat) (i : TInstr)
  /-- OR: R180. -/
  | orOp (k g : Nat) (i : TInstr)
  /-- XOR: R180. -/
  | xorOp (k g : Nat) (i : TInstr)
  /-- ANDN: R180. -/
  | andn (k g : Nat) (i : TInstr)
  /-- SHL: R180. -/
  | shl (k g : Nat) (i : TInstr)
  /-- SHR_U: R180. -/
  | shrU (k g : Nat) (i : TInstr)
  /-- SHR_S: R180. -/
  | shrS (k g : Nat) (i : TInstr)
  /-- MIN_S: R180. -/
  | minS (k g : Nat) (i : TInstr)
  /-- MIN_U: R180. -/
  | minU (k g : Nat) (i : TInstr)
  /-- MAX_S: R180. -/
  | maxS (k g : Nat) (i : TInstr)
  /-- MAX_U: R180. -/
  | maxU (k g : Nat) (i : TInstr)
  /-- SEL: R180. -/
  | sel (k g : Nat) (i : TInstr)
  /-- SETP: R180. -/
  | setp (k g : Nat) (i : TInstr)
  /-- FADD: R180. -/
  | fadd (k g : Nat) (i : TInstr)
  /-- FSUB: R180. -/
  | fsub (k g : Nat) (i : TInstr)
  /-- FMUL: R180. -/
  | fmul (k g : Nat) (i : TInstr)
  /-- FFMA: R180. -/
  | ffma (k g : Nat) (i : TInstr)
  /-- FMIN: R180. -/
  | fmin (k g : Nat) (i : TInstr)
  /-- FMAX: R180. -/
  | fmax (k g : Nat) (i : TInstr)
  /-- FDIV: R180. -/
  | fdiv (k g : Nat) (i : TInstr)
  /-- FSQRT: R180. -/
  | fsqrt (k g : Nat) (i : TInstr)
  /-- FSETP: R180. -/
  | fsetp (k g : Nat) (i : TInstr)
  /-- CVT: R84. -/
  | cvt (k g : Nat) (i : TInstr)
  /-- RCP: R180. -/
  | rcp (k g : Nat) (i : TInstr)
  /-- RSQ: R180. -/
  | rsq (k g : Nat) (i : TInstr)
  /-- EX2: R180. -/
  | ex2 (k g : Nat) (i : TInstr)
  /-- LG2: R180. -/
  | lg2 (k g : Nat) (i : TInstr)
  /-- MOVI: R180. -/
  | movi (k g : Nat) (i : TInstr)
  /-- MOV: R180. -/
  | mov (k g : Nat) (i : TInstr)
  /-- SHFL_IDX: R180. -/
  | shflIdx (k g : Nat) (i : TInstr)
  /-- SHFL_UP: R180. -/
  | shflUp (k g : Nat) (i : TInstr)
  /-- SHFL_DOWN: R180. -/
  | shflDown (k g : Nat) (i : TInstr)
  /-- SHFL_XOR: R180. -/
  | shflXor (k g : Nat) (i : TInstr)
  /-- VOTE_ALL: R180. -/
  | voteAll (k g : Nat) (i : TInstr)
  /-- VOTE_ANY: R180. -/
  | voteAny (k g : Nat) (i : TInstr)
  /-- VOTE_BALLOT: R180. -/
  | voteBallot (k g : Nat) (i : TInstr)
  /-- PAND: R180. -/
  | pand (k g : Nat) (i : TInstr)
  /-- POR: R180. -/
  | por (k g : Nat) (i : TInstr)
  /-- PXOR: R180. -/
  | pxor (k g : Nat) (i : TInstr)
  /-- PNOT: R180. -/
  | pnot (k g : Nat) (i : TInstr)
  /-- RDSR: R180. -/
  | rdsr (k g : Nat) (i : TInstr)
  /-- LD: R188. -/
  | ld (k g : Nat) (i : TInstr)
  /-- LD_DATA_RETURN: R179. -/
  | ldDataReturn (k : Nat) (g : Nat)
  /-- ST: R188. -/
  | st (k g : Nat) (i : TInstr)
  /-- LDB: R184. -/
  | ldb (k g : Nat) (i : TInstr)
  /-- STB: R184. -/
  | stb (k g : Nat) (i : TInstr)
  /-- ACP_LANE: R185. -/
  | acpLane (k g : Nat) (i : TInstr)
  /-- ACP_BULK: R185. -/
  | acpBulk (k g : Nat) (i : TInstr)
  /-- ACP_PART_WRITTEN: R185. -/
  | acpPartWritten (k : Nat) (len : Nat)
  /-- ARRADD: R186. -/
  | arradd (k g : Nat) (i : TInstr)
  /-- ARRSET: R186. -/
  | arrset (k g : Nat) (i : TInstr)
  /-- ARRWAIT: R186. -/
  | arrwait (k g : Nat) (i : TInstr)
  /-- ATOM_ADD: R191. -/
  | atomAdd (k g : Nat) (i : TInstr)
  /-- ATOM_MIN_S: R191. -/
  | atomMinS (k g : Nat) (i : TInstr)
  /-- ATOM_MIN_U: R191. -/
  | atomMinU (k g : Nat) (i : TInstr)
  /-- ATOM_MAX_S: R191. -/
  | atomMaxS (k g : Nat) (i : TInstr)
  /-- ATOM_MAX_U: R191. -/
  | atomMaxU (k g : Nat) (i : TInstr)
  /-- ATOM_AND: R191. -/
  | atomAnd (k g : Nat) (i : TInstr)
  /-- ATOM_OR: R191. -/
  | atomOr (k g : Nat) (i : TInstr)
  /-- ATOM_XOR: R191. -/
  | atomXor (k g : Nat) (i : TInstr)
  /-- ATOM_SWAP: R191. -/
  | atomSwap (k g : Nat) (i : TInstr)
  /-- ATOM_CAS: R191. -/
  | atomCas (k g : Nat) (i : TInstr)
  /-- RED: R191. -/
  | red (k g : Nat) (i : TInstr)
  /-- VRED_B32: R192. -/
  | vredB32 (k g : Nat) (i : TInstr)
  /-- VRED_W16: R192. -/
  | vredW16 (k g : Nat) (i : TInstr)
  /-- VRED_B16: R192. -/
  | vredB16 (k g : Nat) (i : TInstr)
  /-- FENCE: R189. -/
  | fence (k g : Nat) (i : TInstr)
  /-- BRA: R182. -/
  | bra (k g : Nat) (i : TInstr)
  /-- BRC: R182. -/
  | brc (k g : Nat) (i : TInstr)
  /-- CALL: R182. -/
  | call (k g : Nat) (i : TInstr)
  /-- RET: R182. -/
  | ret (k g : Nat) (i : TInstr)
  /-- EXIT: R182. -/
  | exit (k g : Nat) (i : TInstr)
  /-- LOCK_BEGIN: R194. -/
  | lockBegin (k g : Nat) (i : TInstr)
  /-- LOCK_ACQUIRED: R194. -/
  | lockAcquired (k : Nat) (g : Nat)
  /-- LOCK_END: R196. -/
  | lockEnd (k g : Nat) (i : TInstr)
  /-- LOCK_INSTR_LIMIT: R196. -/
  | lockInstrLimit (k : Nat) (g : Nat)
  /-- LOCK_TIMEOUT: R196. -/
  | lockTimeout (k : Nat) (g : Nat)
  /-- APUSH: R197. -/
  | apush (k g : Nat) (i : TInstr)
  /-- SIGWAIT: R197. -/
  | sigwait (k g : Nat) (i : TInstr)
  /-- SIGADD: R197. -/
  | sigadd (k g : Nat) (i : TInstr)
  /-- SETRND: R183. -/
  | setrnd (k g : Nat) (i : TInstr)
  /-- RDFLG: R183. -/
  | rdflg (k g : Nat) (i : TInstr)
  /-- CLRFLG: R183. -/
  | clrflg (k g : Nat) (i : TInstr)
  /-- THR_HALT: R198. -/
  | thrHalt (w : Who) (k : Nat)
  /-- THR_FORCED_HALT: R198. -/
  | thrForcedHalt (w : Who) (k : Nat)
  /-- THR_RESUME: R198. -/
  | thrResume (w : Who) (k : Nat)
  /-- THR_STEP: R198. -/
  | thrStep (w : Who) (k : Nat)
  /-- RDS: R216. -/
  | rds (r : Agent) (line : Nat) (mask : Nat) (na : Bool)
  /-- RDU: R216. -/
  | rdu (k : Nat) (line : Nat) (mask : Nat) (nodata : Bool)
  /-- UPG: R216. -/
  | upg (k : Nat) (line : Nat)
  /-- WB: R215. -/
  | wb (k : Nat) (line : Nat)
  /-- EVN: R212. -/
  | evn (k : Nat) (line : Nat) (inst : Bool)
  /-- IWR: R218. -/
  | iwr (r : Agent) (pa : Nat) (data : MaskedBytes)
  /-- ATM: R220. -/
  | atm (r : Agent) (op : AtomOp) (pa : Nat) (width : Nat) (b : Nat) (c : Nat)
  /-- SNI: R217. -/
  | sni (k : Nat) (line : Nat)
  /-- SNS: R217. -/
  | sns (k : Nat) (line : Nat)
  /-- ACK_INV: R217. -/
  | ackInv (k : Nat) (line : Nat)
  /-- ACK_SHR: R217. -/
  | ackShr (k : Nat) (line : Nat)
  /-- NOT_PRESENT: R220. -/
  | notPresent (k : Nat) (line : Nat)
  /-- WB_PENDING: R220. -/
  | wbPending (k : Nat) (line : Nat)
  /-- GRANT: R216. -/
  | grant (k : Nat) (line : Nat)
  /-- WB_ACK: R220. -/
  | wbAck (k : Nat) (line : Nat)
  /-- COMP: R218. -/
  | comp (r : Agent) (line : Nat)
  /-- COMP_ACK: R213. -/
  | compAck (k : Nat) (line : Nat)
  /-- FILL: R216. -/
  | fill (k : Nat) (line : Nat) (mask : Nat) (excl : Bool) (inst : Bool) (data : List Byte)
  /-- SNPDAT: R217. -/
  | snpdat (k : Nat) (line : Nat) (mask : Nat) (data : List Byte)
  /-- WBDAT: R215. -/
  | wbdat (k : Nat) (line : Nat) (mask : Nat) (data : List Byte)
  /-- WDATA: R218. -/
  | wdata (r : Agent) (pa : Nat) (data : List Byte)
  /-- ATMDAT: R214. -/
  | atmdat (k : Nat) (g : Nat)
  /-- CACHE_DRAIN: R224. -/
  | cacheDrain (w : Who) (c : CacheId)
  /-- CACHE_DISCARD: R224. -/
  | cacheDiscard (w : Who) (c : CacheId)
  /-- CACHE_ENABLE: R224. -/
  | cacheEnable (w : Who) (c : CacheId)
  /-- CACHE_DRAINED: R224. -/
  | cacheDrained (c : CacheId)
  /-- WAYMASK: R208. -/
  | waymask (w : Who) (d : Nat) (ms : List (Nat × Nat))
  /-- WAYMASK_RECLAIM_DONE: R209. -/
  | waymaskReclaimDone (d : Nat)
  /-- CHAN_OWNER: R237. -/
  | chanOwner (w : Who) (cs : List (Nat × Nat))
  /-- CHANNEL_CLEAR_DONE: R237. -/
  | channelClearDone (ch : Nat)
  /-- BUCKET_ADMIT: R238. -/
  | bucketAdmit (b : BucketId)
  /-- HBM_PARITY_ERROR: R241. -/
  | hbmParityError (ch : Nat) (pc : Nat) (e : ParityCase)
  /-- SUSPECT_EXPIRE: R241. -/
  | suspectExpire (ch : Nat)
  /-- PATROL_SCRUB: R243. -/
  | patrolScrub (ch : Nat) (e : EccCase)
  /-- CHANNEL_MIGRATION_DONE: R244. -/
  | channelMigrationDone (ch : Nat)
  /-- TRAIN_SLOT: R247. -/
  | trainSlot (d : Nat)
  /-- TRAIN_SLOT_END: R247. -/
  | trainSlotEnd (d : Nat) (marginPs : Int)
  /-- TRAIN_SLOT_ABANDON: R247. -/
  | trainSlotAbandon (d : Nat)
  /-- WALK_COMPLETE: R258. -/
  | walkComplete (d : Nat)
  /-- FAULT_RECORD_WRITE: R261. -/
  | faultRecordWrite (d : Nat)
  /-- FAULT_REPLAY: R262. -/
  | faultReplay (fn : Nat) (page : Nat) (v : Nat)
  /-- FAULT_CANCEL: R262. -/
  | faultCancel (fn : Nat) (page : Nat) (v : Nat)
  /-- FAULT_TIMEOUT: R263. -/
  | faultTimeout (d : Nat) (seq : Nat)
  /-- TLB_SETMASK: R257. -/
  | tlbSetmask (w : Who) (d : Nat) (ms : List (Nat × Nat))
  /-- PROD_WRITE: R276. -/
  | prodWrite (fn : Nat) (page : Nat) (v : Nat)
  /-- CONS_WRITE: R276. -/
  | consWrite (fn : Nat) (page : Nat) (v : Nat)
  /-- COMMAND_FETCH: R283. -/
  | commandFetch (r : Nat)
  /-- ACCEPT: R307. -/
  | accept (r : Nat)
  /-- CTL_ENABLE: R278. -/
  | ctlEnable (w : Who) (fn : Nat) (v : Nat)
  /-- CTX_CREATE: R279. -/
  | ctxCreate (fn : Nat)
  /-- CTX_DESTROY: R297. -/
  | ctxDestroy (fn : Nat)
  /-- RING_CREATE: R279. -/
  | ringCreate (fn : Nat)
  /-- RING_DESTROY: R279. -/
  | ringDestroy (fn : Nat)
  /-- MEM_CREATE: R279. -/
  | memCreate (fn : Nat)
  /-- MEM_DESTROY: R279. -/
  | memDestroy (fn : Nat)
  /-- ARC_CREATE: R363. -/
  | arcCreate (fn : Nat)
  /-- ARC_DESTROY: R279. -/
  | arcDestroy (fn : Nat)
  /-- SIG_CREATE: R279. -/
  | sigCreate (fn : Nat)
  /-- SIG_DESTROY: R279. -/
  | sigDestroy (fn : Nat)
  /-- INVALIDATE: R265. -/
  | invalidate (fn : Nat)
  /-- INVALIDATE_COMPLETE: R266. -/
  | invalidateComplete (fn : Nat)
  /-- NOP: R282. -/
  | nop (r : Nat)
  /-- STEP: R286. -/
  | step (r : Nat)
  /-- RUN: R282. -/
  | run (r : Nat)
  /-- COPY: R291. -/
  | copy (r : Nat)
  /-- WAIT: R290. -/
  | wait (r : Nat)
  /-- SIGNAL: R290. -/
  | signal (r : Nat)
  /-- SHARD_BEGIN: R319. -/
  | shardBegin (k : Nat)
  /-- SHARD_END: R288. -/
  | shardEnd (k : Nat)
  /-- COPY_COMPLETE: R292. -/
  | copyComplete (e : Nat)
  /-- RUN_TIMEOUT: R293. -/
  | runTimeout (e : Nat)
  /-- WAIT_TIMEOUT: R293. -/
  | waitTimeout (r : Nat)
  /-- TERMINAL_RECORD: R308. -/
  | terminalRecord (r : Nat)
  /-- PARK_EVICTION: R296. -/
  | parkEviction
  /-- SIGNAL_ADD: R330. -/
  | signalAdd (ctx : Nat) (va : Nat) (v : Nat)
  /-- SIG_POLL: R331. -/
  | sigPoll
  /-- WAKE: R335. -/
  | wake (fn : Nat) (page : Nat) (v : Nat)
  /-- ADD_VALUE: R335. -/
  | addValue (fn : Nat) (page : Nat) (v : Nat)
  /-- CHORD_ARRIVE: R340. -/
  | chordArrive (fn : Nat) (page : Nat) (v : Nat)
  /-- MGMT_ARRIVE: R340. -/
  | mgmtArrive (w : Who) (i : Nat) (d : Nat)
  /-- MEMBERS: R337. -/
  | members (w : Who) (i : Nat) (m : Nat)
  /-- LINK_TRAINING_START: R358. -/
  | linkTrainingStart (l : Nat)
  /-- LINK_TRAINED: R358. -/
  | linkTrained (l : Nat)
  /-- LINK_PRSNT_DEASSERT: R358. -/
  | linkPrsntDeassert (l : Nat)
  /-- HELLO_SEND: R358. -/
  | helloSend (l : Nat)
  /-- HELLO: R358. -/
  | hello (l : Nat) (vertex : Nat) (nlink : Nat)
  /-- HELLO_TIMEOUT: R358. -/
  | helloTimeout (l : Nat)
  /-- LCTRL_ACK: R355. -/
  | lctrlAck (l : Nat) (ackseq : Nat)
  /-- LCTRL_NAK: R355. -/
  | lctrlNak (l : Nat) (lseq : Nat)
  /-- LCTRL_CREDIT: R356. -/
  | lctrlCredit (l : Nat) (cls : Nat) (vc : Nat) (n : Nat)
  /-- MESSAGE_TRANSMIT: R356. -/
  | messageTransmit (arc : Nat)
  /-- MESSAGE_FORWARD: R361. -/
  | messageForward (l : Nat) (m : PMsg)
  /-- MSG_WRITE: R365. -/
  | msgWrite (l : Nat) (m : PMsg)
  /-- MSG_REDUCE: R365. -/
  | msgReduce (l : Nat) (m : PMsg)
  /-- MSG_READ_REQ: R365. -/
  | msgReadReq (l : Nat) (m : PMsg)
  /-- MSG_READ_DATA: R365. -/
  | msgReadData (l : Nat) (m : PMsg)
  /-- MSG_ATOMIC: R365. -/
  | msgAtomic (l : Nat) (m : PMsg)
  /-- MSG_ATOMIC_RSP: R365. -/
  | msgAtomicRsp (l : Nat) (m : PMsg)
  /-- MSG_ACK: R365. -/
  | msgAck (l : Nat) (m : PMsg)
  /-- ACK_TIMER: R365. -/
  | ackTimer (arc : Nat)
  /-- NACK_STALE: R373. -/
  | nackStale (l : Nat) (m : PMsg)
  /-- NACK_AUTH: R370. -/
  | nackAuth (l : Nat) (m : PMsg)
  /-- NACK_NOKEY: R371. -/
  | nackNokey (l : Nat) (m : PMsg)
  /-- MSG_OPEN: R364. -/
  | msgOpen (l : Nat) (m : PMsg)
  /-- OPEN_RSP: R364. -/
  | openRsp (l : Nat) (m : PMsg)
  /-- RESOLVE: R373. -/
  | resolve (l : Nat) (m : PMsg)
  /-- RESOLVE_RSP: R373. -/
  | resolveRsp (l : Nat) (m : PMsg)
  /-- MSG_ARRIVE: R343. -/
  | msgArrive (l : Nat) (m : PMsg)
  /-- ARC_RTO_EXPIRE: R366. -/
  | arcRtoExpire (arc : Nat)
  /-- ARC_RETRY_TIMER: R364. -/
  | arcRetryTimer (arc : Nat)
  /-- LINK_DRAIN: R374. -/
  | linkDrain (w : Who) (l : Nat)
  /-- LINK_DRAINED: R374. -/
  | linkDrained (l : Nat)
  /-- DRAIN_TIMEOUT: R374. -/
  | drainTimeout (l : Nat)
  /-- LINK_RESUME: R374. -/
  | linkResume (w : Who) (l : Nat)
  /-- LINK_RETRAIN: R374. -/
  | linkRetrain (w : Who) (l : Nat)
  /-- ROUTE_SET: R359. -/
  | routeSet (w : Who) (vs : List Nat)
  /-- KEY_SET: R432. -/
  | keySet (q : KeyReq)
  /-- KEY_CLEAR: R432. -/
  | keyClear (q : KeyReq)
  /-- GET_MEASUREMENTS: R428. -/
  | getMeasurements (idx : Nat) (nonce : List Byte)
  /-- KEY_EXCHANGE: R427. -/
  | keyExchange
  /-- GET_CERTIFICATE: R427. -/
  | getCertificate (slot : Nat)
  /-- CHALLENGE: R427. -/
  | challenge (slot : Nat) (nonce : List Byte)
  /-- POWER_LOOP: R379. -/
  | powerLoop (m : PowerSample)
  /-- POINT_SETTLED: R380. -/
  | pointSettled (c : Nat)
  /-- TANGENT_LAPSE: R384. -/
  | tangentLapse (c : Nat)
  /-- DROOP: R385. -/
  | droop (c : Nat)
  /-- DROOP_END: R385. -/
  | droopEnd (c : Nat)
  /-- CURRENT_LIMIT: R385. -/
  | currentLimit (watts : Nat)
  /-- VIN48_UNDERVOLTAGE: R385. -/
  | vin48Undervoltage (mv : Nat)
  /-- THROTTLE_N_ASSERT: R385. -/
  | throttleAssert
  /-- THROTTLE_N_DEASSERT: R385. -/
  | throttleDeassert
  /-- THERMAL_TRIP: R387. -/
  | thermalTrip (sensor : Nat) (mdeg : Int)
  /-- MARGIN_SAMPLE: R404. -/
  | marginSample (m : MarginSample)
  /-- ENERGY_RECALIBRATE: R327. -/
  | energyRecalibrate (e : EnergySample)
  /-- SITE_EVENT: R397. -/
  | siteEvent (d : Nat) (site : Nat) (e : SiteHit)
  /-- SITE_BUCKET_ROLL: R397. -/
  | siteBucketRoll (d : Nat) (site : Nat)
  /-- SITE_ACTION_BEGIN: R400. -/
  | siteActionBegin (d : Nat) (site : Nat)
  /-- SITE_ACTION_DONE: R399. -/
  | siteActionDone (d : Nat) (site : Nat)
  /-- STALE_CLEAR_DONE: R403. -/
  | staleClearDone (u : Nat) (ok : Bool)
  /-- SITE_CLEAR: R401. -/
  | siteClear (w : Who) (d : Nat) (site : Nat)
  /-- LEDGER_COMMIT: R393. -/
  | ledgerCommit
  /-- TREND_RECORD: R405. -/
  | trendRecord (d : Nat)
  /-- CTX_COUNTER_UPDATE: R412. -/
  | ctxCounterUpdate (k : Nat)
  /-- TRACE_ENABLE: R414. -/
  | traceEnable (w : Who) (v : Nat)
  /-- TRACE_CONS: R416. -/
  | traceCons (w : Who) (v : Nat)
  /-- WATCH_CFG: R417. -/
  | watchCfg (w : Who) (i : Nat) (v : Nat)
  /-- BYPASS: R420. -/
  | bypass
  /-- IDCODE: R420. -/
  | idcode
  /-- SAMPLE_PRELOAD: R420. -/
  | samplePreload (v : List Bool)
  /-- EXTEST: R420. -/
  | extest
  /-- GEIND: R420. -/
  | geind (data : List Byte)
  /-- SVN_COMMIT: R425. -/
  | svnCommit (w : Who) (v : Nat)
  /-- SVC_TOKEN: R429. -/
  | svcToken (w : Who) (v : List Byte)
  /-- SVC_ENABLE: R429. -/
  | svcEnable (w : Who) (v : Nat)
  /-- L3_SESSION_EXPIRE: R429. -/
  | l3SessionExpire (sess : Nat)
  /-- CRED_KEY: R430. -/
  | credKey (w : Who) (slot : Nat) (v : List Byte)
  /-- CORE_MASK: R435. -/
  | coreMask (w : Who) (ms : List (Nat × Nat))
  /-- TEARDOWN: R436. -/
  | teardown (w : Who) (part : Nat) (v : Nat)
  /-- TEARDOWN_DONE: R436. -/
  | teardownDone (part : Nat)
  /-- AUX_POWER_ON: R467. -/
  | auxPowerOn (mv : Nat)
  /-- POWER_ON: R440. -/
  | powerOn (mv : Nat)
  /-- START_WARM: R444. -/
  | startWarm (w : Who)
  /-- START_COLD: R444. -/
  | startCold (w : Who)
  /-- START_EXTENDED_COLD: R444. -/
  | startExtendedCold (w : Who)
  /-- STOP: R442. -/
  | stop (w : Who)
  /-- WATCHDOG: R440. -/
  | watchdog (d : Nat)
  /-- QUIESCE_TIMEOUT: R441. -/
  | quiesceTimeout
  /-- START_TIMEOUT: R445, with the die on which neither image was accepted, or none where the bound passed. -/
  | startTimeout (noImage : Option Nat)
  /-- START_ESCALATION: R447. -/
  | startEscalation
  /-- START_COMPLETE: R444, with the stacks whose quick verify failed in a warm start (R246). -/
  | startComplete (bad : List Nat)
  /-- HOST_CONFIG_READY: R446. -/
  | hostConfigReady (port : Nat)
  /-- HOST_PORT_RESET: R443. -/
  | hostPortReset (port : Nat)
  /-- SVC_BTN_PRESS: R452. -/
  | svcBtnPress
  /-- SVC_BTN_HOLD: R452. -/
  | svcBtnHold
  /-- GRP_BTN_PRESS: R453. -/
  | grpBtnPress (d : Nat)
  /-- LATCH_ASSERT: R455. -/
  | latchAssert
  /-- LATCH_DEASSERT: R455. -/
  | latchDeassert
  /-- LATCH_RESUME_TIMER: R455. -/
  | latchResumeTimer
  /-- IDENTIFY: R458. -/
  | identify (w : Who) (v : Nat)
  /-- IDENTIFY_EXPIRE: R458. -/
  | identifyExpire
  /-- VIN48_LOSS: R467. -/
  | vin48Loss (mv : Nat)
  /-- AUX_LOSS: R467. -/
  | auxLoss (mv : Nat)
  /-- REFCLK_LOSS: R468. -/
  | refclkLoss
  /-- PLL_LOCK_LOSS: R470. -/
  | pllLockLoss (d : Nat)
  /-- REFCLK_RESTORED: R468. -/
  | refclkRestored
  /-- LINK_PRSNT_ASSERT: R358. -/
  | linkPrsntAssert (l : Nat)
  /-- FLIT_CRC_FAIL: R355. -/
  | flitCrcFail (l : Nat)
  /-- HOST_LINK_DOWN: R443. -/
  | hostLinkDown (port : Nat)
  /-- ETH_LINK_DOWN: R52. -/
  | ethLinkDown
  /-- ETH_LINK_UP: R52. -/
  | ethLinkUp
  /-- SPDM_SESSION_END: R427. -/
  | spdmSessionEnd
  /-- LINK_DOWN_LED_TIMER: R456. -/
  | linkDownLedTimer (l : Nat)
  /-- INLET_TEMP_MEASUREMENT: R472. -/
  | inletTempMeasurement (mdeg : Option Int)
  deriving DecidableEq, Repr

end Sys2Proof
end

