-- ==== Sys2Proof/WellFormed.lean ====
section
/-! DEFINITION. Which units the module has (R2 to R4, R49), and the commands whose operands name units that exist. -/

namespace Sys2Proof

/-- Cores are 0 to 95 (R3, R4). -/
def isCore (k : Nat) : Bool := k < 96
/-- Groups of a core are 0 to 63 (R168). -/
def isGroup (g : Nat) : Bool := g < 64
/-- Address generators of a core are 0 to 7 (R156). -/
def isGen (g : Nat) : Bool := g < 8
/-- Arrays are 0 to 383 (R3, R49). -/
def isArray (a : Nat) : Bool := a < 384
/-- Dies are 0 to 7 (R2). -/
def isDie (d : Nat) : Bool := d < 8
/-- Perimeter links are 0 to 47 (R4). -/
def isLink (l : Nat) : Bool := l < 48
/-- Copy engines are 0 to 31 (R4). -/
def isCe (e : Nat) : Bool := e < 32
/-- Engine codes are the cores, and 0x100 + e for a copy engine (R261). -/
def isEngine (e : Nat) : Bool := e < 96 || (256 ≤ e && e < 288)
/-- Clusters are 0 to 23 (R3, R49). -/
def isCluster (c : Nat) : Bool := c < 24
/-- Host functions are 0 to 31 (R49). -/
def isFn (f : Nat) : Bool := f < 32
/-- Host ports are 0 and 1 (R49). -/
def isHostPort (p : Nat) : Bool := p < 2
/-- Chord instances are 0 to 63 (R49). -/
def isChord (i : Nat) : Bool := i < 64
/-- Tenant partitions are 0 to 15 (R49). -/
def isPart (p : Nat) : Bool := p < 16
/-- Memory channels are 0 to 1,535 in the module: 192 on each octant (R230). -/
def isChan (c : Nat) : Bool := c < 1536
/-- A channel has two pseudo-channels, 0 and 1 (R229). -/
def isPseudo (p : Nat) : Bool := p < 2
/-- The pseudo-channel of a channel-local address: its bit 8 (R234). -/
def pseudoOf (loc : Nat) : Nat := loc / 256 % 2
/-- Whether a failed transfer lies on a pseudo-channel: its word does, where it names one (R234, R241). -/
def ParityCase.onPseudo (pc : Nat) : ParityCase → Bool
  | .recovered _ => true
  | .retrained => true
  | .readFails w => w < 2 ^ 26 && pseudoOf (32 * w) = pc
  | .writeFails w _ => w < 2 ^ 26 && pseudoOf (32 * w) = pc
/-- Memory stacks are 0 to 47 in the module: six on each die (R230). -/
def isStack (n : Nat) : Bool := n < 48
/-- Die-cache slices are 0 to 5 on each die (R202). -/
def isSlice (x : Nat) : Bool := x < 6
/-- Error sites are 0 to 408 on each die (R395). -/
def isSite (x : Nat) : Bool := x < 409
/-- Physical rows and columns of an array are 0 to 33 (R124). -/
def isRank (x : Nat) : Bool := x < 34

/-- A cache that exists. -/
def CacheId.wf : CacheId → Bool
  | .l1d k => isCore k
  | .l1i k => isCore k
  | .slice d x => isDie d && isSlice x

/-- A bucket that exists (R238). -/
def BucketId.wf : BucketId → Bool
  | .slice p d x => isPart p && isDie d && isSlice x
  | .lattice p d => isPart p && isDie d

/-- A requester that exists. -/
def Agent.wf : Agent → Bool
  | .core k => isCore k
  | .mover k g => isCore k && isGen g
  | .copyEngine e => isCe e
  | .link l => isLink l
  | .host p => isHostPort p

/-- A margin whose units exist. -/
def marginOk : MarginSample → Bool
  | .timing c _ _ _ => isCluster c
  | .sram k _ => isCore k
  | .lane l n _ => isLink l && n < 8

/-- Whether a number names a unit that returns STALE. -/
def isStaleUnit (u : Nat) : Bool := isCore u || (0x100 ≤ u && isCe (u - 0x100)) || (0x1000 ≤ u && u - 0x1000 < 384)

/-- A command all of whose unit operands name units of the module (R2 to R4, R49). -/
def Instr.wf : Instr → Bool
  | .read _ _ => true
  | .consumeRead _ _ => true
  | .descriptorRead _ _ => true
  | .readMulti _ _ => true
  | .write _ _ => true
  | .fWriteDurable => true
  | .subscribe _ _ => true
  | .subscribeCancel _ _ => true
  | .notifyPeriodic _ => true
  | .notifyOnChange _ => true
  | .sessionOpen _ _ => true
  | .sessionProof _ _ => true
  | .credSlotUnlock _ => true
  | .sessionClose _ _ => true
  | .sessionIdleTimeout _ => true
  | .pendingSessionTimeout _ => true
  | .restore _ _ => true
  | .mbxDoorbell fn _ => isFn fn
  | .mbxResponse fn => isFn fn
  | .mbxRspAck fn _ => isFn fn
  | .mbxNtfTail fn _ => isFn fn
  | .registerWrite fn _ _ _ => isFn fn
  | .arrayClockGate a => isArray a
  | .arrayStartAdmitted a => isArray a
  | .arrayEntryPush a => isArray a
  | .arrayParityError a prow pcol => isArray a && isRank prow && isRank pcol
  | .arrayRepairDone a => isArray a
  | .repairRequest _ _ => true
  | .programLoaded k => isCore k
  | .stepRepeat k => isCore k
  | .tile k => isCore k
  | .tileExpanderIssue k => isCore k
  | .paramColumn k => isCore k
  | .paramTable k => isCore k
  | .paramZero k => isCore k
  | .agen k => isCore k
  | .loadct k => isCore k
  | .setcmp k => isCore k
  | .tangent k => isCore k
  | .syncChord k => isCore k
  | .syncSigwait k => isCore k
  | .syncSigadd k => isCore k
  | .endWord k => isCore k
  | .moverReadReturn k g => isCore k && isGen g
  | .storeMoverWrite k g => isCore k && isGen g
  | .streamComplete k g => isCore k && isGen g
  | .tokenEmit k => isCore k
  | .haltReq _ k _ => isCore k
  | .resume _ k => isCore k
  | .resumeStep _ k _ => isCore k
  | .stepCountHalt k => isCore k
  | .blockPlace k => isCore k
  | .ifetchMiss k g => isCore k && isGroup g
  | .add k g _ => isCore k && isGroup g
  | .sub k g _ => isCore k && isGroup g
  | .mulLo k g _ => isCore k && isGroup g
  | .mulHiS k g _ => isCore k && isGroup g
  | .mulHiU k g _ => isCore k && isGroup g
  | .andOp k g _ => isCore k && isGroup g
  | .orOp k g _ => isCore k && isGroup g
  | .xorOp k g _ => isCore k && isGroup g
  | .andn k g _ => isCore k && isGroup g
  | .shl k g _ => isCore k && isGroup g
  | .shrU k g _ => isCore k && isGroup g
  | .shrS k g _ => isCore k && isGroup g
  | .minS k g _ => isCore k && isGroup g
  | .minU k g _ => isCore k && isGroup g
  | .maxS k g _ => isCore k && isGroup g
  | .maxU k g _ => isCore k && isGroup g
  | .sel k g _ => isCore k && isGroup g
  | .setp k g _ => isCore k && isGroup g
  | .fadd k g _ => isCore k && isGroup g
  | .fsub k g _ => isCore k && isGroup g
  | .fmul k g _ => isCore k && isGroup g
  | .ffma k g _ => isCore k && isGroup g
  | .fmin k g _ => isCore k && isGroup g
  | .fmax k g _ => isCore k && isGroup g
  | .fdiv k g _ => isCore k && isGroup g
  | .fsqrt k g _ => isCore k && isGroup g
  | .fsetp k g _ => isCore k && isGroup g
  | .cvt k g _ => isCore k && isGroup g
  | .rcp k g _ => isCore k && isGroup g
  | .rsq k g _ => isCore k && isGroup g
  | .ex2 k g _ => isCore k && isGroup g
  | .lg2 k g _ => isCore k && isGroup g
  | .movi k g _ => isCore k && isGroup g
  | .mov k g _ => isCore k && isGroup g
  | .shflIdx k g _ => isCore k && isGroup g
  | .shflUp k g _ => isCore k && isGroup g
  | .shflDown k g _ => isCore k && isGroup g
  | .shflXor k g _ => isCore k && isGroup g
  | .voteAll k g _ => isCore k && isGroup g
  | .voteAny k g _ => isCore k && isGroup g
  | .voteBallot k g _ => isCore k && isGroup g
  | .pand k g _ => isCore k && isGroup g
  | .por k g _ => isCore k && isGroup g
  | .pxor k g _ => isCore k && isGroup g
  | .pnot k g _ => isCore k && isGroup g
  | .rdsr k g _ => isCore k && isGroup g
  | .ld k g _ => isCore k && isGroup g
  | .ldDataReturn k g => isCore k && isGroup g
  | .st k g _ => isCore k && isGroup g
  | .ldb k g _ => isCore k && isGroup g
  | .stb k g _ => isCore k && isGroup g
  | .acpLane k g _ => isCore k && isGroup g
  | .acpBulk k g _ => isCore k && isGroup g
  | .acpPartWritten k _ => isCore k
  | .arradd k g _ => isCore k && isGroup g
  | .arrset k g _ => isCore k && isGroup g
  | .arrwait k g _ => isCore k && isGroup g
  | .atomAdd k g _ => isCore k && isGroup g
  | .atomMinS k g _ => isCore k && isGroup g
  | .atomMinU k g _ => isCore k && isGroup g
  | .atomMaxS k g _ => isCore k && isGroup g
  | .atomMaxU k g _ => isCore k && isGroup g
  | .atomAnd k g _ => isCore k && isGroup g
  | .atomOr k g _ => isCore k && isGroup g
  | .atomXor k g _ => isCore k && isGroup g
  | .atomSwap k g _ => isCore k && isGroup g
  | .atomCas k g _ => isCore k && isGroup g
  | .red k g _ => isCore k && isGroup g
  | .vredB32 k g _ => isCore k && isGroup g
  | .vredW16 k g _ => isCore k && isGroup g
  | .vredB16 k g _ => isCore k && isGroup g
  | .fence k g _ => isCore k && isGroup g
  | .bra k g _ => isCore k && isGroup g
  | .brc k g _ => isCore k && isGroup g
  | .call k g _ => isCore k && isGroup g
  | .ret k g _ => isCore k && isGroup g
  | .exit k g _ => isCore k && isGroup g
  | .lockBegin k g _ => isCore k && isGroup g
  | .lockAcquired k g => isCore k && isGroup g
  | .lockEnd k g _ => isCore k && isGroup g
  | .lockInstrLimit k g => isCore k && isGroup g
  | .lockTimeout k g => isCore k && isGroup g
  | .apush k g _ => isCore k && isGroup g
  | .sigwait k g _ => isCore k && isGroup g
  | .sigadd k g _ => isCore k && isGroup g
  | .setrnd k g _ => isCore k && isGroup g
  | .rdflg k g _ => isCore k && isGroup g
  | .clrflg k g _ => isCore k && isGroup g
  | .thrHalt _ k => isCore k
  | .thrForcedHalt _ k => isCore k
  | .thrResume _ k => isCore k
  | .thrStep _ k => isCore k
  | .rds r _ _ _ => r.wf
  | .rdu k _ _ _ => isCore k
  | .upg k _ => isCore k
  | .wb k _ => isCore k
  | .evn k _ _ => isCore k
  | .iwr r _ _ => r.wf
  | .atm r _ _ _ _ _ => r.wf
  | .sni k _ => isCore k
  | .sns k _ => isCore k
  | .ackInv k _ => isCore k
  | .ackShr k _ => isCore k
  | .notPresent k _ => isCore k
  | .wbPending k _ => isCore k
  | .grant k _ => isCore k
  | .wbAck k _ => isCore k
  | .comp r _ => r.wf
  | .compAck k _ => isCore k
  | .fill k _ _ _ _ _ => isCore k
  | .snpdat k _ _ _ => isCore k
  | .wbdat k _ _ _ => isCore k
  | .wdata r _ _ => r.wf
  | .atmdat k g => isCore k && isGroup g
  | .cacheDrain _ c => c.wf
  | .cacheDiscard _ c => c.wf
  | .cacheEnable _ c => c.wf
  | .cacheDrained c => c.wf
  | .waymask _ d ms => isDie d && ms.all fun m => isPart m.1
  | .waymaskReclaimDone d => isDie d
  | .chanOwner _ cs => cs.all fun c => isChan c.1
  | .channelClearDone ch => isChan ch
  | .bucketAdmit b => b.wf
  | .hbmParityError ch pc e => isChan ch && isPseudo pc && e.onPseudo pc
  | .suspectExpire ch => isChan ch
  | .patrolScrub ch _ => isChan ch
  | .channelMigrationDone ch => isChan ch
  | .trainSlot d => isDie d
  | .trainSlotEnd d _ => isDie d
  | .trainSlotAbandon d => isDie d
  | .walkComplete d => isDie d
  | .faultRecordWrite d => isDie d
  | .faultReplay fn _ _ => isFn fn
  | .faultCancel fn _ _ => isFn fn
  | .faultTimeout d _ => isDie d
  | .tlbSetmask _ d ms => isDie d && ms.all fun m => isPart m.1
  | .prodWrite fn _ _ => isFn fn
  | .consWrite fn _ _ => isFn fn
  | .commandFetch _ => true
  | .accept _ => true
  | .ctlEnable _ fn _ => isFn fn
  | .ctxCreate fn => isFn fn
  | .ctxDestroy fn => isFn fn
  | .ringCreate fn => isFn fn
  | .ringDestroy fn => isFn fn
  | .memCreate fn => isFn fn
  | .memDestroy fn => isFn fn
  | .arcCreate fn => isFn fn
  | .arcDestroy fn => isFn fn
  | .sigCreate fn => isFn fn
  | .sigDestroy fn => isFn fn
  | .invalidate fn => isFn fn
  | .invalidateComplete fn => isFn fn
  | .nop _ => true
  | .step _ => true
  | .run _ => true
  | .copy _ => true
  | .wait _ => true
  | .signal _ => true
  | .shardBegin k => isCore k
  | .shardEnd k => isCore k
  | .copyComplete e => isCe e
  | .runTimeout e => isEngine e
  | .waitTimeout _ => true
  | .terminalRecord _ => true
  | .parkEviction => true
  | .signalAdd _ _ _ => true
  | .sigPoll => true
  | .wake fn _ _ => isFn fn
  | .addValue fn _ _ => isFn fn
  | .chordArrive fn _ _ => isFn fn
  | .mgmtArrive _ i _ => isChord i
  | .members _ i _ => isChord i
  | .linkTrainingStart l => isLink l
  | .linkTrained l => isLink l
  | .linkPrsntDeassert l => isLink l
  | .helloSend l => isLink l
  | .hello l _ _ => isLink l
  | .helloTimeout l => isLink l
  | .lctrlAck l _ => isLink l
  | .lctrlNak l _ => isLink l
  | .lctrlCredit l _ _ _ => isLink l
  | .messageTransmit _ => true
  | .messageForward l _ => isLink l
  | .msgWrite l _ => isLink l
  | .msgReduce l _ => isLink l
  | .msgReadReq l _ => isLink l
  | .msgReadData l _ => isLink l
  | .msgAtomic l _ => isLink l
  | .msgAtomicRsp l _ => isLink l
  | .msgAck l _ => isLink l
  | .ackTimer _ => true
  | .nackStale l _ => isLink l
  | .nackAuth l _ => isLink l
  | .nackNokey l _ => isLink l
  | .msgOpen l _ => isLink l
  | .openRsp l _ => isLink l
  | .resolve l _ => isLink l
  | .resolveRsp l _ => isLink l
  | .msgArrive l _ => isLink l
  | .arcRtoExpire _ => true
  | .arcRetryTimer _ => true
  | .linkDrain _ l => isLink l
  | .linkDrained l => isLink l
  | .drainTimeout l => isLink l
  | .linkResume _ l => isLink l
  | .linkRetrain _ l => isLink l
  | .routeSet _ _ => true
  | .keySet _ => true
  | .keyClear _ => true
  | .getMeasurements _ _ => true
  | .keyExchange => true
  | .getCertificate _ => true
  | .challenge _ _ => true
  | .powerLoop _ => true
  | .pointSettled c => isCluster c
  | .tangentLapse c => isCluster c
  | .droop c => isCluster c
  | .droopEnd c => isCluster c
  | .currentLimit _ => true
  | .vin48Undervoltage _ => true
  | .throttleAssert => true
  | .throttleDeassert => true
  | .thermalTrip _ _ => true
  | .marginSample m => marginOk m
  | .energyRecalibrate _ => true
  | .siteEvent d site _ => isDie d && isSite site
  | .siteBucketRoll d site => isDie d && isSite site
  | .siteActionBegin d site => isDie d && isSite site
  | .siteActionDone d site => isDie d && isSite site
  | .staleClearDone u _ => isStaleUnit u
  | .siteClear _ d site => isDie d && isSite site
  | .ledgerCommit => true
  | .trendRecord d => isDie d
  | .ctxCounterUpdate k => isCore k
  | .traceEnable _ _ => true
  | .traceCons _ _ => true
  | .watchCfg _ i _ => isArray i
  | .bypass => true
  | .idcode => true
  | .samplePreload _ => true
  | .extest => true
  | .geind _ => true
  | .svnCommit _ _ => true
  | .svcToken _ _ => true
  | .svcEnable _ _ => true
  | .l3SessionExpire _ => true
  | .credKey _ slot _ => slot < 16
  | .coreMask _ ms => ms.all fun m => isPart m.1
  | .teardown _ part _ => isPart part
  | .teardownDone part => isPart part
  | .auxPowerOn _ => true
  | .powerOn _ => true
  | .startWarm _ => true
  | .startCold _ => true
  | .startExtendedCold _ => true
  | .stop _ => true
  | .watchdog d => isDie d
  | .quiesceTimeout => true
  | .startTimeout noImage => noImage.all isDie
  | .startEscalation => true
  | .startComplete bad => bad.all isStack
  | .hostConfigReady port => isHostPort port
  | .hostPortReset port => isHostPort port
  | .svcBtnPress => true
  | .svcBtnHold => true
  | .grpBtnPress d => isDie d
  | .latchAssert => true
  | .latchDeassert => true
  | .latchResumeTimer => true
  | .identify _ _ => true
  | .identifyExpire => true
  | .vin48Loss _ => true
  | .auxLoss _ => true
  | .refclkLoss => true
  | .pllLockLoss d => isDie d
  | .refclkRestored => true
  | .linkPrsntAssert l => isLink l
  | .flitCrcFail l => isLink l
  | .hostLinkDown port => isHostPort port
  | .ethLinkDown => true
  | .ethLinkUp => true
  | .spdmSessionEnd => true
  | .linkDownLedTimer l => isLink l
  | .inletTempMeasurement _ => true

end Sys2Proof
end

