-- ==== Sys2Proof/Decode.lean ====
section
/-! DEFINITION. The block's commands have no binary words: no row of the table gives bits, so no word spells a command. -/

namespace Sys2Proof

/-- The command that a word spells by the table's bits: the table gives no row any, so none. -/
def decodeTableWord (_nbits _w : Nat) : Option Instr := none

end Sys2Proof
end

