-- ==== Sys2Proof/Config.lean ====
section
/-! DEFINITION. What the manual leaves open: fused values, random draws and results within a stated error. Nothing here has
a body, so no proof can see a value (log entries 5, 10 and 12). -/

namespace Sys2Proof.Config

/-- The hardware random source's draws for SESSION values (R483). -/
opaque freeSession : Nat → BitVec 32

/-- Its draws for device nonces (R38). -/
opaque freeNonce : Nat → BitVec 128

/-- Jurad's PCI-SIG vendor identifier (R50). -/
opaque vendorId : BitVec 16

/-- SERIAL's parts (R50), each brought into its range by its reader: 0 and 1 the plant's letters, 2 the year, 3 the ISO week, 4 the
sequence number. -/
opaque serialPart : Nat → BitVec 32

/-- BUILT in whole seconds (R50). -/
opaque builtSeconds : BitVec 34

/-- Which Jurad vendor objects there are (R48), by index from 0xF000: 0 none, 1 of level L3, 2 and 3 of level L4. -/
opaque vendorIndex : Nat → BitVec 2

/-- What an L3 vendor object is, by index and subindex: [0] it exists, [4:1] its type modulo 12, [16:5] its size less 1 where it is an octet
string or a text, [18:17] its access right, [63:32] its default. -/
opaque vendorObject : Nat → Nat → BitVec 64

/-- SVN_FUSED as manufactured (R437). -/
opaque svnFused : BitVec 16

/-- FUSE_ROWS of an array (R125). -/
opaque fuseRows : Nat → BitVec 16

/-- FUSE_COLS of an array (R125). -/
opaque fuseCols : Nat → BitVec 16

/-- How a lasting site of an array is classified (R118, R121), by array and site word: [1:0] 1 a row bus, 2 a column path, else a single cell;
[8:2] and [15:9] the physical row and column where no parity error recorded them. -/
opaque arrayDefect : Nat → Nat → BitVec 16

/-- Whether the module is the engineering sample JXM-896-ES (R475, R476). -/
opaque sample : Bool

/-- The four cores that an engineering sample may have fuse-disabled (R476): 96 and above name none. -/
opaque offCore : Nat → BitVec 7

/-- Version, security version, slot and digest of the image that a start accepts (R424, R437), by count of starts. -/
opaque fwVersion : Nat → BitVec 32
opaque fwSvn : Nat → BitVec 16
opaque fwSlot : Nat → BitVec 1
opaque fwMeasure : Nat → BitVec 384

/-- Measurement blocks 1, 2 and 16 + d (R428), and at 4 the fused hash of the public key of Jurad (R424). -/
opaque acrunMeasure : Nat → BitVec 384

/-- Signatures of the identity key (R426, R427), and the chain in certificate slot 0. -/
opaque identitySign : List Byte → Nat → BitVec 768
opaque certChain : List Byte

/-- The SFU's choice among the results that its error bound leaves (R179), by operand and draw: RCP, RSQ, EX2, LG2. -/
opaque sfu : Nat → BitVec 32 → Nat → BitVec 32

/-- The result of a LG2, RSQ or RCP of an operand for which the spec states none (R180). -/
opaque sfuOpen : Nat → BitVec 32 → Nat → BitVec 32

/-- Whether a WRITE of F objects that was not answered holds its new values after a loss of power (R20). -/
opaque flashKept : Nat → Bool

/-- A free octet string or number where the spec states no value: by place and draw. -/
opaque freeNat : Nat → Nat → BitVec 64

/-- The boundary-scan register's inputs and the device identification register (R420). -/
opaque boundary : Nat → List Bool
opaque idcode : BitVec 32

/-- Which operand a result takes its NaN from when several operands are NaN (R55, R56): an index into the NaN operands. -/
opaque nanPick : List Nat → Nat

/-- Whether a fused multiply-add of zero, infinity and a quiet NaN signals invalid operation: IEEE 754 leaves it (R55). -/
opaque fmaSignals : Bool

/-- Whether FSETP.LT and FSETP.LE signal invalid operation on a quiet NaN: the manual does not say (R180). -/
opaque lessSignals : Bool

/-- SIG and X of a carry form whose SPECIAL is not finite, which a special state overrides (R73, R74), by draw. -/
opaque carryRest : Nat → BitVec 72

/-- The other end of a die-to-die edge, whose course the manual does not give (R395): for port `p` of die `d`, numbered 6d + p, the
same number on the other die, or 48 and above for none. -/
opaque edgePeer : Nat → Nat

end Sys2Proof.Config
end

