-- ==== Sys2Proof/Machine/State.lean ====
section
/-! DEFINITION. Everything the spec gives the module as plain data, the reasons a step can stop, and the module after reset.
Objects of the Geind dictionary are held in one table, `State.obj`; the rest of the state is held by unit. A unit that is
not listed in its table is as after reset. -/

namespace Sys2Proof.Machine

/-- Why the machine stops: there is no reason, since every command of the table has an effect in every state (log entries 2 and 72). -/
inductive Fault where
  deriving DecidableEq, Repr

/-- Why a command has no meaning here. -/
inductive Refusal where
  /-- Raised by an arm of `exec` that has no meaning yet. Safe: nothing is claimed of it. -/
  | notModelled (mnemonic : String)
  deriving DecidableEq, Repr

/-- What the module has sent to the outside. -/
inductive Out where
  /-- A Geind frame sent on a transport (R23, R34). -/
  | frame (p : Port) (f : Frame)
  /-- An MSI-X message of a host function (R46, R278, R336). -/
  | msix (fn vec : Nat)
  /-- A HEAD or BODY flit sent on a link (R351): its link header (R352), and in a HEAD flit the transport header (R353). -/
  | flit (l head : Nat) (transport : Option Nat)
  /-- A perimeter message whose last flit was sent on a link (R353, R354). -/
  | perimeter (l : Nat) (m : PMsg)
  /-- A link-control flit: HELLO (R358), ACK and NAK (R355). Its kind is 0 HELLO, 1 ACK, 2 NAK, 3 a return of
  credits (R356). -/
  | lctrl (l kind v w : Nat)
  /-- An SPDM answer: its kind and octets (R427, R428, R431). -/
  | spdm (kind : Nat) (data : List Byte)
  /-- A PCI Express AtomicOp sent to a host window: FetchAdd, Swap or CAS, with the requester ID of a function and its operands, of `w` bytes
  each (R193, R299). -/
  | pcieAtomic (port fn addr : Nat) (op : AtomOp) (w b c : Nat)
  /-- Bits shifted out of the test access port (R420). -/
  | tdo (bits : List Bool)
  deriving DecidableEq, Repr

/-- A session (R36 to R42, R429). -/
structure Sess where
  id : Nat                          -- 32 b; R36
  level : Nat                       -- 0 to 3; R36
  part : Nat                        -- bound partition of an L1 session; R40
  port : Port                       -- transport and host function it belongs to; R36
  pending : Bool                    -- R39
  slot : Nat                        -- credential slot named at the opening; R39
  cnonce : List Byte                -- 16 octets; R38
  dnonce : List Byte                -- 16 octets; R38
  key : List Byte                   -- the key of its credential slot when it was opened; R39, R430
  scope : Nat                       -- the scope of that slot then; R430
  proven : Bool                     -- a proof was made: its Ethernet frames are tagged; R42
  lastSeq : Option Nat              -- 32 b; R38
  kept : List (Nat × Frame)         -- responses to the last 64 requests; R38
  opened : Nat                      -- ns; R41, R429
  lastUse : Nat                     -- ns; R36
  tokenEnd : Option Nat             -- end of an L3 token's DURATION, ns; R429
  seg0 : List (Nat × Nat)           -- object and its changes counted when segment 0 was read; R26
  ctxSel : Nat                      -- CTX_SEL, per session; R412
  trendSel : Nat                    -- TREND_SEL, per session; R422
  ntfSeq : Nat                      -- notifications sent to the session; R34
  deriving DecidableEq, Repr

/-- A subscription (R32 to R35). -/
structure Sub where
  id : Nat                          -- SUBID, 16 b; R32
  sess : Nat                        -- R34
  period : Nat                      -- ns; R32
  onChange : Bool                   -- R32
  items : List (Nat × Nat)          -- index and subindex; R33
  lastTime : Nat                    -- ns; R32
  lastVals : List Nat               -- values last notified; R32
  dropped : Nat                     -- R34
  deriving DecidableEq, Repr

/-- A host function's mailbox (R45 to R47). -/
structure Mbx where
  req : Tbl Byte                    -- MBX_REQ by offset; R45
  frame : List Byte                 -- the submitted frame; R45
  len : Nat                         -- the submitted length; R45
  busy : Bool                       -- MBX_STATUS [0]; R45
  ready : Bool                      -- MBX_STATUS [1]; R45
  overrun : Bool                    -- MBX_STATUS [2]; R45
  rsp : List Byte                   -- MBX_RSP, the last response; R45
  stale : List Byte                 -- MBX_RSP behind it, from earlier responses; R45
  slots : Tbl (List Byte)           -- MBX_NTF0 to 2; R45
  head : Nat                        -- MBX_NTF_HEAD; R45
  tail : Nat                        -- MBX_NTF_TAIL; R45
  unread : Nat                      -- slots that the driver has not read, at most 3; R47
  deriving DecidableEq, Repr

/-- A WRITE of F objects that flash does not hold yet (R20): the old values and the answer owed. -/
structure FlashRec where
  old : List (Nat × Option Nat)     -- R20
  port : Port                       -- R20
  rsp : Frame                       -- R20
  deriving DecidableEq, Repr

/-- A queue descriptor (R143). -/
structure QDesc where
  valid : Bool                      -- R143
  kind : Nat                        -- 0 DATA, 1 TOKEN, 2 ADDR; R143
  width : Nat                       -- bytes; R143
  depth : Nat                       -- R143
  base : Nat                        -- byte offset in the operand store; R143
  deriving DecidableEq, Repr

/-- A queue entry with its sideband (R145). -/
structure Entry where
  data : Nat                        -- the entry's bytes as a little-endian number; R145
  token : Nat                       -- 8 b; R145
  last : Bool                       -- R145
  at_ : Nat := 0                    -- MATRIX cycle of its push; R148
  src : Nat := 0                    -- its source, in the order of R148: array a, 4 + mover, 12 the sequencer, 16 + group
  deriving DecidableEq, Repr

/-- A queue's contents (R146). -/
structure Queue where
  entries : List Entry              -- head first; R146
  reserved : Nat                    -- slots reserved by issued vectors; R104
  deriving DecidableEq, Repr

/-- An address generator's configuration (R139, R156). -/
structure Gen where
  configured : Bool                 -- R156
  indirect : Bool                   -- MODE; R139
  store : Bool                      -- DIR; R139
  dq : Nat                          -- R139
  aq : Nat                          -- R139
  run : Nat                         -- run length in bytes; R139
  levels : Nat                      -- 1 to 6; R139
  base : Nat                        -- 56 b; R139
  bounds : List Nat                 -- six; R155
  strides : List Int                -- six, 36 b each; R155
  deriving DecidableEq, Repr

/-- A stream that a generator's mover runs (R157 to R161). -/
structure Stream where
  pos : Nat                         -- runs done in the present loop nest; R155
  base : Option Nat                 -- BASE in use, none before an INDIRECT stream's first record; R159
  recs : List Nat                   -- address records left of the popped entry; R159
  lastRec : Bool                    -- the record in use has END set; R159
  finished : Bool                   -- every run has been made; R155
  stamp : Option Nat                -- EM_TOK of the launching word; R149
  serial : Nat                      -- the word that launched it; R150
  stalled : Bool                    -- waits on a translation fault; R161
  partEntry : Nat                   -- bytes of the entry being packed or unpacked; R158
  partData : Nat                    -- its data; R158
  acks : Nat                        -- writes not yet acknowledged; R157
  deriving DecidableEq, Repr

/-- A token emission that waits for its word's effects (R150). -/
structure Emit where
  serial : Nat                      -- R150
  queue : Nat                       -- R150
  token : Nat                       -- R150
  deriving DecidableEq, Repr

/-- A SIGADD that waits for earlier words (R141). -/
structure SigLater where
  serial : Nat                      -- R141
  va : Nat                          -- R141
  value : Nat                       -- R141
  deriving DecidableEq, Repr

/-- Where the tile expander stands in a tile's loop (R107 to R113). -/
structure Tile where
  word : Nat                        -- the TILE word; R135
  serial : Nat                      -- R150
  ngroup : Nat                      -- N-group in progress; R109
  mblock : Nat                      -- M-block in progress; R109
  chunk : Nat                       -- K-chunk in progress; R109
  sweep : Nat                       -- sweep in progress; R113
  row : Nat                         -- vectors issued of the present block; R109
  loaded : Nat                      -- rows loaded of the next weight set; R109
  sets : Nat                        -- weight sets loaded whole; R109
  swapped : Nat                     -- weight sets swapped in; R109
  awaited : Nat                     -- mask of awaits already checked; R153
  deriving DecidableEq, Repr

/-- A core's sequencer (R126 to R167). -/
structure Seq where
  loaded : Bool                     -- a program is loaded; R127
  loading : Bool                    -- a program load is in progress; R127
  imageBytes : Nat                  -- the image read, little-endian; R126
  nwords : Nat                      -- WORDS; R126
  words : Tbl Nat                   -- control store, 2,048 × 256 b; R127
  qdesc : Tbl QDesc                 -- queue table, 32; R143
  queues : Tbl Queue                -- Q0 to Q31; R146
  gens : Tbl Gen                    -- A0 to A7; R156
  streams : Tbl Stream              -- active streams by generator; R157
  ct : Tbl Nat                      -- CT0 to CT7, 32 b; R131
  cmp : Tbl Nat                     -- CMP0 to CMP3, the SETCMP payload plus 1, 0 unconfigured; R140
  cmpVal : Tbl Bool                 -- comparators as last evaluated; R129
  pc : Nat                          -- current word; R128
  rep : Nat                         -- repeats issued of the current word; R128
  count : Option Nat                -- its repeat count when taken from a counter; R128
  serial : Nat                      -- words that became current; R150
  cycle : Nat                       -- MATRIX cycles since the program began; R128
  emits : List Emit                 -- pending token-queue emissions, at most 16; R150
  sigs : List SigLater              -- pending SIGADDs; R141
  tile : Option Tile                -- TILE in progress; R136
  ended : Bool                      -- END issued; R142
  stepLeft : Option Nat             -- words left of a RESUME step; R165
  waiting : Bool                    -- the SYNC word has arrived or taken its watch; R141
  released : Bool                   -- the SYNC word's wait is over; R141
  accept : Nat                       -- cycle at which the waiting repeat may issue; R117
  held : Nat                        -- held fault's code, 0 none; R165
  haltNext : Bool                   -- a halt request is pending; R165
  deriving DecidableEq, Repr

/-- A row-load as issued: its weights expanded with the load parameters then in force (R95, R101). -/
structure RowLoad where
  row : Nat                         -- R95
  cycle : Nat                       -- R95
  cells : Nat                       -- 32 cells of 512 bits: the elements each register holds; R89
  b32 : Bool                        -- they are binary32, of which it holds one piece; R113
  piece : Nat                       -- WPIECE; R133
  scales : Nat                      -- 32 bytes, one S8 a cell; R88
  hasScale : Bool                   -- R91
  deriving DecidableEq, Repr

/-- What was issued to an array, in order (R95 to R100). -/
inductive ArrOp where
  | load (r : RowLoad)
  | swap (cycle : Nat)
  | param (cycle sigma mask : Nat)
  deriving DecidableEq, Repr

/-- A vector in flight in one array (R92). -/
structure Vec where
  cycle : Nat                       -- p; R92
  serial : Nat                      -- R150
  act : Nat                         -- activation entry; R90
  asc : Nat                         -- activation-scale entry; R91
  hasAsc : Bool                     -- R91
  afmt : Nat                        -- R132
  wfmt : Nat                        -- format of the weights as the registers hold them, 16 affine; R89, R132
  apiece : Nat                      -- R133
  n : Nat                           -- products a cell; R88
  rows : Nat                        -- ungated rows, from 0; R115
  tail : Nat                        -- products of its last ungated row; R107
  inj : Option Nat                  -- injected carry entry; R94
  toPs : Bool                       -- DEST; R133
  ofmt : Nat                        -- R132
  affine : Bool                     -- R75
  ownCols : Bool                    -- the extent mask and σ = 1.0 stand for the output parameters; R136
  extent : Nat                      -- extent mask; R136
  fullcol : Bool                    -- R133
  queue : Nat                       -- queue the entry goes to; R103
  token : Nat                       -- R149
  last : Bool                       -- R149
  deriving DecidableEq, Repr

/-- One matrix array (R87 to R125). -/
structure ArrayU where
  ops : List ArrOp                  -- registers, as the loads and swaps that made them; R88, R100
  vecs : List Vec                   -- in flight, oldest first; R92
  zeros : Nat                       -- 32 INT8 zero points; R101
  gated : Bool                      -- clock-gated; R117
  starting : Bool                   -- a start waits for admission; R117
  idle : Nat                        -- MATRIX cycle after the last thing in flight; R117
  fault : Option (Nat × Nat)        -- physical row and column of the last parity error; R118
  wants : List (Bool × Nat)         -- soft skips requested: column, index; R124
  spare : Option (Bool × Nat × Bool) -- the soft skip that the repair under way puts in: column, index, for its lasting site; R121
  deriving DecidableEq, Repr

/-- A stack entry of a group (R182). -/
structure SEnt where
  pc : Int                          -- reconvergence or return point, in bytes; R182
  mask : Nat                        -- 32 b; R182
  kind : Nat                        -- 0 reconvergence, 1 taken path, 2 return point; R182
  deriving DecidableEq, Repr

/-- A load, atomic or copy that a group has issued and whose data have not returned (R173). -/
structure LoadOp where
  dst : Nat                         -- destination register; R178
  width : Nat                       -- bytes; R178
  lanes : List (Nat × Nat)          -- lane and virtual address; R188
  policy : Nat                      -- R178
  order : Nat                       -- R189
  vals : Option (List (Nat × Nat))  -- lane and value already fixed at the home, for an atomic; R191
  deriving DecidableEq, Repr

/-- What a group waits on (R173). -/
inductive Wait where
  | none
  | arr (k v : Nat)                 -- R186
  | sig (va v : Nat)                -- R197
  | lock                            -- R194
  deriving DecidableEq, Repr

/-- A locked sequence (R194 to R196). -/
structure LockSt where
  line : Nat                        -- 512-byte line number; R194
  pd : Nat                          -- R194
  fail : Int                        -- resume point, bytes; R196
  lanes : Nat                       -- lanes that executed LOCK.BEGIN; R175, R194
  active : Nat                      -- active mask at LOCK.BEGIN; R196
  stack : List SEnt                 -- stack at LOCK.BEGIN; R196
  count : Nat                       -- instructions issued since LOCK.BEGIN; R196
  held : Bool                       -- acquired; R194
  since : Nat                       -- ns; R196
  buf : Tbl Byte                    -- lock buffer by offset, 512 B; R195
  deriving DecidableEq, Repr

/-- A thread group (R168 to R201). -/
structure Group where
  live : Bool                       -- R169
  block : Nat                       -- block slot of the core; R169
  index : Nat                       -- index within its block; R179
  pc : Int                          -- virtual address; R177
  entry : Nat                       -- ENTRY_PC; R287
  active : Nat                      -- 32 b; R182
  stack : List SEnt                 -- at most 32, top first; R182
  nregs : Nat                       -- allocated registers per thread; R170
  regs : Tbl Nat                    -- X registers by 256 × lane + register, 32 b; R170
  preds : Tbl Nat                   -- P0 to P6 by lane; R172
  flags : Tbl Nat                   -- five sticky flags by lane; R183
  rnd : Nat                         -- rounding attribute, 1 to 5; R183
  wait : Wait                       -- R173
  loads : List LoadOp               -- R173
  lock : Option LockSt              -- R194
  step : Bool                       -- a single step is under way; R198
  last : Nat                        -- instructions its core had issued when it last issued or was placed; R173
  tried : Bool                      -- not ready, as its lane set found since it last issued; R173
  ibuf : Option (Nat × Nat)         -- an instruction served at its home without the L1: its address and word; R210
  deriving DecidableEq, Repr

/-- A resident block (R169 to R172, R186). -/
structure Block where
  live : Bool                       -- R169
  number : Nat                      -- block number in the shard; R288
  groups : List Nat                 -- its group numbers; R169
  size : Nat                        -- allocation in bytes; R171
  store : Tbl Byte                  -- block store from offset 0; R171
  arrive : Tbl Nat                  -- AC0 to AC15, 32 b; R186
  arg : Nat                         -- ARGP; R287
  deriving DecidableEq, Repr

/-- A copy part that ACP still has to write (R185). -/
structure Acp where
  group : Nat                       -- R185
  block : Nat                       -- R185
  src : Nat                         -- virtual address; R185
  off : Nat                         -- block-store offset; R185
  len : Nat                         -- bytes left; R185
  counter : Nat                     -- R185
  deriving DecidableEq, Repr

/-- The shard that a core runs (R288). -/
structure Shard where
  ring : Nat                        -- ring key; R286
  aseq : Nat                        -- R305
  index : Nat                       -- R294
  tag : Nat                         -- R281
  ctx : Nat                         -- context handle; R281
  recd : Nat                        -- the shard record, 512 b; R287
  start : Nat                       -- ns; R293
  bound : Nat                       -- run bound, ns; R293
  nextBlock : Nat                   -- blocks placed; R288
  endedBlocks : Nat                 -- R288
  seqDone : Bool                    -- R142
  code : Nat                        -- error code it ends with, 0 none; R200
  faultGroup : Nat                  -- group whose fault ends it; R200
  byGroup : Bool                    -- a group raised its code; R294
  stopped : Bool                    -- stopped without a code of its own; R290
  begun : Bool                      -- has begun, past a breakpoint; R164
  haltAt : Option Nat               -- ns since when the core is halted or held; R293
  deriving DecidableEq, Repr

/-- A core's thread side beyond its groups (R168, R198). -/
structure CoreU where
  shard : Option Shard              -- R288
  acps : List Acp                   -- R185
  stores : List (Nat × Nat × Nat)   -- pending store: PA, width in bytes, value; R216
  upgs : List Nat                   -- lines with an UPG outstanding; R220
  streaming : List Nat              -- lines asked for by streaming accesses; R178
  evns : List Nat                   -- lines with an EVN sent; R220
  wbb : List (Nat × Nat × Nat)      -- write-back buffer: line, dirty sectors in [3:0] with their poison in [7:4], data; R221
  pendStale : Bool                  -- becomes STALE when its shard ends; R435
  repairing : Bool                  -- an array repair is in progress; R121
  freeAt : Nat                      -- ns at which it last became free; R319
  stood : Option Nat                -- ns since when the debugger holds the core: its rings' timeouts stand; R165
  issues : Nat                      -- group instructions that it has issued; R173
  clk : Nat                         -- CLK as last read, 0 when a shard begins; R179
  cnts : Tbl Nat                    -- counts of the running shard not yet added to its context, by 256 × unit + event; R412
  deriving DecidableEq, Repr

/-- An L1 line (R204, R211). States: 1 S, 2 E, 3 M. -/
structure L1Line where
  line : Nat                        -- PA / 128; R202
  way : Nat                         -- R205
  st : Nat                          -- R211
  valid : Nat                       -- four sectors; R204
  dirty : Nat                       -- four sectors; R204
  poison : Nat                      -- four sectors; R223
  data : Nat                        -- 128 bytes, little-endian; R202
  deriving DecidableEq, Repr

/-- A die-cache line (R204). -/
structure DcLine where
  line : Nat                        -- PA / 512; R202
  way : Nat                         -- R205
  valid : Nat                       -- four 128-byte sectors; R204
  dirty : Nat                       -- R204
  poison : Nat                      -- sixteen 32-byte quarters; R223
  data : Nat                        -- 512 bytes, little-endian; R202
  deriving DecidableEq, Repr

/-- A duplicate tag (R212). -/
structure DupTag where
  core : Nat                        -- R212
  inst : Bool                       -- instruction cache; R212
  owned : Bool                      -- R212
  valid : Nat                       -- R212
  deriving DecidableEq, Repr

/-- The operands of an ATM message (R191, R192, R214). -/
structure AtomMsg where
  op : AtomOp                       -- R191
  pa : Nat                          -- R191
  va : Nat                          -- the virtual address that its lane named; R191
  width : Nat                       -- bytes; R191
  b : Nat                           -- SRCB, or a reduction's sector of elements; R191, R192
  c : Nat                           -- SRCC, or a reduction's active lanes; R191, R192
  group : Nat                       -- the group that issued it; R191
  lane : Nat                        -- its lane; R191
  ret : Bool                        -- the old value goes back; R191
  acq : Bool                        -- later accesses of its group wait for it; R189
  deriving DecidableEq, Repr

/-- What a home serves for a line (R214). A `unit` request is one that an agent without a cache makes as a whole (log entry 9). -/
inductive HomeReq where
  | rds (r : Agent) (mask : Nat) (na inst : Bool)
  | rdu (k mask : Nat) (nodata : Bool)
  | upg (k mask : Nat)
  | iwr (r : Agent) (pa mask : Nat) (data : List Byte)
  | atm (r : Agent) (m : AtomMsg)
  | lock (k g : Nat)
  | unit (r : Agent) (pa n : Nat) (write : Bool)
  deriving DecidableEq, Repr

/-- An open transaction of a home (R213). -/
structure Tx where
  line : Nat                        -- L1 line; R213
  req : HomeReq                     -- R213
  await : List Nat                  -- cores whose snoop answer is awaited; R220
  wbs : List Nat                    -- cores whose write-back is awaited; R220
  granted : Bool                    -- the fill or grant is out; COMP-ACK is awaited; R213
  deriving DecidableEq, Repr

/-- A request that waits for a token bucket (R238). -/
structure BWait where
  bucket : Nat                      -- R238
  bytes : Nat                       -- R238
  since : Nat                       -- ns; R240
  line : Nat                        -- R213
  req : HomeReq                     -- R213
  deriving DecidableEq, Repr

/-- A coherence message in flight (R214). -/
structure LMsg where
  kind : String                     -- message name; R214
  src : Nat                         -- core, or 256 + home die; R214
  dst : Nat                         -- core, or 256 + home die; R214
  line : Nat                        -- R214
  mask : Nat                        -- R214
  data : Nat                        -- R214
  atom : Option AtomMsg := none     -- an ATM message's operands; R214
  here : Bool := false              -- it has reached its home, and is kept until it is answered; R213
  deriving DecidableEq, Repr

/-- A locked die-cache line (R194). -/
structure HomeLock where
  line : Nat                        -- PA / 512; R194
  core : Nat                        -- R194
  group : Nat                       -- R194
  deriving DecidableEq, Repr

/-- A TLB entry (R256). Units: core `k`; 256 + `e` copy engine; 512 + `d` die. -/
structure TlbE where
  unit : Nat                        -- R256
  slot : Nat                        -- context slot; R256
  size : Nat                        -- 1 64 KiB, 2 64 MiB, 3 64 GiB; R252
  vpn : Nat                         -- R257
  leaf : Nat                        -- 64 b; R252
  set : Nat                         -- L2 set; R257
  deriving DecidableEq, Repr

/-- Who made a translated access (R261). -/
structure Access where
  ctx : Nat                         -- context handle; R261
  tag : Nat                         -- R261
  engine : Nat                      -- R261
  source : Nat                      -- R261
  kind : Nat                        -- ACCESS; R261
  va : Nat                          -- R261
  rep : Nat                         -- times it has faulted after replay; R261
  since : Option Nat                -- ns of its first detection; R263
  deriving DecidableEq, Repr

/-- A walk in flight, or a miss that waits for a walker (R258). -/
structure Walk where
  die : Nat                         -- R258
  acc : Access                      -- R258
  at_ : Option (Nat × Nat)          -- levels still to read and the table reached, none before ROOT is read; R251
  deriving DecidableEq, Repr

/-- A translation fault (R260, R261). -/
structure TFault where
  die : Nat                         -- R260
  acc : Access                      -- R261
  kind : Nat                        -- R259
  level : Nat                       -- R261
  entry : Nat                       -- R261
  time : Nat                        -- detection, ns; R261
  outstanding : Bool                -- R260
  recorded : Bool                   -- R261
  seq : Nat                         -- R261
  joined : List Access              -- further units stalled by it; R260
  deriving DecidableEq, Repr

/-- A read or atomic that has gone to a peer over a carrier arc and whose answer is awaited or has come (R255, R365, R367). -/
structure PeerReq where
  engine : Nat                      -- R261
  source : Nat                      -- R261
  va : Nat                          -- R367
  arc : Nat                         -- R367
  ring : Nat                        -- the command it serves; R326
  aseq : Nat                        -- R326
  data : Option Nat                 -- the answer's data; R365
  bad : Bool                        -- it came as an uncorrectable error; R235
  deriving DecidableEq, Repr

/-- A context (R250, R295). -/
structure Ctx where
  live : Bool                       -- R269
  root : Nat                        -- R250
  part : Nat                        -- R250
  fring : Nat                       -- fault ring handle; R250
  timeout : Nat                     -- ns; R250
  fn : Nat                          -- creating function; R299
  hw : Option Nat                   -- hardware slot, none when parked; R295
  error : Bool                      -- translation state ERROR; R250
  destroying : Bool                 -- R302
  formerly : Nat                    -- its handle, once a destruction has advanced the generation; R297
  destroyedAt : Nat                 -- ns when its destruction began; R298
  drains : List Nat                 -- engines whose accesses for it may still be on their way; R297
  cntCfg : Nat                      -- 16 selectors; R412
  cnt : Tbl Nat                     -- 16 counters; R412
  deriving DecidableEq, Repr

/-- A memory object (R270). -/
structure MemObj where
  live : Bool                       -- R270
  pa : Nat                          -- R279
  len : Nat                         -- R279
  part : Nat                        -- R279
  fn : Nat                          -- creating function; R272
  deriving DecidableEq, Repr

/-- A registered signal (R270). -/
structure SigObj where
  live : Bool                       -- R270
  ctx : Nat                         -- R279
  part : Nat                        -- of the context named when it was created; R273
  va : Nat                          -- R279
  vector : Nat                      -- R279
  msix : Bool                       -- R279
  fn : Nat                          -- R336
  deriving DecidableEq, Repr

/-- A message kept by an arc's sender (R365, R366). -/
structure TxMsg where
  m : PMsg                          -- R365
  ring : Nat                        -- command that sent it; R366
  aseq : Nat                        -- R366
  sent : Bool                       -- transmitted at least once; R365
  lastTx : Nat                      -- ns; R366
  link : Nat                        -- link of its last transmission; R366
  resends : Nat                     -- timed resends; R366
  nacks : Nat                       -- NACK-AUTH answers; R370
  deriving DecidableEq, Repr

/-- An arc end (R363 to R373). States: 0 PENDING, 1 OPEN, 2 UNREACHABLE, 3 BROKEN, 4 resolving. -/
structure Arc where
  live : Bool                       -- R270
  kind : Nat                        -- 0 copy, 1 peer, 2 signal; R279
  ctx : Nat                         -- R279
  part : Nat                        -- R367
  fn : Nat                          -- creating function; R272
  vertex : Nat                      -- R363
  keySlot : Nat                     -- R363
  name : Nat                        -- R363
  rto : Nat                         -- ns; R363
  state : Nat                       -- R364
  keywait : Bool                    -- R371
  epoch : Nat                       -- 16 b; R372
  darc : Nat                        -- R364
  depoch : Nat                      -- R364
  next : Nat                        -- next MSEQ; R365
  unacked : List TxMsg              -- at most 256; R365
  applied : Nat                     -- highest MSEQ applied; R365
  window : List PMsg                -- reorder window; R365
  sinceAck : Nat                    -- messages applied since the last ACK; R365
  resolves : Nat                    -- resolves unanswered; R373
  keptFrom : Nat                    -- epoch at which its receive state began; R373
  ackAt : Nat                       -- ns of the first message applied since the last ACK; R365
  ctlAt : Nat                       -- ns of its last OPEN or RESOLVE; R364, R373
  ce : Nat                          -- copy engine that serves it, on die ce / 4; R372
  deriving DecidableEq, Repr

/-- An accepted command (R305 to R312). -/
structure Cmd where
  aseq : Nat                        -- R305
  op : Nat                          -- R282
  flags : Nat                       -- R281
  tag : Nat                         -- R281
  ctx : Nat                         -- R281
  seqno : Nat                       -- R286
  index : Nat                       -- ring index of its first record; R305
  recs : List Nat                   -- its records, 512 b each; R281
  bad : Nat                         -- check code of R283, 0 none
  begun : Bool                      -- R289
  waitSince : Option Nat            -- ns since it waits at the head; R293
  reached : Bool                    -- its fence signal has reached its value; R331
  shardsBegun : Nat                 -- R289
  shardsEnded : Nat                 -- R288
  code : Nat                        -- first ending code; R311
  rerun : Nat                       -- re-runs; R312
  ended : Option (Nat × Nat)        -- terminal type and REASON when ready to end; R308
  start : Nat                       -- ns; R293
  engineNs : Nat                    -- R326
  memBytes : Nat                    -- R326
  linkBytes : Nat                   -- R326
  hostBytes : Nat                   -- R326
  capSlot : Option Nat              -- R294
  done : Nat                        -- bytes completed of a COPY; R294
  signalled : Bool                  -- completion signal added; R317
  arcWait : Nat                     -- messages of it not yet acknowledged; R366
  deriving DecidableEq, Repr

/-- A ring of any kind (R270, R274). -/
structure Ring where
  live : Bool                       -- R270
  kind : Nat                        -- 0 step LC, 1 step BE, 2 core, 3 copy, 4 completion, 5 fault; R279
  part : Nat                        -- R273
  fn : Nat                          -- creating function; R275
  base : Nat                        -- bus address; R274
  log2 : Nat                        -- R274
  page : Nat                        -- BAR2 page; R275
  vector : Nat                      -- R279
  engine : Nat                      -- core or copy engine; R279
  comp : Nat                        -- completion ring handle; R279
  runTo : Nat                       -- RUN_TIMEOUT, ns; R293
  waitTo : Nat                      -- WAIT_TIMEOUT, ns; R293
  capBase : Nat                     -- R294
  capLog2 : Nat                     -- R294
  captures : Nat                    -- captures written; R294
  prod : Nat                        -- 32 b; R274
  cons : Nat                        -- 32 b; R274
  rseq : Nat                        -- records written to a completion ring; R306
  fseq : Nat                        -- fault records of the ring; R261
  aseq : Nat                        -- last ASEQ accepted; R305
  fetched : Option Cmd              -- fetched and checked, not accepted; R283
  accepted : List Cmd               -- without terminal record, in ASEQ order; R307
  signalled : Nat                   -- SIGNALLED_ASEQ; R317
  resumed : Bool                    -- PROD written since the start; R318
  virt : Rat                        -- engine time charged, ns, for shares mode; R322
  able : Bool                       -- has a shard able to begin; R322
  ableAt : Nat                      -- ns since which its next shard has been able to begin; R324
  pRseq : Nat                       -- persisted RSEQ of its completion ring; R316
  pOwed : List Nat                  -- persisted ASEQs without terminal records; R316
  pAseq : Nat                       -- persisted last ASEQ; R317
  pSig : Nat                        -- persisted SIGNALLED_ASEQ; R317
  since : Nat                       -- completion records since they were persisted; R316
  recon : Bool                      -- waits for its RESYNC record since the start; R316
  reconAt : Nat                     -- ns when its reconciliation began; R316
  deriving DecidableEq, Repr

/-- A host function's control ring (R278). -/
structure CtlRing where
  prod : Nat                        -- 32 b; R278
  cons : Nat                        -- 32 b; R278
  stale : Nat                       -- context slot plus 1 of the INVALIDATE or CTX-DESTROY under way at its head; R266, R297
  deriving DecidableEq, Repr

/-- A host object table as the module has written it (R272): the objects created through a port, by slot, and the generations of their slots. The
layout that it has in host memory is internal to the module. -/
structure HostTable where
  gens : Tbl Nat                    -- by 65,536 × kind + slot; R272
  ctxs : Tbl Ctx                    -- R272
  mems : Tbl MemObj                 -- R272
  sigs : Tbl SigObj                 -- R272
  arcs : Tbl Arc                    -- R272
  rings : Tbl Ring                  -- by 65,536 × kind + slot; R272
  deriving DecidableEq, Repr

/-- A waiter on a signal word (R331). -/
inductive Waiter where
  | seq (k : Nat)
  | group (k g : Nat)
  | cmd (ring aseq : Nat)
  deriving DecidableEq, Repr

/-- An entry of a watch table, or a waiter that found it full (R331). -/
structure Watch where
  who : Waiter                      -- R331
  ctx : Nat                         -- R329
  va : Nat                          -- R329
  value : Nat                       -- R329
  die : Nat                         -- home die of the word; R331
  entry : Bool                      -- holds one of the die's 512 entries; R331
  deriving DecidableEq, Repr

/-- An addition not yet performed (R330). -/
structure SigAdd where
  ctx : Nat                         -- R330
  va : Nat                          -- R330
  value : Nat                       -- R330
  who : Agent                       -- R330
  ring : Nat                        -- ring of the command that makes it, 0 for none; R290, R309
  aseq : Nat                        -- R290
  deriving DecidableEq, Repr

/-- A chord instance beyond its objects (R337 to R343). -/
structure Chord where
  next : Nat                        -- members arrived for ROUND + 2; R341
  unleft : Nat                      -- members that have not left round ROUND; R341
  unleftPrev : Nat                  -- members that have not left round ROUND - 1; R341
  relTime : Nat                     -- ns of the last release; R341
  remote : Nat                      -- remote arcs arrived for ROUND + 1; R343
  remoteNext : Nat                  -- remote arcs arrived for ROUND + 2; R343
  sent : Bool                       -- ARRIVE sent for ROUND + 1; R343
  deriving DecidableEq, Repr

/-- A flit in a replay buffer (R355). -/
structure Flit where
  lseq : Nat                        -- R355
  m : PMsg                          -- its message; R354
  first : Bool                      -- a HEAD flit; R351
  last : Bool                       -- LASTF; R352
  sentAt : Nat                      -- ns; R355
  deriving DecidableEq, Repr

/-- A perimeter link beyond its objects (R355 to R358, R374, R454). -/
structure Link where
  queue : List (Nat × PMsg)         -- messages routed to it and the flits of each still to send; R356
  replay : List Flit                -- at most 512; R355
  nextSeq : Nat                     -- next LSEQ, modulo 4,096; R352
  expect : Nat                      -- LSEQ expected; R355
  naking : Bool                     -- discards until the expected flit; R355
  replays : Nat                     -- replays in a row of the oldest flit; R355
  credits : Tbl Nat                 -- credits by 4 × class + VC; R356
  trained : Bool                    -- its training is complete; R358
  helloAt : Nat                     -- ns of its last HELLO sent; R358
  heard : Bool                      -- a HELLO has been received; R358
  lastHello : Nat                   -- ns; R358
  prsntSince : Option Nat           -- ns since LINK_PRSNT_N asserted; R358
  latchDrain : Bool                 -- drained by the latch; R455
  drainSince : Nat                  -- ns; R374
  downLate : Bool                   -- DOWN with its cable present for more than 5 s; R456
  eyes : Tbl Int                    -- eye heights by lane as last sampled, mV; R377, R404
  prsntChanged : Bool               -- LINK_PRSNT_N changed since its last equalisation; R444
  deriving DecidableEq, Repr

/-- A cluster's power state beyond its objects (R380 to R385). -/
structure ClusterU where
  target : Nat                      -- point it moves to; R380
  slewing : Bool                    -- its voltage rises; R380
  stretched : Bool                  -- cycles stretched; R385
  resv : Nat                        -- tangent reservation, mW; R383
  goal : Nat                        -- draw at which the reservation lapses, mW, 0 for none; R384
  resvPart : Nat                    -- partition that issued the hint; R383
  draw : Nat                        -- draw in the last loop, mW; R383
  upAt : Nat                        -- ns of its last thermal step up; R387
  resvEnd : Nat                     -- ns; R384
  raiseAt : Nat                     -- ns; R384
  gated : Bool                      -- power-gated; R402
  calibrated : Nat                  -- points calibrated, by bit; R388
  deriving DecidableEq, Repr

/-- An error site's window (R397). -/
structure SiteW where
  buckets : List Nat                -- event weights, the current bucket first, 16; R397
  acting : Bool                     -- its action has begun; R400
  ver : Nat                         -- entries of winLog when its last bucket began; R398
  used : Nat                        -- spare rows of a core structure in use, of four; R399
  deriving DecidableEq, Repr

/-- A memory channel beyond its objects (R237, R241, R243, R244). -/
structure ChanU where
  held : List (Nat × Nat)           -- held writes: 32-byte word, data, at most 64; R241
  waiting : List (Nat × Nat)        -- writes that wait at the controller behind a full held-write buffer; R241
  fails : List Nat                  -- words whose read has failed: the read returns poisoned data; R241
  retries : List (Nat × ParityCase) -- parity retries that wait for the training slot to end: pseudo-channel, outcome; R247
  patrol : Nat                      -- words that the patrol scrub has read; R243
  suspect : Tbl Nat                 -- SUSPECT pseudo-channels, each with the ns of its last exhausted retry; R241
  was : Nat                         -- the channel's state apart from its clear; R237
  target : Nat                      -- channel a migration copies to; R244
  trainHeld : Bool                  -- its requests are held by a training slot; R247
  deriving DecidableEq, Repr

/-- A watch point beyond its objects (R417, R418). -/
structure WatchU where
  open_ : Bool                      -- R417
  count : Nat                       -- R418
  nan : Nat                         -- R418
  inf : Nat                         -- R418
  zeros : Nat                       -- R418
  min : Nat                         -- binary64; R418
  max : Nat                         -- binary64; R418
  sum : Nat                         -- binary64; R418
  sumsq : Nat                       -- binary64; R418
  any : Bool                        -- an element that is not NaN was seen; R418
  hist : Tbl Nat                    -- 16 × 32 b; R418
  crc : Nat                         -- running CRC-32C; R418
  tag : Nat                         -- tag of the command; R417
  ctx : Nat                         -- its context; R415
  deriving DecidableEq, Repr

/-- A key slot (R431, R432). A key is a number; 0 stands for no key. -/
structure KeySlot where
  cur : Nat                         -- current key, 256 b, plus 1; R431
  prev : Nat                        -- previous key, plus 1; R431
  kctr : Tbl Nat                    -- KCTR by die, 64 b; R369
  installs : Nat                    -- keys installed since the start; R371
  deriving DecidableEq, Repr

/-- A start in progress (R444). -/
structure Start where
  kind : Nat                        -- R439
  cause : Nat                       -- R440
  began : Nat                       -- ns; R445
  life : Nat                        -- life second of the apex die; R450
  fromSafe : Bool                   -- R447
  quiescing : Bool                  -- R441
  deriving DecidableEq, Repr

/-- A training slot in progress on a die (R247). -/
structure TrainSlot where
  next : Nat                        -- octant channel index the rotation comes to; R247
  chan : Option Nat                 -- channel in training; R247
  was : Nat                         -- its state before the slot; R247
  deriving DecidableEq, Repr

/-- The whole module. -/
structure State where
  pending : List Instr              -- the model's queue of commands that wait; the oldest first
  now : Nat                         -- the model's clock, ns; R13
  timeZero : Nat                    -- module time's zero on that clock; R13
  free : Nat                        -- the model's count of free values drawn
  obj : Tbl (Option Nat)            -- the values of the Geind dictionary's objects; R12
  vers : Tbl Nat                    -- changes of the objects that are read in segments; R26
  out : List Out                    -- what the module has sent out, oldest first; R23
  sess : List Sess                  -- sessions, at most 32; R36
  sids : List Nat                   -- the last 1,024 SESSION values issued; R483
  fails : Tbl (List Nat)            -- times of failed proofs by credential slot; R41
  locks : Tbl Nat                   -- end of a credential slot's lock, ns; R41
  subs : List Sub                   -- subscriptions, at most 64; R33
  nextSub : Nat                     -- SUBIDs given; R32
  mbx : Tbl Mbx                     -- mailboxes by host function; R45
  flash : List FlashRec             -- WRITEs not yet durable; R20
  seqs : Tbl Seq                    -- sequencers by core; R126
  arrays : Tbl ArrayU               -- matrix arrays by module array number; R87
  tables : Tbl (Nat × Nat × Nat)    -- expansion tables by 2 × core + group: format, size, entries; R79
  groups : Tbl Group                -- thread groups by 64 × core + number; R168
  blocks : Tbl Block                -- blocks by 16 × core + slot; R169
  cores : Tbl CoreU                 -- R168
  l1d : Tbl (List L1Line)           -- L1 data caches by 256 × core + set, most recent first; R202
  l1i : Tbl (List L1Line)           -- L1 instruction caches by 128 × core + set; R202
  dc : Tbl (List DcLine)            -- slices by 8,192 × (6 × die + slice) + set; R202
  victim : Tbl (List DcLine)        -- victim caches by slice, oldest first; R222
  reclaim : Tbl Nat                 -- ways being reclaimed, by die; R209
  dup : Tbl (List DupTag)           -- duplicate tags by L1 line; R212
  tx : List Tx                      -- open transactions; R213
  txq : List (Nat × HomeReq)        -- requests that wait for their line; R213
  lattice : List LMsg               -- coherence messages in flight; R214
  hlocks : List HomeLock            -- locked lines; R194
  hbm : Tbl Byte                    -- stacked memory by channel × 2 GiB + channel-local address; R234
  poison : List Nat                 -- poison-marked 32-byte words of stacked memory; R242
  host : Tbl Byte                   -- host memory by port × 2^64 + bus address; R274
  chan : Tbl ChanU                  -- channels by 192 × octant + index; R234
  ramp : Tbl (Nat × Nat)            -- by die: begin of the ramp limiter's window, ns, and arrays admitted in it; R344
  buckets : Tbl Int                 -- token buckets, by number; R238
  bucketAt : Tbl Nat                -- ns to which a bucket has been filled; R238
  bucketQ : List BWait              -- requests that wait on a bucket; R238
  admitted : List (Agent × Nat × Nat) -- whole requests that their buckets have admitted: requester, address, bytes; R238
  layout : Tbl (Nat × List Nat)     -- by 32 × octant + owner: base and channels still in effect while a channel is cleared; R237
  train : Tbl TrainSlot             -- training slots by die; R247
  tlbs : List TlbE                  -- TLB entries, most recent first; R256
  walks : List Walk                 -- in flight or waiting, in order of arrival; R258
  faults : List TFault              -- R260
  gens : Tbl Nat                    -- slot generations by 65,536 × kind + slot; R271
  ctxs : Tbl Ctx                    -- contexts by slot; R270
  mems : Tbl MemObj                 -- R270
  sigs : Tbl SigObj                 -- R270
  arcs : Tbl Arc                    -- R270
  rings : Tbl Ring                  -- by 65,536 × kind + slot; R270
  ctls : Tbl CtlRing                -- control rings by host function; R278
  hostTables : Tbl HostTable        -- host object tables by port × 2^64 + bus address; R272
  peers : List PeerReq              -- in order of sending; R367
  parkq : List Nat                  -- parked contexts whose command is at a ring head; R296
  watch : List Watch                -- R331
  sigAdds : List SigAdd             -- additions not yet performed; R330
  addHandle : Tbl Nat               -- ADD_HANDLE by 4,096 × function + page; R334
  rejects : Tbl Nat                 -- REJECTS by 4,096 × function + page; R334
  chords : Tbl Chord                -- R337
  links : Tbl Link                  -- R348
  clusters : Tbl ClusterU           -- R380
  duty : Tbl Nat                    -- issue duty by partition, in sixteenths, 16 unlimited; R381
  grants : List Nat                 -- last grants to compute, memory and links, and idle compute power, W; R379, R381
  powerAt : Nat                     -- ns to which the throttle times are accounted; R390
  overCap : Nat                     -- ns for which input power has exceeded the cap; R378
  sites : Tbl SiteW                 -- by 512 × die + site; R395
  winLog : List (Nat × Nat)         -- changes of window objects: key, old value, oldest first; R398
  life : Tbl Nat                    -- life seconds by die; R397
  ledger : Tbl (Option Nat)         -- totals and margins as last committed every 10 minutes; R393
  floors : Tbl Nat                  -- one-time fuse counts, by 4 × die + row of R394
  retFuse : Tbl Bool                -- fuses of RETIRED sites by 512 × die + site; R394
  trend : Tbl (List (List Byte))    -- trend records by die, newest first; R405
  timingDays : Tbl (List Int)       -- daily timing minima by cluster; R406
  traceProd : Nat                   -- 32 b; R414
  traceCons : Nat                   -- 32 b; R414
  traceSeq : Nat                    -- TSEQ; R415
  traceLoss : Option (Nat × Nat × Nat) -- records dropped, TIME of the first and last; R416
  watches : Tbl WatchU              -- watch points by 4 × core + point; R417
  tapIr : Nat                       -- TAP instruction: 0 BYPASS, 1 IDCODE, 2 SAMPLE, 3 EXTEST, 4 GEIND; R420
  tapDr : List Bool                 -- TAP boundary register; R420
  tapRsp : List Byte                -- the response that GEIND's data register holds; R420
  keys : Tbl KeySlot                -- key slots by 16 × partition + slot; R431
  triples : List (Nat × Nat × Nat)  -- the last 1,024 installations; R433
  spdm : Nat                        -- SPDM secured sessions open; R427
  aux : Bool                        -- V3P3_AUX present; R467
  vin48 : Bool                      -- VIN48 present; R467
  refclk : Bool                     -- REFCLK present; R468
  powered : Bool                    -- VIN48 loads on; R442
  ctlReady : Bool                   -- the dictionary answers; R468
  hostTraining : Tbl Bool           -- host port's configuration space not ready, by port; R446
  hostLost : Tbl Bool               -- host port lost, by port; R314
  throttle : Bool                   -- THROTTLE_N asserted; R385
  thermTrip : Bool                  -- THERMTRIP_N asserted; R472
  alert : Bool                      -- ALERT_N asserted by INLET_TEMP; R472
  currentLimit : Bool               -- R385
  safeThermal : Bool                -- SAFE was entered by a thermal trip; R448
  hot : Bool                        -- a sensor reads at or above THERM_THROTTLE; R448
  starting : Option Start           -- R444
  failedStart : Option (Nat × Nat)  -- kind and code of a failed start awaiting the next; R447
  warmFails : List Nat              -- module times of failed warm starts; R447
  fetchStop : Bool                  -- fetching from rings has stopped; R441
  identifyEnds : Tbl Nat            -- end of identify by bit of IDENTIFY, ns; R458
  latchTimer : Option Nat           -- ns at which latch-drained links resume; R455
  latchStop : Bool                  -- the latch's drain is followed by STOP; R455
  teardowns : Tbl Nat               -- begin of a partition's teardown, ns plus 1; R436
  deriving DecidableEq, Repr

/-- Mbx that nothing has touched since the reset. -/
def Mbx.reset : Mbx :=
  { req := [], frame := [], len := 0, busy := false, ready := false, overrun := false, rsp := [], stale := [], slots := [], head := 0, tail := 0, unread := 0 }

/-- QDesc that nothing has touched since the reset. -/
def QDesc.reset : QDesc :=
  { valid := false, kind := 0, width := 0, depth := 0, base := 0 }

/-- Entry that nothing has touched since the reset. -/
def Entry.reset : Entry :=
  { data := 0, token := 0, last := false }

/-- Queue that nothing has touched since the reset. -/
def Queue.reset : Queue :=
  { entries := [], reserved := 0 }

/-- Gen that nothing has touched since the reset. -/
def Gen.reset : Gen :=
  { configured := false, indirect := false, store := false, dq := 0, aq := 0, run := 32, levels := 1, base := 0, bounds := [0, 0, 0, 0, 0, 0], strides := [0, 0, 0, 0, 0, 0] }

/-- Stream that nothing has touched since the reset. -/
def Stream.reset : Stream :=
  { pos := 0, base := none, recs := [], lastRec := false, finished := false, stamp := none, serial := 0, stalled := false, partEntry := 0, partData := 0, acks := 0 }

/-- Tile that nothing has touched since the reset. -/
def Tile.reset : Tile :=
  { word := 0, serial := 0, ngroup := 0, mblock := 0, chunk := 0, sweep := 0, row := 0, loaded := 0, sets := 0, swapped := 0, awaited := 0 }

/-- Seq that nothing has touched since the reset. -/
def Seq.reset : Seq :=
  { loaded := false, loading := false, imageBytes := 0, nwords := 0, words := [], qdesc := [], queues := [], gens := [], streams := [], ct := [], cmp := [], cmpVal := [], pc := 0, rep := 0, count := none, serial := 0, cycle := 0, emits := [], sigs := [], tile := none, ended := false, stepLeft := none, waiting := false, released := false, accept := 0, held := 0, haltNext := false }

/-- ArrayU that nothing has touched since the reset. -/
def ArrayU.reset : ArrayU :=
  { ops := [], vecs := [], zeros := 0, gated := false, starting := false, idle := 0, fault := none, wants := [], spare := none }

/-- Group that nothing has touched since the reset. -/
def Group.reset : Group :=
  { live := false, block := 0, index := 0, pc := 0, entry := 0, active := 0, stack := [], nregs := 0, regs := [], preds := [], flags := [], rnd := 1, wait := .none, loads := [], lock := none, step := false, last := 0, tried := false, ibuf := none }

/-- Block that nothing has touched since the reset. -/
def Block.reset : Block :=
  { live := false, number := 0, groups := [], size := 0, store := [], arrive := [], arg := 0 }

/-- CoreU that nothing has touched since the reset. -/
def CoreU.reset : CoreU :=
  { shard := none, acps := [], stores := [], upgs := [], streaming := [], evns := [], wbb := [], pendStale := false, repairing := false, freeAt := 0, stood := none, issues := 0, clk := 0, cnts := [] }

/-- ChanU that nothing has touched since the reset. -/
def ChanU.reset : ChanU :=
  { held := [], waiting := [], fails := [], retries := [], patrol := 0, suspect := [], was := 0, target := 0, trainHeld := false }

/-- Ctx that nothing has touched since the reset. -/
def Ctx.reset : Ctx :=
  { live := false, root := 0, part := 0, fring := 0, timeout := 0, fn := 0, hw := none, error := false, destroying := false, formerly := 0, destroyedAt := 0, drains := [], cntCfg := 0, cnt := [] }

/-- MemObj that nothing has touched since the reset. -/
def MemObj.reset : MemObj :=
  { live := false, pa := 0, len := 0, part := 0, fn := 0 }

/-- SigObj that nothing has touched since the reset. -/
def SigObj.reset : SigObj :=
  { live := false, ctx := 0, part := 0, va := 0, vector := 0, msix := false, fn := 0 }

/-- Arc that nothing has touched since the reset. -/
def Arc.reset : Arc :=
  { live := false, kind := 0, ctx := 0, part := 0, fn := 0, vertex := 0, keySlot := 0, name := 0, rto := 0, state := 0, keywait := false, epoch := 0, darc := 0, depoch := 0, next := 0, unacked := [], applied := 0, window := [], sinceAck := 0, resolves := 0, keptFrom := 0, ackAt := 0, ctlAt := 0, ce := 0 }

/-- Ring that nothing has touched since the reset. -/
def Ring.reset : Ring :=
  { live := false, kind := 0, part := 0, fn := 0, base := 0, log2 := 0, page := 0, vector := 0, engine := 0, comp := 0, runTo := 0, waitTo := 0, capBase := 0, capLog2 := 0, captures := 0, prod := 0, cons := 0, rseq := 0, fseq := 0, aseq := 0, fetched := none, accepted := [], signalled := 0, resumed := false, virt := 0, able := false, ableAt := 0, pRseq := 0, pOwed := [], pAseq := 0, pSig := 0, since := 0, recon := false, reconAt := 0 }

/-- A host object table that the driver has zeroed (R272). -/
def HostTable.reset : HostTable := { gens := [], ctxs := [], mems := [], sigs := [], arcs := [], rings := [] }

/-- CtlRing that nothing has touched since the reset. -/
def CtlRing.reset : CtlRing :=
  { prod := 0, cons := 0, stale := 0 }

/-- Chord that nothing has touched since the reset. -/
def Chord.reset : Chord :=
  { next := 0, unleft := 0, unleftPrev := 0, relTime := 0, remote := 0, remoteNext := 0, sent := false }

/-- Link that nothing has touched since the reset. -/
def Link.reset : Link :=
  { queue := [], replay := [], nextSeq := 0, expect := 0, naking := false, replays := 0, credits := [], trained := false, helloAt := 0, heard := false, lastHello := 0, prsntSince := none, latchDrain := false, drainSince := 0, downLate := false, eyes := [], prsntChanged := false }

/-- ClusterU that nothing has touched since the reset. -/
def ClusterU.reset : ClusterU :=
  { target := 0, slewing := false, stretched := false, resv := 0, goal := 0, resvPart := 0, draw := 0, upAt := 0, resvEnd := 0, raiseAt := 0, gated := false, calibrated := 0 }

/-- SiteW that nothing has touched since the reset. -/
def SiteW.reset : SiteW :=
  { buckets := List.replicate 16 0, acting := false, ver := 0, used := 0 }

/-- WatchU that nothing has touched since the reset. -/
def WatchU.reset : WatchU :=
  { open_ := false, count := 0, nan := 0, inf := 0, zeros := 0, min := 0, max := 0, sum := 0, sumsq := 0, any := false, hist := [], crc := 0, tag := 0, ctx := 0 }

/-- KeySlot that nothing has touched since the reset. -/
def KeySlot.reset : KeySlot :=
  { cur := 0, prev := 0, kctr := [], installs := 0 }

/-- TrainSlot that nothing has touched since the reset. -/
def TrainSlot.reset : TrainSlot :=
  { next := 0, chan := none, was := 0 }

/-- Cmd that nothing has touched since the reset. -/
def Cmd.reset : Cmd :=
  { aseq := 0, op := 0, flags := 0, tag := 0, ctx := 0, seqno := 0, index := 0, recs := [], bad := 0, begun := false, waitSince := none, reached := false, shardsBegun := 0, shardsEnded := 0, code := 0, rerun := 0, ended := none, start := 0, engineNs := 0, memBytes := 0, linkBytes := 0, hostBytes := 0, capSlot := none, done := 0, signalled := false, arcWait := 0 }

/-- Shard that nothing has touched since the reset. -/
def Shard.reset : Shard :=
  { ring := 0, aseq := 0, index := 0, tag := 0, ctx := 0, recd := 0, start := 0, bound := 0, nextBlock := 0, endedBlocks := 0, seqDone := false, code := 0, faultGroup := 0, byGroup := false, stopped := false, begun := false, haltAt := none }

/-- The module right after reset: a cold start with cause POWER-ON whose step 5 has just given the dictionary its defaults
(R19, R439, R440, R444). MODULE_STATE is CONFIGURING, START_KIND 2, START_CAUSE 1 and START_STEP 5, and every
root PLL is locked; every other object reads its default. Nothing else has happened yet. -/
def State.reset : State :=
  { pending := [],
    now := 0,
    timeZero := 0,
    free := 0,
    obj := [(0x1001 * 256 + 0x01, some 1),
      (0x2012 * 256 + 1, some 1), (0x2012 * 256 + 2, some 1), (0x2012 * 256 + 3, some 1), (0x2012 * 256 + 4, some 1),
      (0x2012 * 256 + 5, some 1), (0x2012 * 256 + 6, some 1), (0x2012 * 256 + 7, some 1), (0x2012 * 256 + 8, some 1),
      (0x7800 * 256 + 0x02, some 2), (0x7800 * 256 + 0x03, some 1), (0x7800 * 256 + 0x04, some 5)],
    vers := [],
    out := [],
    sess := [],
    sids := [],
    fails := [],
    locks := [],
    subs := [],
    nextSub := 0,
    mbx := [],
    flash := [],
    seqs := [],
    arrays := [],
    tables := [],
    groups := [],
    blocks := [],
    cores := [],
    l1d := [],
    l1i := [],
    dc := [],
    victim := [],
    reclaim := [],
    dup := [],
    tx := [],
    txq := [],
    lattice := [],
    hlocks := [],
    hbm := [],
    poison := [],
    host := [],
    chan := [],
    ramp := [],
    buckets := [],
    bucketAt := [],
    bucketQ := [],
    admitted := [],
    layout := [],
    train := [],
    tlbs := [],
    walks := [],
    faults := [],
    gens := [],
    ctxs := [],
    mems := [],
    sigs := [],
    arcs := [],
    rings := [],
    ctls := [],
    hostTables := [],
    peers := [],
    parkq := [],
    watch := [],
    sigAdds := [],
    addHandle := [],
    rejects := [],
    chords := [],
    links := [],
    clusters := [],
    duty := [],
    grants := [6600, 1540, 480, 0],
    powerAt := 0,
    overCap := 0,
    sites := [],
    winLog := [],
    life := [],
    ledger := [],
    floors := [],
    retFuse := [],
    trend := [],
    timingDays := [],
    traceProd := 0,
    traceCons := 0,
    traceSeq := 0,
    traceLoss := none,
    watches := [],
    tapIr := 0,
    tapDr := [],
    tapRsp := [],
    keys := [],
    triples := [],
    spdm := 0,
    aux := true,
    vin48 := true,
    refclk := true,
    powered := true,
    ctlReady := true,
    hostTraining := [(0, true), (1, true)],
    hostLost := [],
    throttle := false,
    thermTrip := false,
    alert := false,
    currentLimit := false,
    safeThermal := false,
    hot := false,
    starting := some { kind := 2, cause := 1, began := 0, life := 0, fromSafe := false, quiescing := false },
    failedStart := none,
    warmFails := [],
    fetchStop := false,
    identifyEnds := [],
    latchTimer := none,
    latchStop := false,
    teardowns := [] }

end Sys2Proof.Machine
end

