-- ==== Sys2Proof/Machine/Objects.lean ====
section
/-! DEFINITION. The objects of the Geind dictionary, chapter by chapter as the spec tabulates them (R48, R50, R52, R124, R125,
R166, R167, R201, R226 to R228, R248, R249, R268, R301 to R304, R328, R346, R347, R376, R377, R390, R391, R409, R422, R423,
R437, R438, R449, R458, R474), and the key (index × 256 + subindex) of each. -/

namespace Sys2Proof.Machine

/-- One row of an object table: first and last index, stride, first and last subindex, type code (R13), size, access right
(0 RO, 1 RW, 2 WO, 3 CONST, 4 RC: R31), level, default where the row gives a number, persistence (0 N, 1 W, 2 F), ONCHANGE. -/
structure ObjRow where
  i0 : Nat
  i1 : Nat
  stride : Nat
  s0 : Nat
  s1 : Nat
  ty : Nat
  size : Nat
  acc : Nat
  level : Nat
  dflt : Option Nat
  persist : Nat
  onChange : Bool
  deriving DecidableEq, Repr

/-- Rows of spec/01_geind_dictionary.md. -/
def rows_01_0 : List ObjRow := [
  ⟨0x1000, 0x1000, 1, 0x00, 0x00, 0, 1, 3, 0, some 10, 0, false⟩,  -- ID_COUNT
  ⟨0x1000, 0x1000, 1, 0x01, 0x01, 11, 16, 3, 0, none, 0, false⟩,  -- VENDOR
  ⟨0x1000, 0x1000, 1, 0x02, 0x02, 11, 16, 3, 0, none, 0, false⟩,  -- PRODUCT
  ⟨0x1000, 0x1000, 1, 0x03, 0x03, 11, 4, 3, 0, none, 0, false⟩,  -- STEPPING
  ⟨0x1000, 0x1000, 1, 0x04, 0x04, 1, 2, 3, 0, none, 0, false⟩,  -- VENDOR_ID
  ⟨0x1000, 0x1000, 1, 0x05, 0x05, 11, 24, 3, 0, none, 0, false⟩,  -- SERIAL
  ⟨0x1000, 0x1000, 1, 0x06, 0x06, 9, 8, 3, 0, none, 0, false⟩,  -- BUILT
  ⟨0x1000, 0x1000, 1, 0x07, 0x07, 2, 4, 0, 0, none, 0, false⟩,  -- FW_VERSION
  ⟨0x1000, 0x1000, 1, 0x08, 0x08, 10, 48, 0, 0, none, 0, false⟩,  -- FW_MEASURE
  ⟨0x1000, 0x1000, 1, 0x09, 0x09, 1, 2, 3, 0, some 258, 0, false⟩,  -- DICT_VERSION
  ⟨0x1000, 0x1000, 1, 0x0A, 0x0A, 9, 8, 0, 0, some 0, 0, false⟩,  -- MODULE_TIME
  ⟨0x1001, 0x1001, 1, 0x01, 0x01, 0, 1, 0, 0, some 1, 0, true⟩,  -- MODULE_STATE
  ⟨0x1020, 0x1020, 1, 0x01, 0x01, 2, 4, 3, 0, none, 0, false⟩,  -- OBJECT_COUNT
  ⟨0x1020, 0x1020, 1, 0x02, 0x02, 3, 8, 0, 2, some 0, 0, false⟩,  -- FRAMES_IN
  ⟨0x1020, 0x1020, 1, 0x03, 0x03, 2, 4, 4, 2, some 0, 0, false⟩,  -- BAD_FRAMES
  ⟨0x1020, 0x1020, 1, 0x04, 0x04, 2, 4, 4, 2, some 0, 0, false⟩,  -- LEVEL_DENIALS
  ⟨0x1030, 0x1030, 1, 0x01, 0x01, 0, 1, 2, 2, none, 0, false⟩,  -- RESTORE
  ⟨0x1030, 0x1030, 1, 0x02, 0x02, 3, 8, 0, 2, some 0, 2, false⟩,  -- FLASH_WRITES
  ⟨0x1800, 0x1800, 1, 0x01, 0x01, 8, 1, 1, 2, some 1, 2, false⟩,  -- ETH_ENABLE
  ⟨0x1800, 0x1800, 1, 0x02, 0x02, 1, 2, 1, 2, some 47115, 2, false⟩,  -- ETH_UDP_PORT
  ⟨0x1800, 0x1800, 1, 0x03, 0x03, 10, 16, 1, 2, some 0, 2, false⟩,  -- ETH_ADDR
  ⟨0x1800, 0x1800, 1, 0x04, 0x04, 0, 1, 0, 0, some 0, 0, true⟩,  -- ETH_LINK
  ⟨0x1801, 0x1801, 1, 0x01, 0x01, 8, 1, 1, 2, some 1, 2, false⟩,  -- I3C_ENABLE
  ⟨0x1802, 0x1802, 1, 0x01, 0x01, 8, 1, 1, 2, some 1, 2, false⟩]  -- VDM_ENABLE

/-- Rows of spec/01_geind_dictionary.md. -/
def rows_01_1 : List ObjRow := [
  ⟨0x1803, 0x1803, 1, 0x01, 0x01, 8, 1, 1, 2, some 1, 2, false⟩,  -- MBX_VF_ENABLE
  ⟨0x1810, 0x1810, 1, 0x01, 0x01, 10, 32, 2, 0, none, 0, false⟩,  -- SESSION_OPEN
  ⟨0x1810, 0x1810, 1, 0x02, 0x02, 10, 32, 2, 0, none, 0, false⟩,  -- SESSION_PROOF
  ⟨0x1810, 0x1810, 1, 0x03, 0x03, 8, 1, 2, 0, none, 0, false⟩,  -- SESSION_CLOSE
  ⟨0x1811, 0x1811, 1, 0x01, 0x01, 0, 1, 0, 2, some 0, 0, false⟩,  -- SESSIONS_OPEN
  ⟨0x1812, 0x1812, 1, 0x01, 0x01, 9, 8, 1, 2, some 60000000000, 2, false⟩,  -- SESSION_IDLE
  ⟨0x1820, 0x1820, 1, 0x01, 0x01, 0, 1, 0, 2, some 0, 0, false⟩,  -- SUBS_OPEN
  ⟨0x1840, 0x184F, 1, 0x00, 0x00, 0, 1, 3, 2, some 65, 0, false⟩,  -- PLAN_COUNT
  ⟨0x1840, 0x184F, 1, 0x01, 0x01, 9, 8, 1, 2, some 1000000000, 2, false⟩,  -- PLAN_PERIOD
  ⟨0x1840, 0x184F, 1, 0x02, 0x41, 2, 4, 1, 2, some 0, 2, false⟩]  -- PLAN_ITEM

/-- Rows of spec/03_stationary_arrays.md. -/
def rows_03_0 : List ObjRow := [
  ⟨0x2400, 0x2400, 1, 0x01, 0x01, 8, 1, 1, 2, some 1, 2, false⟩,  -- ARRAY_SOFT_REPAIR
  ⟨0x2400, 0x2400, 1, 0x02, 0x02, 8, 1, 1, 2, some 0, 2, false⟩,  -- ARRAY_HARD_REPAIR
  ⟨0x2400, 0x2400, 1, 0x03, 0x03, 1, 2, 1, 2, some 256, 2, false⟩,  -- ARRAY_IDLE_GATE
  ⟨0x2401, 0x2401, 1, 0x01, 0x01, 1, 2, 0, 0, some 384, 0, true⟩,  -- ARRAYS_IN_SERVICE
  ⟨0x2401, 0x2401, 1, 0x02, 0x02, 1, 2, 0, 2, none, 0, false⟩,  -- SPARES_FREE
  ⟨0x2401, 0x2401, 1, 0x03, 0x03, 3, 8, 0, 2, some 0, 2, false⟩,  -- ARRAY_PARITY_TOTAL
  ⟨0x2402, 0x2402, 1, 0x01, 0x01, 2, 4, 2, 3, none, 0, false⟩,  -- REPAIR_REQUEST
  ⟨0x9000, 0x917F, 1, 0x00, 0x00, 0, 1, 3, 2, some 8, 0, false⟩,  -- ARRAY_COUNT
  ⟨0x9000, 0x917F, 1, 0x01, 0x01, 0, 1, 0, 2, some 0, 0, true⟩,  -- ARRAY_STATE
  ⟨0x9000, 0x917F, 1, 0x02, 0x02, 1, 2, 0, 2, none, 0, false⟩,  -- FUSE_ROWS
  ⟨0x9000, 0x917F, 1, 0x03, 0x03, 1, 2, 0, 2, none, 0, false⟩,  -- FUSE_COLS
  ⟨0x9000, 0x917F, 1, 0x04, 0x04, 1, 2, 0, 2, some 65535, 2, false⟩,  -- SOFT_ROWS
  ⟨0x9000, 0x917F, 1, 0x05, 0x05, 1, 2, 0, 2, some 65535, 2, false⟩,  -- SOFT_COLS
  ⟨0x9000, 0x917F, 1, 0x06, 0x06, 2, 4, 4, 2, some 0, 0, false⟩,  -- PARITY_ERRORS
  ⟨0x9000, 0x917F, 1, 0x07, 0x07, 3, 8, 0, 2, some 0, 0, false⟩,  -- STARTS
  ⟨0x9000, 0x917F, 1, 0x08, 0x08, 3, 8, 0, 2, some 0, 0, false⟩]  -- BUSY_CYCLES

/-- Rows of spec/04_control_words_queues.md. -/
def rows_04_0 : List ObjRow := [
  ⟨0x2800, 0x2800, 1, 0x01, 0x01, 3, 8, 0, 2, some 0, 0, false⟩,  -- SEQ_FAULTS
  ⟨0x2800, 0x2800, 1, 0x02, 0x02, 2, 4, 4, 2, some 0, 0, false⟩,  -- TOKEN_MISMATCHES
  ⟨0x2800, 0x2800, 1, 0x03, 0x03, 3, 8, 0, 2, some 0, 0, false⟩,  -- PROGRAM_LOADS
  ⟨0x2900, 0x295F, 1, 0x00, 0x00, 0, 1, 3, 2, some 11, 0, false⟩,  -- DBG_COUNT
  ⟨0x2900, 0x295F, 1, 0x01, 0x01, 0, 1, 1, 2, some 0, 0, false⟩,  -- BRK_CTRL
  ⟨0x2900, 0x295F, 1, 0x02, 0x02, 3, 8, 1, 2, some 0, 0, false⟩,  -- BRK_COUNT
  ⟨0x2900, 0x295F, 1, 0x03, 0x03, 2, 4, 1, 2, some 0, 0, false⟩,  -- BRK_TAG
  ⟨0x2900, 0x295F, 1, 0x04, 0x04, 2, 4, 1, 2, some 0, 0, false⟩,  -- BRK_MASK
  ⟨0x2900, 0x295F, 1, 0x05, 0x05, 3, 8, 0, 2, some 0, 0, false⟩,  -- COMMAND_COUNT
  ⟨0x2900, 0x295F, 1, 0x06, 0x06, 0, 1, 0, 2, some 0, 0, true⟩,  -- SEQ_STATE
  ⟨0x2900, 0x295F, 1, 0x07, 0x07, 0, 1, 0, 2, some 0, 0, false⟩,  -- HALT_CAUSE
  ⟨0x2900, 0x295F, 1, 0x08, 0x08, 1, 2, 0, 2, some 0, 0, false⟩,  -- SEQ_PC
  ⟨0x2900, 0x295F, 1, 0x09, 0x09, 8, 1, 2, 2, none, 0, false⟩,  -- HALT_REQ
  ⟨0x2900, 0x295F, 1, 0x0A, 0x0A, 1, 2, 2, 2, none, 0, false⟩,  -- RESUME
  ⟨0x2900, 0x295F, 1, 0x0B, 0x0B, 10, 128, 0, 2, none, 0, false⟩]  -- QUEUE_OCC

/-- Rows of spec/05_cores_thread_groups.md. -/
def rows_05_0 : List ObjRow := [
  ⟨0x3000, 0x3000, 1, 0x01, 0x01, 0, 1, 0, 0, some 96, 0, true⟩,  -- CORES_IN_SERVICE
  ⟨0x3000, 0x3000, 1, 0x02, 0x02, 3, 8, 0, 2, some 0, 0, false⟩,  -- GROUP_FAULTS
  ⟨0x3000, 0x3000, 1, 0x03, 0x03, 2, 4, 4, 2, some 0, 0, false⟩,  -- LOCK_FORCED
  ⟨0x8000, 0x85F0, 16, 0x00, 0x00, 0, 1, 3, 2, some 6, 0, false⟩,  -- CORE_COUNT
  ⟨0x8000, 0x85F0, 16, 0x01, 0x01, 0, 1, 0, 2, some 0, 0, true⟩,  -- CORE_STATE
  ⟨0x8000, 0x85F0, 16, 0x02, 0x02, 0, 1, 0, 2, some 0, 0, false⟩,  -- GROUPS_RESIDENT
  ⟨0x8000, 0x85F0, 16, 0x03, 0x03, 3, 8, 0, 2, some 0, 0, false⟩,  -- INSTR_ISSUED
  ⟨0x8000, 0x85F0, 16, 0x04, 0x04, 3, 8, 0, 2, some 0, 0, false⟩,  -- IPREFETCHES
  ⟨0x8000, 0x85F0, 16, 0x05, 0x05, 2, 4, 4, 2, some 0, 0, false⟩,  -- LOCK_FAILS
  ⟨0x8000, 0x85F0, 16, 0x06, 0x06, 1, 2, 4, 2, some 0, 0, false⟩,  -- TRACKER_PEAK
  ⟨0x8001, 0x85F1, 16, 0x00, 0x00, 0, 1, 3, 2, some 8, 0, false⟩,  -- DBG_COUNT
  ⟨0x8001, 0x85F1, 16, 0x01, 0x01, 0, 1, 1, 2, some 0, 0, false⟩,  -- THR_HALT
  ⟨0x8001, 0x85F1, 16, 0x02, 0x02, 8, 1, 2, 2, none, 0, false⟩,  -- THR_STEP
  ⟨0x8001, 0x85F1, 16, 0x03, 0x03, 0, 1, 1, 2, some 0, 0, false⟩,  -- GRP_SEL
  ⟨0x8001, 0x85F1, 16, 0x04, 0x04, 3, 8, 0, 2, some 0, 0, false⟩,  -- GRP_PC
  ⟨0x8001, 0x85F1, 16, 0x05, 0x05, 2, 4, 0, 2, some 0, 0, false⟩,  -- GRP_ACTIVE
  ⟨0x8001, 0x85F1, 16, 0x06, 0x06, 10, 32640, 0, 2, none, 0, false⟩,  -- GRP_REGS
  ⟨0x8001, 0x85F1, 16, 0x07, 0x07, 3, 8, 0, 2, some 0, 0, false⟩,  -- GRP_LOCK
  ⟨0x8001, 0x85F1, 16, 0x08, 0x08, 2, 4, 0, 2, some 0, 0, false⟩]  -- GRP_FLAGS

/-- Rows of spec/06_caches_coherence.md. -/
def rows_06_0 : List ObjRow := [
  ⟨0x3400, 0x3400, 1, 0x01, 0x01, 3, 8, 0, 2, some 0, 0, false⟩,  -- SNOOPS_SENT
  ⟨0x3400, 0x3400, 1, 0x02, 0x02, 3, 8, 0, 2, some 0, 0, false⟩,  -- WB_PENDING_RSP
  ⟨0x3400, 0x3400, 1, 0x03, 0x03, 3, 8, 0, 2, some 0, 0, false⟩,  -- UPG_AS_RDU
  ⟨0x3410, 0x3417, 1, 0x00, 0x00, 0, 1, 3, 2, some 17, 0, false⟩,  -- WAYMASK_COUNT
  ⟨0x3410, 0x3417, 1, 0x01, 0x10, 1, 2, 1, 2, some 0, 2, false⟩,  -- WAYMASK
  ⟨0x3410, 0x3417, 1, 0x11, 0x11, 0, 1, 0, 2, some 0, 0, true⟩,  -- WAYMASK_STATE
  ⟨0x3500, 0x355F, 1, 0x00, 0x00, 0, 1, 3, 2, some 8, 0, false⟩,  -- L1_COUNT
  ⟨0x3500, 0x355F, 1, 0x01, 0x01, 0, 1, 1, 2, some 0, 0, false⟩,  -- L1D_CTRL
  ⟨0x3500, 0x355F, 1, 0x02, 0x02, 0, 1, 0, 2, some 0, 0, true⟩,  -- L1D_STATUS
  ⟨0x3500, 0x355F, 1, 0x03, 0x03, 0, 1, 1, 2, some 0, 0, false⟩,  -- L1I_CTRL
  ⟨0x3500, 0x355F, 1, 0x04, 0x04, 0, 1, 0, 2, some 0, 0, true⟩,  -- L1I_STATUS
  ⟨0x3500, 0x355F, 1, 0x05, 0x05, 3, 8, 0, 2, some 0, 0, false⟩,  -- L1D_MISSES
  ⟨0x3500, 0x355F, 1, 0x06, 0x06, 3, 8, 0, 2, some 0, 0, false⟩,  -- DPREFETCHES
  ⟨0x3500, 0x355F, 1, 0x07, 0x07, 0, 1, 4, 2, some 0, 0, false⟩,  -- WB_BUFFER_PEAK
  ⟨0x3500, 0x355F, 1, 0x08, 0x08, 2, 4, 4, 2, some 0, 0, false⟩,  -- L1_ECC_CORRECTED
  ⟨0x3600, 0x362F, 1, 0x00, 0x00, 0, 1, 3, 2, some 8, 0, false⟩,  -- SLICE_COUNT
  ⟨0x3600, 0x362F, 1, 0x01, 0x01, 0, 1, 1, 2, some 0, 0, false⟩,  -- SLICE_CTRL
  ⟨0x3600, 0x362F, 1, 0x02, 0x02, 0, 1, 0, 2, some 0, 0, true⟩,  -- SLICE_STATUS
  ⟨0x3600, 0x362F, 1, 0x03, 0x03, 0, 1, 0, 2, some 1, 0, true⟩,  -- EVICT_MODE
  ⟨0x3600, 0x362F, 1, 0x04, 0x04, 0, 1, 0, 2, some 0, 0, false⟩,  -- VICTIM_OCC
  ⟨0x3600, 0x362F, 1, 0x05, 0x05, 3, 8, 0, 2, some 0, 0, false⟩,  -- RECALLS
  ⟨0x3600, 0x362F, 1, 0x06, 0x06, 1, 2, 0, 2, some 0, 2, false⟩,  -- WAYS_RETIRED
  ⟨0x3600, 0x362F, 1, 0x07, 0x07, 2, 4, 4, 2, some 0, 0, false⟩,  -- ECC_CORRECTED
  ⟨0x3600, 0x362F, 1, 0x08, 0x08, 2, 4, 4, 2, some 0, 0, false⟩]  -- ECC_UNCORRECTED

/-- Rows of spec/07_stacked_memory.md. -/
def rows_07_0 : List ObjRow := [
  ⟨0x3800, 0x3800, 1, 0x01, 0x01, 3, 8, 3, 0, some 3298534883328, 0, false⟩,  -- MEM_CAPACITY
  ⟨0x3800, 0x3800, 1, 0x02, 0x02, 1, 2, 0, 0, some 1536, 0, true⟩,  -- CHANNELS_IN_SERVICE
  ⟨0x3800, 0x3800, 1, 0x03, 0x03, 9, 8, 1, 2, some 86400000000000, 2, false⟩,  -- PATROL_PERIOD
  ⟨0x3800, 0x3800, 1, 0x04, 0x04, 9, 8, 1, 2, some 10000000000, 2, false⟩,  -- TRAIN_SLOT_PERIOD
  ⟨0x3800, 0x3800, 1, 0x05, 0x05, 2, 4, 4, 2, some 0, 0, false⟩,  -- TRAIN_SLOT_ABANDONED
  ⟨0x3800, 0x3800, 1, 0x06, 0x06, 2, 4, 4, 2, some 0, 0, false⟩,  -- RESERVED_ACCESSES
  ⟨0x3800, 0x3800, 1, 0x07, 0x07, 3, 8, 0, 2, some 0, 2, false⟩,  -- MIGRATIONS
  ⟨0x3810, 0x3817, 1, 0x00, 0x00, 0, 1, 3, 2, some 17, 0, false⟩,  -- REGION_COUNT
  ⟨0x3810, 0x3817, 1, 0x01, 0x11, 0, 1, 1, 2, some 0, 2, false⟩,  -- REGION_BASE
  ⟨0x3820, 0x382F, 1, 0x00, 0x00, 0, 1, 3, 2, some 5, 0, false⟩,  -- REG_COUNT
  ⟨0x3820, 0x382F, 1, 0x01, 0x01, 1, 2, 1, 2, some 0, 2, false⟩,  -- RATE_SLICE
  ⟨0x3820, 0x382F, 1, 0x02, 0x02, 2, 4, 1, 2, some 65536, 2, false⟩,  -- BURST_SLICE
  ⟨0x3820, 0x382F, 1, 0x03, 0x03, 1, 2, 1, 2, some 0, 2, false⟩,  -- RATE_LATTICE
  ⟨0x3820, 0x382F, 1, 0x04, 0x04, 2, 4, 1, 2, some 65536, 2, false⟩,  -- BURST_LATTICE
  ⟨0x3820, 0x382F, 1, 0x05, 0x05, 3, 8, 0, 2, some 0, 0, false⟩,  -- THROTTLED_NS
  ⟨0x8800, 0x8AF0, 16, 0x00, 0x00, 0, 1, 3, 2, some 7, 0, false⟩,  -- STACK_COUNT
  ⟨0x8800, 0x8AF0, 16, 0x01, 0x01, 0, 1, 0, 2, some 0, 0, true⟩,  -- STACK_STATE
  ⟨0x8800, 0x8AF0, 16, 0x02, 0x02, 4, 4, 0, 2, none, 0, false⟩,  -- STACK_TEMP
  ⟨0x8800, 0x8AF0, 16, 0x03, 0x03, 2, 4, 4, 2, some 0, 0, false⟩,  -- CORRECTED
  ⟨0x8800, 0x8AF0, 16, 0x04, 0x04, 2, 4, 4, 2, some 0, 0, false⟩,  -- UNCORRECTED
  ⟨0x8800, 0x8AF0, 16, 0x05, 0x05, 2, 4, 4, 2, some 0, 0, false⟩,  -- PARITY_RETRIES
  ⟨0x8800, 0x8AF0, 16, 0x06, 0x06, 3, 8, 0, 2, some 0, 2, false⟩,  -- SCRUB_PASSES
  ⟨0x8800, 0x8AF0, 16, 0x07, 0x07, 9, 8, 0, 2, some 0, 0, false⟩,  -- LAST_FULL_TRAIN
  ⟨0x8801, 0x8AF1, 16, 0x01, 0x20, 0, 1, 1, 2, some 0, 2, false⟩]  -- CHAN_OWNER

/-- Rows of spec/07_stacked_memory.md. -/
def rows_07_1 : List ObjRow := [
  ⟨0x8802, 0x8AF2, 16, 0x01, 0x20, 0, 1, 0, 2, some 0, 0, true⟩,  -- CHAN_STATE
  ⟨0x8803, 0x8AF3, 16, 0x01, 0x20, 0, 1, 0, 2, some 255, 2, false⟩]  -- CHAN_REMAP

/-- Rows of spec/08_contexts_translation.md. -/
def rows_08_0 : List ObjRow := [
  ⟨0x3C00, 0x3C00, 1, 0x01, 0x01, 3, 8, 0, 2, some 0, 0, false⟩,  -- WALKS
  ⟨0x3C00, 0x3C00, 1, 0x02, 0x02, 3, 8, 0, 2, some 0, 0, false⟩,  -- PAGE_FAULTS
  ⟨0x3C00, 0x3C00, 1, 0x03, 0x03, 2, 4, 4, 2, some 0, 0, false⟩,  -- FAULT_TIMEOUTS
  ⟨0x3C00, 0x3C00, 1, 0x04, 0x04, 3, 8, 0, 2, some 0, 0, false⟩,  -- INVALIDATIONS
  ⟨0x3C00, 0x3C00, 1, 0x05, 0x05, 2, 4, 4, 2, some 0, 0, false⟩,  -- WALK_DATA_ERRORS
  ⟨0x3C00, 0x3C00, 1, 0x06, 0x06, 9, 8, 1, 2, some 100000000, 2, false⟩,  -- FAULT_TIMEOUT_DEFAULT
  ⟨0x3C10, 0x3C17, 1, 0x00, 0x00, 0, 1, 3, 2, some 18, 0, false⟩,  -- TLB_COUNT
  ⟨0x3C10, 0x3C17, 1, 0x01, 0x10, 1, 2, 1, 2, some 0, 2, false⟩,  -- TLB_SETMASK
  ⟨0x3C10, 0x3C17, 1, 0x11, 0x11, 3, 8, 0, 2, some 0, 0, false⟩,  -- L2TLB_MISSES
  ⟨0x3C10, 0x3C17, 1, 0x12, 0x12, 0, 1, 0, 2, some 0, 0, false⟩]  -- FAULTS_OUTSTANDING

/-- Rows of spec/09_steps_submission.md. -/
def rows_09_0 : List ObjRow := [
  ⟨0x4000, 0x4000, 1, 0x01, 0x01, 1, 2, 0, 2, some 0, 0, false⟩,  -- CONTEXTS_RESIDENT
  ⟨0x4000, 0x4000, 1, 0x02, 0x02, 2, 4, 0, 2, some 0, 0, false⟩,  -- CONTEXTS_PARKED
  ⟨0x4000, 0x4000, 1, 0x03, 0x03, 3, 8, 0, 2, some 0, 0, false⟩,  -- PARK_EVICTIONS
  ⟨0x4000, 0x4000, 1, 0x04, 0x04, 9, 8, 0, 2, some 0, 0, false⟩,  -- DESTROY_MAX
  ⟨0x4000, 0x4000, 1, 0x05, 0x05, 2, 4, 4, 2, some 0, 0, false⟩,  -- DOORBELL_ERRORS
  ⟨0x4000, 0x4000, 1, 0x06, 0x06, 3, 8, 0, 2, some 0, 0, false⟩,  -- CHECK_FAILURES
  ⟨0x4010, 0x4011, 1, 0x01, 0x01, 3, 8, 1, 2, some 0, 2, false⟩,  -- OBJ_TABLE
  ⟨0x4010, 0x4011, 1, 0x02, 0x02, 3, 8, 1, 2, some 0, 2, false⟩,  -- WINDOW_BASE
  ⟨0xA000, 0xAFFF, 1, 0x00, 0x00, 0, 1, 3, 1, some 5, 0, false⟩,  -- SLOT_COUNT
  ⟨0xA000, 0xAFFF, 1, 0x01, 0x01, 0, 1, 0, 1, some 0, 0, true⟩,  -- SLOT_STATE
  ⟨0xA000, 0xAFFF, 1, 0x02, 0x02, 2, 4, 0, 1, some 0, 0, false⟩,  -- SLOT_HANDLE
  ⟨0xA000, 0xAFFF, 1, 0x03, 0x03, 0, 1, 0, 2, some 255, 0, false⟩,  -- SLOT_PARTITION
  ⟨0xA000, 0xAFFF, 1, 0x04, 0x04, 9, 8, 0, 2, some 0, 0, false⟩,  -- SLOT_LAST_USE
  ⟨0xA000, 0xAFFF, 1, 0x05, 0x05, 2, 4, 0, 1, some 0, 0, false⟩,  -- SLOT_INFLIGHT
  ⟨0x8600, 0x86F8, 8, 0x00, 0x00, 0, 1, 3, 2, some 4, 0, false⟩,  -- CE_COUNT
  ⟨0x8600, 0x86F8, 8, 0x01, 0x01, 0, 1, 1, 2, some 0, 2, false⟩,  -- CE_PARTITION
  ⟨0x8600, 0x86F8, 8, 0x02, 0x02, 0, 1, 0, 2, some 0, 0, true⟩,  -- CE_STATE
  ⟨0x8600, 0x86F8, 8, 0x03, 0x03, 3, 8, 0, 2, some 0, 0, false⟩,  -- CE_BYTES
  ⟨0x8600, 0x86F8, 8, 0x04, 0x04, 3, 8, 0, 2, some 0, 0, false⟩,  -- CE_COMMANDS
  ⟨0xB100, 0xB1F8, 8, 0x00, 0x00, 0, 1, 3, 1, some 6, 0, false⟩,  -- FUNC_COUNT
  ⟨0xB100, 0xB1F8, 8, 0x01, 0x01, 0, 1, 1, 2, some 0, 2, false⟩,  -- FUNC_PARTITION
  ⟨0xB100, 0xB1F8, 8, 0x02, 0x02, 3, 8, 1, 1, some 0, 0, false⟩,  -- CTL_RING_BASE
  ⟨0xB100, 0xB1F8, 8, 0x03, 0x03, 3, 8, 1, 1, some 0, 0, false⟩,  -- CTL_RESULT_BASE
  ⟨0xB100, 0xB1F8, 8, 0x04, 0x04, 0, 1, 1, 1, some 6, 0, false⟩]  -- CTL_LOG2

/-- Rows of spec/09_steps_submission.md. -/
def rows_09_1 : List ObjRow := [
  ⟨0xB100, 0xB1F8, 8, 0x05, 0x05, 8, 1, 1, 1, some 0, 0, false⟩,  -- CTL_ENABLE
  ⟨0xB100, 0xB1F8, 8, 0x06, 0x06, 1, 2, 0, 1, some 0, 0, false⟩]  -- RINGS_OPEN

/-- Rows of spec/10_accepted_work.md. -/
def rows_10_0 : List ObjRow := [
  ⟨0x4400, 0x4400, 1, 0x01, 0x01, 0, 1, 1, 2, some 2, 2, false⟩,  -- RERUN_LIMIT
  ⟨0x4400, 0x4400, 1, 0x02, 0x02, 3, 8, 0, 2, some 0, 0, false⟩,  -- ACCEPTED
  ⟨0x4400, 0x4400, 1, 0x03, 0x03, 3, 8, 0, 2, some 0, 0, false⟩,  -- RERUNS
  ⟨0x4400, 0x4400, 1, 0x04, 0x04, 3, 8, 0, 2, some 0, 2, false⟩,  -- RETURNED_TOTAL
  ⟨0x4400, 0x4400, 1, 0x05, 0x05, 3, 8, 0, 2, some 0, 2, false⟩,  -- FAILED_TOTAL
  ⟨0x4400, 0x4400, 1, 0x06, 0x06, 9, 8, 0, 2, some 0, 0, false⟩,  -- RECONCILE_MAX
  ⟨0x4400, 0x4400, 1, 0x07, 0x07, 3, 8, 0, 2, some 0, 0, false⟩,  -- IDLE_ENERGY
  ⟨0x4410, 0x441F, 1, 0x00, 0x00, 0, 1, 3, 2, some 10, 0, false⟩,  -- PART_COUNT
  ⟨0x4410, 0x441F, 1, 0x01, 0x01, 0, 1, 1, 2, some 0, 2, false⟩,  -- PRIO_MODE
  ⟨0x4410, 0x441F, 1, 0x02, 0x02, 1, 2, 1, 2, some 4, 2, false⟩,  -- LC_WEIGHT
  ⟨0x4410, 0x441F, 1, 0x03, 0x03, 1, 2, 1, 2, some 1, 2, false⟩,  -- BE_WEIGHT
  ⟨0x4410, 0x441F, 1, 0x04, 0x04, 10, 12, 1, 2, some 0, 2, false⟩,  -- RESERVED_CORES
  ⟨0x4410, 0x441F, 1, 0x05, 0x05, 3, 8, 0, 2, some 0, 0, false⟩,  -- ENGINE_NS
  ⟨0x4410, 0x441F, 1, 0x06, 0x06, 3, 8, 0, 2, some 0, 0, false⟩,  -- MEM_BYTES
  ⟨0x4410, 0x441F, 1, 0x07, 0x07, 3, 8, 0, 2, some 0, 0, false⟩,  -- LINK_BYTES
  ⟨0x4410, 0x441F, 1, 0x08, 0x08, 3, 8, 0, 2, some 0, 0, false⟩,  -- HOST_BYTES
  ⟨0x4410, 0x441F, 1, 0x09, 0x09, 3, 8, 0, 2, some 0, 0, false⟩,  -- ENERGY_MJ
  ⟨0x4410, 0x441F, 1, 0x0A, 0x0A, 9, 8, 4, 2, some 0, 0, false⟩]  -- LC_WAIT_MAX

/-- Rows of spec/11_chord_signals.md. -/
def rows_11_0 : List ObjRow := [
  ⟨0x4800, 0x4800, 1, 0x01, 0x01, 9, 8, 1, 2, some 20000, 2, false⟩,  -- SIG_POLL
  ⟨0x4800, 0x4800, 1, 0x02, 0x02, 2, 4, 4, 2, some 0, 0, false⟩,  -- WATCH_OVERFLOWS
  ⟨0x4800, 0x4800, 1, 0x03, 0x03, 3, 8, 0, 2, some 0, 0, false⟩,  -- SIG_ADDS
  ⟨0x4800, 0x4800, 1, 0x04, 0x04, 2, 4, 4, 2, some 0, 0, false⟩,  -- REMOTE_ERRORS
  ⟨0x9400, 0x97F0, 16, 0x00, 0x00, 0, 1, 3, 2, some 9, 0, false⟩,  -- CHORD_COUNT
  ⟨0x9400, 0x97F0, 16, 0x01, 0x01, 0, 1, 1, 2, some 255, 0, false⟩,  -- OWNER
  ⟨0x9400, 0x97F0, 16, 0x02, 0x02, 10, 18, 1, 2, some 0, 0, false⟩,  -- MEMBERS
  ⟨0x9400, 0x97F0, 16, 0x03, 0x03, 2, 4, 1, 2, some 0, 0, false⟩,  -- RELEASE_SIG
  ⟨0x9400, 0x97F0, 16, 0x04, 0x04, 3, 8, 0, 2, some 0, 0, false⟩,  -- ROUND
  ⟨0x9400, 0x97F0, 16, 0x05, 0x05, 0, 1, 0, 2, some 0, 0, true⟩,  -- CHORD_STATE
  ⟨0x9400, 0x97F0, 16, 0x06, 0x06, 10, 18, 0, 2, some 0, 0, false⟩,  -- ARRIVED
  ⟨0x9400, 0x97F0, 16, 0x07, 0x07, 10, 32, 1, 2, some 0, 0, false⟩,  -- REMOTE
  ⟨0x9400, 0x97F0, 16, 0x08, 0x08, 0, 1, 2, 2, none, 0, false⟩,  -- MGMT_ARRIVE
  ⟨0x9400, 0x97F0, 16, 0x09, 0x09, 9, 8, 4, 2, some 0, 0, false⟩]  -- LAG_NS

/-- Rows of spec/12_perimeter_links.md. -/
def rows_12_0 : List ObjRow := [
  ⟨0x5000, 0x5000, 1, 0x01, 0x01, 1, 2, 1, 2, some 65535, 2, false⟩,  -- VERTEX_ID
  ⟨0x5000, 0x5000, 1, 0x02, 0x02, 9, 8, 1, 2, some 50000, 2, false⟩,  -- ARC_RTO
  ⟨0x5000, 0x5000, 1, 0x03, 0x03, 0, 1, 1, 2, some 16, 2, false⟩,  -- ARC_RESEND_LIMIT
  ⟨0x5000, 0x5000, 1, 0x04, 0x04, 0, 1, 1, 2, some 16, 2, false⟩,  -- HOP_LIMIT
  ⟨0x5000, 0x5000, 1, 0x05, 0x05, 9, 8, 1, 2, some 1000000000, 2, false⟩,  -- DRAIN_TIMEOUT
  ⟨0x5000, 0x5000, 1, 0x06, 0x06, 2, 4, 4, 2, some 0, 0, false⟩,  -- NO_ROUTE_DROPS
  ⟨0x5000, 0x5000, 1, 0x07, 0x07, 2, 4, 4, 2, some 0, 0, false⟩,  -- HOP_DROPS
  ⟨0x5000, 0x5000, 1, 0x08, 0x08, 2, 4, 4, 2, some 0, 0, false⟩,  -- AUTH_FAILS
  ⟨0x5000, 0x5000, 1, 0x09, 0x09, 2, 4, 4, 2, some 0, 0, false⟩,  -- NACK_STALE
  ⟨0x5000, 0x5000, 1, 0x0A, 0x0A, 3, 8, 0, 2, some 0, 0, false⟩,  -- FORWARDED_BYTES
  ⟨0x5000, 0x5000, 1, 0x0B, 0x0B, 3, 8, 0, 2, some 0, 0, false⟩,  -- RESENDS
  ⟨0x5001, 0x5001, 1, 0x01, 0x01, 3, 8, 2, 2, none, 0, false⟩,  -- ROUTE_SET
  ⟨0x5010, 0x5017, 1, 0x01, 0x01, 10, 24576, 0, 2, some 0, 2, false⟩,  -- ROUTE_TABLE
  ⟨0x8C00, 0x8EF0, 16, 0x00, 0x00, 0, 1, 3, 2, some 11, 0, false⟩,  -- LINK_COUNT
  ⟨0x8C00, 0x8EF0, 16, 0x01, 0x01, 0, 1, 0, 2, some 0, 0, true⟩,  -- LINK_STATE
  ⟨0x8C00, 0x8EF0, 16, 0x02, 0x02, 0, 1, 0, 2, some 8, 2, false⟩,  -- LANES
  ⟨0x8C00, 0x8EF0, 16, 0x03, 0x03, 1, 2, 0, 2, some 65535, 0, true⟩,  -- NBR_VERTEX
  ⟨0x8C00, 0x8EF0, 16, 0x04, 0x04, 0, 1, 0, 2, some 255, 0, false⟩,  -- NBR_LINK
  ⟨0x8C00, 0x8EF0, 16, 0x05, 0x05, 0, 1, 2, 2, none, 0, false⟩,  -- LINK_CTRL
  ⟨0x8C00, 0x8EF0, 16, 0x06, 0x06, 3, 8, 0, 2, some 0, 0, false⟩,  -- FEC_CORRECTED
  ⟨0x8C00, 0x8EF0, 16, 0x07, 0x07, 2, 4, 4, 2, some 0, 0, false⟩,  -- FEC_UNCORRECTABLE
  ⟨0x8C00, 0x8EF0, 16, 0x08, 0x08, 2, 4, 4, 2, some 0, 0, false⟩,  -- REPLAYS
  ⟨0x8C00, 0x8EF0, 16, 0x09, 0x09, 4, 4, 0, 2, none, 0, false⟩,  -- EYE_MARGIN
  ⟨0x8C00, 0x8EF0, 16, 0x0A, 0x0A, 9, 8, 0, 2, some 0, 0, false⟩]  -- RTT

/-- Rows of spec/12_perimeter_links.md. -/
def rows_12_1 : List ObjRow := [
  ⟨0x8C00, 0x8EF0, 16, 0x0B, 0x0B, 1, 2, 0, 2, some 0, 0, false⟩]  -- SOLE_ROUTES

/-- Rows of spec/13_power_tangent.md. -/
def rows_13_0 : List ObjRow := [
  ⟨0x5800, 0x5800, 1, 0x01, 0x01, 2, 4, 1, 2, some 9600, 2, false⟩,  -- POWER_CAP
  ⟨0x5800, 0x5800, 1, 0x02, 0x02, 0, 1, 1, 2, some 6, 2, false⟩,  -- DOMAIN_ORDER
  ⟨0x5800, 0x5800, 1, 0x03, 0x03, 2, 4, 1, 2, some 6600, 2, false⟩,  -- COMPUTE_MAX
  ⟨0x5800, 0x5800, 1, 0x04, 0x04, 2, 4, 1, 2, some 1540, 2, false⟩,  -- MEM_MAX
  ⟨0x5800, 0x5800, 1, 0x05, 0x05, 2, 4, 1, 2, some 480, 2, false⟩,  -- LINK_MAX
  ⟨0x5800, 0x5800, 1, 0x06, 0x06, 2, 4, 0, 2, none, 0, false⟩,  -- POWER_NOW
  ⟨0x5800, 0x5800, 1, 0x07, 0x07, 2, 4, 4, 2, some 0, 0, false⟩,  -- POWER_PEAK
  ⟨0x5800, 0x5800, 1, 0x08, 0x08, 3, 8, 0, 2, some 0, 0, false⟩,  -- ENERGY_TOTAL
  ⟨0x5800, 0x5800, 1, 0x09, 0x09, 4, 4, 1, 2, some 100000, 2, false⟩,  -- THERM_THROTTLE
  ⟨0x5800, 0x5800, 1, 0x0A, 0x0A, 0, 1, 1, 2, some 2, 2, false⟩,  -- EXT_POINT
  ⟨0x5800, 0x5800, 1, 0x0B, 0x0B, 9, 8, 1, 2, some 200000, 2, false⟩,  -- TANGENT_HOLD
  ⟨0x5800, 0x5800, 1, 0x0C, 0x0C, 1, 2, 1, 2, some 40, 2, false⟩,  -- DROOP_THRESH
  ⟨0x5810, 0x5810, 1, 0x01, 0x08, 3, 8, 0, 2, some 0, 0, false⟩,  -- THR_NS
  ⟨0x5811, 0x5811, 1, 0x01, 0x08, 9, 8, 0, 2, some 0, 0, false⟩,  -- THR_LAST
  ⟨0x5830, 0x583F, 1, 0x01, 0x01, 1, 2, 1, 2, some 0, 2, false⟩,  -- SHARE
  ⟨0x5830, 0x583F, 1, 0x02, 0x02, 2, 4, 0, 2, some 0, 0, false⟩,  -- PART_POWER
  ⟨0x5830, 0x583F, 1, 0x03, 0x03, 3, 8, 0, 2, some 0, 0, false⟩,  -- SHARE_NS
  ⟨0x9200, 0x92B8, 8, 0x00, 0x00, 0, 1, 3, 2, some 9, 0, false⟩,  -- CL_COUNT
  ⟨0x9200, 0x92B8, 8, 0x01, 0x01, 0, 1, 0, 2, some 0, 0, true⟩,  -- POINT
  ⟨0x9200, 0x92B8, 8, 0x02, 0x02, 1, 2, 0, 2, none, 0, false⟩,  -- VOLTAGE
  ⟨0x9200, 0x92B8, 8, 0x03, 0x03, 10, 8, 0, 2, none, 2, false⟩,  -- CAL_VOLT
  ⟨0x9200, 0x92B8, 8, 0x04, 0x04, 0, 1, 0, 2, some 0, 2, false⟩,  -- PROVISIONAL
  ⟨0x9200, 0x92B8, 8, 0x05, 0x05, 0, 1, 0, 2, some 0, 0, true⟩,  -- THR_ACTIVE
  ⟨0x9200, 0x92B8, 8, 0x06, 0x06, 2, 4, 4, 2, some 0, 0, false⟩]  -- DROOP_EVENTS

/-- Rows of spec/13_power_tangent.md. -/
def rows_13_1 : List ObjRow := [
  ⟨0x9200, 0x92B8, 8, 0x07, 0x07, 4, 4, 0, 2, none, 0, false⟩,  -- CL_TEMP
  ⟨0x9200, 0x92B8, 8, 0x08, 0x08, 4, 4, 0, 2, none, 0, false⟩,  -- MARGIN_PS
  ⟨0x9200, 0x92B8, 8, 0x09, 0x09, 0, 1, 1, 2, some 0, 2, false⟩]  -- POINT_LIMIT

/-- Rows of spec/14_tymir_ledger_trace.md. -/
def rows_14_0 : List ObjRow := [
  ⟨0x8700, 0x87E0, 32, 0x01, 0x01, 0, 1, 0, 0, some 0, 2, true⟩,  -- RECOMMEND
  ⟨0x8700, 0x87E0, 32, 0x02, 0x02, 2, 4, 0, 0, some 0, 2, false⟩,  -- REASONS
  ⟨0x8700, 0x87E0, 32, 0x03, 0x03, 2, 4, 0, 2, some 0, 2, false⟩,  -- COLD_STARTS
  ⟨0x8700, 0x87E0, 32, 0x04, 0x04, 2, 4, 0, 2, some 0, 2, false⟩,  -- WARM_STARTS
  ⟨0x8700, 0x87E0, 32, 0x05, 0x05, 2, 4, 0, 2, some 0, 2, false⟩,  -- FAILED_STARTS
  ⟨0x8700, 0x87E0, 32, 0x06, 0x06, 2, 4, 0, 2, some 0, 2, false⟩,  -- REPAIRS
  ⟨0x8701, 0x87E1, 32, 0x01, 0x30, 3, 8, 0, 2, some 0, 2, false⟩,  -- VT_SECONDS
  ⟨0x8702, 0x87E2, 32, 0x01, 0x80, 3, 8, 0, 2, some 0, 2, false⟩,  -- SITE
  ⟨0x8703, 0x87E3, 32, 0x01, 0x80, 3, 8, 0, 2, some 0, 2, false⟩,  -- SITE
  ⟨0x8704, 0x87E4, 32, 0x01, 0x80, 3, 8, 0, 2, some 0, 2, false⟩,  -- SITE
  ⟨0x8705, 0x87E5, 32, 0x01, 0x19, 3, 8, 0, 2, some 0, 2, false⟩,  -- SITE
  ⟨0x8706, 0x87E6, 32, 0x01, 0x80, 3, 8, 0, 2, some 0, 2, false⟩,  -- LIFE_CORRECTED
  ⟨0x8707, 0x87E7, 32, 0x01, 0x80, 3, 8, 0, 2, some 0, 2, false⟩,  -- LIFE_CORRECTED
  ⟨0x8708, 0x87E8, 32, 0x01, 0x80, 3, 8, 0, 2, some 0, 2, false⟩,  -- LIFE_CORRECTED
  ⟨0x8709, 0x87E9, 32, 0x01, 0x19, 3, 8, 0, 2, some 0, 2, false⟩,  -- LIFE_CORRECTED
  ⟨0x870A, 0x87EA, 32, 0x01, 0x80, 2, 4, 0, 2, some 0, 2, false⟩,  -- LIFE_UNCORRECTED
  ⟨0x870B, 0x87EB, 32, 0x01, 0x80, 2, 4, 0, 2, some 0, 2, false⟩,  -- LIFE_UNCORRECTED
  ⟨0x870C, 0x87EC, 32, 0x01, 0x80, 2, 4, 0, 2, some 0, 2, false⟩,  -- LIFE_UNCORRECTED
  ⟨0x870D, 0x87ED, 32, 0x01, 0x19, 2, 4, 0, 2, some 0, 2, false⟩,  -- LIFE_UNCORRECTED
  ⟨0x870E, 0x87EE, 32, 0x01, 0x03, 4, 4, 0, 2, none, 2, false⟩,  -- TIMING_MIN
  ⟨0x870F, 0x87EF, 32, 0x01, 0x0C, 1, 2, 0, 2, none, 2, false⟩,  -- SRAM_VMIN
  ⟨0x8710, 0x87F0, 32, 0x01, 0x80, 4, 4, 0, 2, none, 2, false⟩,  -- HBM_MARGIN
  ⟨0x8711, 0x87F1, 32, 0x01, 0x40, 4, 4, 0, 2, none, 2, false⟩,  -- HBM_MARGIN
  ⟨0x8712, 0x87F2, 32, 0x01, 0x30, 4, 4, 0, 2, none, 2, false⟩]  -- LANE_EYE

/-- Rows of spec/14_tymir_ledger_trace.md. -/
def rows_14_1 : List ObjRow := [
  ⟨0x6000, 0x6000, 1, 0x01, 0x01, 0, 1, 0, 2, some 0, 2, false⟩,  -- LEDGER_STATE
  ⟨0x6000, 0x6000, 1, 0x02, 0x02, 0, 1, 0, 0, some 0, 2, true⟩,  -- RECOMMEND
  ⟨0x6000, 0x6000, 1, 0x03, 0x03, 0, 1, 0, 2, some 0, 2, false⟩,  -- FLASH_WEAR
  ⟨0x6000, 0x6000, 1, 0x04, 0x04, 2, 4, 2, 3, none, 0, false⟩,  -- SITE_CLEAR
  ⟨0x6000, 0x6000, 1, 0x05, 0x05, 0, 1, 1, 2, some 255, 2, false⟩,  -- RETIRE_ENABLE
  ⟨0x6000, 0x6000, 1, 0x06, 0x06, 2, 4, 1, 2, some 0, 0, false⟩,  -- TREND_SEL
  ⟨0x6000, 0x6000, 1, 0x07, 0x07, 10, 512, 0, 2, some 0, 2, false⟩,  -- TREND
  ⟨0x6010, 0x6010, 1, 0x01, 0x08, 9, 8, 1, 2, some 86400000000000, 2, false⟩,  -- WINDOW_W
  ⟨0x6011, 0x6011, 1, 0x01, 0x08, 1, 2, 1, 2, some 16, 2, false⟩,  -- WINDOW_N
  ⟨0x6020, 0x6020, 1, 0x01, 0x20, 3, 8, 1, 2, some 0, 2, false⟩,  -- SITE_OVERRIDE
  ⟨0x6800, 0x6800, 1, 0x01, 0x01, 3, 8, 1, 2, some 0, 0, false⟩,  -- TRACE_BASE
  ⟨0x6800, 0x6800, 1, 0x02, 0x02, 0, 1, 1, 2, some 12, 0, false⟩,  -- TRACE_LOG2
  ⟨0x6800, 0x6800, 1, 0x03, 0x03, 0, 1, 1, 2, some 0, 0, false⟩,  -- TRACE_PORT
  ⟨0x6800, 0x6800, 1, 0x04, 0x04, 8, 1, 1, 2, some 0, 0, false⟩,  -- TRACE_ENABLE
  ⟨0x6800, 0x6800, 1, 0x05, 0x05, 2, 4, 2, 2, none, 0, false⟩,  -- TRACE_CONS
  ⟨0x6800, 0x6800, 1, 0x06, 0x06, 3, 8, 1, 2, some 0, 0, false⟩,  -- TRACE_PROD_ADDR
  ⟨0x6800, 0x6800, 1, 0x07, 0x07, 0, 1, 1, 2, some 7, 0, false⟩,  -- TRACE_MASK
  ⟨0x6800, 0x6800, 1, 0x08, 0x08, 3, 8, 0, 2, some 0, 0, false⟩,  -- TRACE_LOST
  ⟨0x6810, 0x6810, 1, 0x01, 0x01, 3, 8, 0, 2, some 0, 0, false⟩,  -- LATTICE_BYTES
  ⟨0x6810, 0x6810, 1, 0x02, 0x02, 3, 8, 0, 2, some 0, 0, false⟩,  -- HOME_REQUESTS
  ⟨0x6810, 0x6810, 1, 0x03, 0x03, 3, 8, 0, 2, some 0, 0, false⟩,  -- DC_HITS
  ⟨0x6810, 0x6810, 1, 0x04, 0x04, 3, 8, 0, 2, some 0, 0, false⟩,  -- DC_MISSES
  ⟨0x6880, 0x6880, 1, 0x01, 0x01, 2, 4, 1, 1, some 0, 0, false⟩,  -- CTX_SEL
  ⟨0x6880, 0x6880, 1, 0x02, 0x02, 10, 64, 1, 1, some 0, 0, false⟩]  -- CTX_CNT_CFG

/-- Rows of spec/14_tymir_ledger_trace.md. -/
def rows_14_2 : List ObjRow := [
  ⟨0x6880, 0x6880, 1, 0x03, 0x03, 10, 128, 0, 1, some 0, 0, false⟩,  -- CTX_CNT
  ⟨0x6A00, 0x6A5F, 1, 0x01, 0x40, 2, 4, 1, 2, some 0, 0, false⟩,  -- PMC_SEL
  ⟨0x6A00, 0x6A5F, 1, 0x41, 0x80, 3, 8, 0, 2, some 0, 0, false⟩,  -- PMC
  ⟨0x6B00, 0x6C7F, 1, 0x01, 0x01, 3, 8, 1, 2, some 0, 0, false⟩,  -- WATCH_CFG
  ⟨0x6B00, 0x6C7F, 1, 0x02, 0x02, 2, 4, 1, 2, some 0, 0, false⟩,  -- WATCH_TAG
  ⟨0x6B00, 0x6C7F, 1, 0x03, 0x03, 2, 4, 1, 2, some 0, 0, false⟩,  -- WATCH_MASK
  ⟨0x6B00, 0x6C7F, 1, 0x04, 0x04, 0, 1, 0, 2, some 0, 0, false⟩,  -- WATCH_STATE
  ⟨0x6B00, 0x6C7F, 1, 0x05, 0x05, 10, 32, 0, 2, some 0, 0, false⟩,  -- WATCH_COUNTS
  ⟨0x6B00, 0x6C7F, 1, 0x06, 0x06, 10, 32, 0, 2, some 0, 0, false⟩,  -- WATCH_STATS
  ⟨0x6B00, 0x6C7F, 1, 0x07, 0x07, 10, 64, 0, 2, some 0, 0, false⟩,  -- WATCH_HIST
  ⟨0x6B00, 0x6C7F, 1, 0x08, 0x08, 2, 4, 0, 2, some 0, 0, false⟩]  -- WATCH_CRC

/-- Rows of spec/15_acrun_isolation.md. -/
def rows_15_0 : List ObjRow := [
  ⟨0x7000, 0x7000, 1, 0x01, 0x01, 0, 1, 0, 0, none, 0, false⟩,  -- FW_SLOT
  ⟨0x7000, 0x7000, 1, 0x02, 0x02, 1, 2, 0, 0, none, 0, false⟩,  -- FW_SVN
  ⟨0x7000, 0x7000, 1, 0x03, 0x03, 1, 2, 0, 0, none, 2, false⟩,  -- SVN_FUSED
  ⟨0x7000, 0x7000, 1, 0x04, 0x04, 1, 2, 2, 2, none, 0, false⟩,  -- SVN_COMMIT
  ⟨0x7001, 0x7001, 1, 0x01, 0x10, 10, 32, 2, 2, some 0, 2, false⟩,  -- CRED_KEY
  ⟨0x7002, 0x7002, 1, 0x01, 0x04, 10, 97, 1, 2, some 0, 2, false⟩,  -- SVC_PUBKEY
  ⟨0x7002, 0x7002, 1, 0x05, 0x05, 8, 1, 1, 2, some 0, 2, false⟩,  -- SVC_ENABLE
  ⟨0x7003, 0x7003, 1, 0x01, 0x01, 10, 128, 2, 0, none, 0, false⟩,  -- SVC_TOKEN
  ⟨0x7004, 0x7004, 1, 0x01, 0x01, 0, 1, 0, 2, some 0, 0, false⟩,  -- L3_SESSIONS
  ⟨0x7004, 0x7004, 1, 0x02, 0x02, 2, 4, 4, 2, some 0, 0, false⟩,  -- L3_DENIALS
  ⟨0x7005, 0x7005, 1, 0x01, 0x10, 0, 1, 1, 2, some 255, 2, false⟩,  -- CRED_SCOPE
  ⟨0xB000, 0xB0F0, 16, 0x00, 0x00, 0, 1, 3, 2, some 5, 0, false⟩,  -- PART_COUNT
  ⟨0xB000, 0xB0F0, 16, 0x01, 0x01, 0, 1, 0, 2, some 0, 0, true⟩,  -- PART_STATE
  ⟨0xB000, 0xB0F0, 16, 0x02, 0x02, 10, 12, 1, 2, some 0, 2, false⟩,  -- CORE_MASK
  ⟨0xB000, 0xB0F0, 16, 0x03, 0x03, 8, 1, 2, 2, none, 0, false⟩,  -- TEARDOWN
  ⟨0xB000, 0xB0F0, 16, 0x04, 0x04, 1, 2, 0, 1, some 0, 0, false⟩,  -- KEY_SLOTS
  ⟨0xB000, 0xB0F0, 16, 0x05, 0x05, 9, 8, 0, 2, some 0, 0, false⟩]  -- TEARDOWN_LAST

/-- Rows of spec/16_start_service.md. -/
def rows_16_0 : List ObjRow := [
  ⟨0x7800, 0x7800, 1, 0x01, 0x01, 0, 1, 2, 2, none, 0, false⟩,  -- START_REQ
  ⟨0x7800, 0x7800, 1, 0x02, 0x02, 0, 1, 0, 0, none, 1, false⟩,  -- START_KIND
  ⟨0x7800, 0x7800, 1, 0x03, 0x03, 0, 1, 0, 2, none, 1, false⟩,  -- START_CAUSE
  ⟨0x7800, 0x7800, 1, 0x04, 0x04, 0, 1, 0, 0, some 0, 0, true⟩,  -- START_STEP
  ⟨0x7800, 0x7800, 1, 0x05, 0x05, 9, 8, 0, 2, some 0, 1, false⟩,  -- START_DURATION
  ⟨0x7800, 0x7800, 1, 0x06, 0x06, 0, 1, 0, 2, some 0, 1, false⟩,  -- WARM_FAILS_RECENT
  ⟨0x7800, 0x7800, 1, 0x07, 0x07, 0, 1, 0, 2, some 0, 2, false⟩,  -- COLD_FAILS
  ⟨0x7810, 0x7810, 1, 0x00, 0x00, 0, 1, 3, 2, some 16, 0, false⟩,  -- HISTORY_COUNT
  ⟨0x7810, 0x7810, 1, 0x01, 0x10, 10, 32, 0, 2, some 0, 2, false⟩,  -- START_HISTORY
  ⟨0x7C00, 0x7C00, 1, 0x01, 0x01, 10, 6, 0, 2, some 0, 0, true⟩,  -- PRESENCE
  ⟨0x7C00, 0x7C00, 1, 0x02, 0x02, 1, 2, 1, 2, some 511, 2, false⟩,  -- BTN_ENABLE
  ⟨0x7C00, 0x7C00, 1, 0x03, 0x03, 0, 1, 1, 2, some 1, 2, false⟩,  -- LATCH_ACTION
  ⟨0x7C00, 0x7C00, 1, 0x04, 0x04, 0, 1, 0, 0, some 0, 0, true⟩,  -- LATCH_STATE
  ⟨0x7C00, 0x7C00, 1, 0x05, 0x05, 1, 2, 1, 2, some 0, 0, false⟩,  -- IDENTIFY
  ⟨0x7C00, 0x7C00, 1, 0x06, 0x06, 2, 4, 4, 2, some 0, 0, false⟩,  -- UNDRAINED_PULLS
  ⟨0x7C00, 0x7C00, 1, 0x07, 0x07, 2, 4, 4, 2, some 0, 0, false⟩,  -- BTN_IGNORED
  ⟨0x7C10, 0x7C10, 1, 0x00, 0x00, 0, 1, 3, 2, some 48, 0, false⟩,  -- LED_COUNT
  ⟨0x7C10, 0x7C10, 1, 0x01, 0x30, 0, 1, 0, 2, some 1, 0, false⟩,  -- LINK_LED
  ⟨0x7C11, 0x7C11, 1, 0x01, 0x01, 0, 1, 0, 2, some 2, 0, false⟩]  -- MODULE_LED

/-- Rows of spec/17_module_electrical.md. -/
def rows_17_0 : List ObjRow := [
  ⟨0x2000, 0x2000, 1, 0x01, 0x01, 0, 1, 3, 0, some 8, 0, false⟩,  -- DIES
  ⟨0x2000, 0x2000, 1, 0x02, 0x02, 0, 1, 3, 0, some 96, 0, false⟩,  -- CORES
  ⟨0x2000, 0x2000, 1, 0x03, 0x03, 10, 12, 3, 2, none, 0, false⟩,  -- ENABLE_CORES
  ⟨0x2000, 0x2000, 1, 0x04, 0x04, 10, 6, 3, 2, none, 0, false⟩,  -- ENABLE_LINKS
  ⟨0x2000, 0x2000, 1, 0x05, 0x05, 10, 6, 3, 2, none, 0, false⟩,  -- ENABLE_STACKS
  ⟨0x2010, 0x2010, 1, 0x01, 0x3C, 1, 2, 0, 2, none, 0, false⟩,  -- CLK_DIV
  ⟨0x2011, 0x2011, 1, 0x01, 0x3C, 2, 4, 0, 2, none, 0, false⟩,  -- CLK_KHZ
  ⟨0x2012, 0x2012, 1, 0x01, 0x08, 8, 1, 0, 2, none, 0, true⟩,  -- PLL_LOCK
  ⟨0x2030, 0x2030, 1, 0x01, 0x01, 2, 4, 0, 2, none, 0, false⟩,  -- VIN48_MV
  ⟨0x2030, 0x2030, 1, 0x02, 0x02, 1, 2, 0, 2, none, 0, false⟩,  -- AUX_MV
  ⟨0x2030, 0x2030, 1, 0x03, 0x03, 4, 4, 0, 2, none, 0, false⟩,  -- INLET_TEMP
  ⟨0x2030, 0x2030, 1, 0x04, 0x04, 4, 4, 0, 2, none, 0, false⟩,  -- OUTLET_TEMP
  ⟨0x2030, 0x2030, 1, 0x05, 0x05, 4, 4, 1, 2, some 40000, 2, false⟩]  -- INLET_LIMIT

/-- Every row of every object table. -/
def objRows : List ObjRow :=
  rows_01_0
  ++ rows_01_1
  ++ rows_03_0
  ++ rows_04_0
  ++ rows_05_0
  ++ rows_06_0
  ++ rows_07_0
  ++ rows_07_1
  ++ rows_08_0
  ++ rows_09_0
  ++ rows_09_1
  ++ rows_10_0
  ++ rows_11_0
  ++ rows_12_0
  ++ rows_12_1
  ++ rows_13_0
  ++ rows_13_1
  ++ rows_14_0
  ++ rows_14_1
  ++ rows_14_2
  ++ rows_15_0
  ++ rows_16_0
  ++ rows_17_0

def oVendor : Nat := 0x1000 * 256 + 0x01
def oProduct : Nat := 0x1000 * 256 + 0x02
def oStepping : Nat := 0x1000 * 256 + 0x03
def oVendorId : Nat := 0x1000 * 256 + 0x04
def oSerial : Nat := 0x1000 * 256 + 0x05
def oBuilt : Nat := 0x1000 * 256 + 0x06
def oFwVersion : Nat := 0x1000 * 256 + 0x07
def oFwMeasure : Nat := 0x1000 * 256 + 0x08
def oDictVersion : Nat := 0x1000 * 256 + 0x09
def oModuleTime : Nat := 0x1000 * 256 + 0x0A
def oModuleState : Nat := 0x1001 * 256 + 0x01
def oObjectCount : Nat := 0x1020 * 256 + 0x01
def oFramesIn : Nat := 0x1020 * 256 + 0x02
def oBadFrames : Nat := 0x1020 * 256 + 0x03
def oLevelDenials : Nat := 0x1020 * 256 + 0x04
def oRestore : Nat := 0x1030 * 256 + 0x01
def oFlashWrites : Nat := 0x1030 * 256 + 0x02
def oEthEnable : Nat := 0x1800 * 256 + 0x01
def oEthUdpPort : Nat := 0x1800 * 256 + 0x02
def oEthAddr : Nat := 0x1800 * 256 + 0x03
def oEthLink : Nat := 0x1800 * 256 + 0x04
def oI3cEnable : Nat := 0x1801 * 256 + 0x01
def oVdmEnable : Nat := 0x1802 * 256 + 0x01
def oMbxVfEnable : Nat := 0x1803 * 256 + 0x01
def oSessionOpen : Nat := 0x1810 * 256 + 0x01
def oSessionProof : Nat := 0x1810 * 256 + 0x02
def oSessionClose : Nat := 0x1810 * 256 + 0x03
def oSessionsOpen : Nat := 0x1811 * 256 + 0x01
def oSessionIdle : Nat := 0x1812 * 256 + 0x01
def oSubsOpen : Nat := 0x1820 * 256 + 0x01
def oPlanPeriod (u : Nat) : Nat := (0x1840 + u) * 256 + 0x01
def oPlanItem (u n : Nat) : Nat := (0x1840 + u) * 256 + 0x02 + n
def oArraySoftRepair : Nat := 0x2400 * 256 + 0x01
def oArrayHardRepair : Nat := 0x2400 * 256 + 0x02
def oArrayIdleGate : Nat := 0x2400 * 256 + 0x03
def oArraysInService : Nat := 0x2401 * 256 + 0x01
def oSparesFree : Nat := 0x2401 * 256 + 0x02
def oArrayParityTotal : Nat := 0x2401 * 256 + 0x03
def oRepairRequest : Nat := 0x2402 * 256 + 0x01
def oArrayState (u : Nat) : Nat := (0x9000 + u) * 256 + 0x01
def oFuseRows (u : Nat) : Nat := (0x9000 + u) * 256 + 0x02
def oFuseCols (u : Nat) : Nat := (0x9000 + u) * 256 + 0x03
def oSoftRows (u : Nat) : Nat := (0x9000 + u) * 256 + 0x04
def oSoftCols (u : Nat) : Nat := (0x9000 + u) * 256 + 0x05
def oParityErrors (u : Nat) : Nat := (0x9000 + u) * 256 + 0x06
def oStarts (u : Nat) : Nat := (0x9000 + u) * 256 + 0x07
def oBusyCycles (u : Nat) : Nat := (0x9000 + u) * 256 + 0x08
def oSeqFaults : Nat := 0x2800 * 256 + 0x01
def oTokenMismatches : Nat := 0x2800 * 256 + 0x02
def oProgramLoads : Nat := 0x2800 * 256 + 0x03
def oBrkCtrl (u : Nat) : Nat := (0x2900 + u) * 256 + 0x01
def oBrkCount (u : Nat) : Nat := (0x2900 + u) * 256 + 0x02
def oBrkTag (u : Nat) : Nat := (0x2900 + u) * 256 + 0x03
def oBrkMask (u : Nat) : Nat := (0x2900 + u) * 256 + 0x04
def oCommandCount (u : Nat) : Nat := (0x2900 + u) * 256 + 0x05
def oSeqState (u : Nat) : Nat := (0x2900 + u) * 256 + 0x06
def oHaltCause (u : Nat) : Nat := (0x2900 + u) * 256 + 0x07
def oSeqPc (u : Nat) : Nat := (0x2900 + u) * 256 + 0x08
def oHaltReq (u : Nat) : Nat := (0x2900 + u) * 256 + 0x09
def oResume (u : Nat) : Nat := (0x2900 + u) * 256 + 0x0A
def oQueueOcc (u : Nat) : Nat := (0x2900 + u) * 256 + 0x0B
def oCoresInService : Nat := 0x3000 * 256 + 0x01
def oGroupFaults : Nat := 0x3000 * 256 + 0x02
def oLockForced : Nat := 0x3000 * 256 + 0x03
def oCoreState (u : Nat) : Nat := (0x8000 + 0x10 * u) * 256 + 0x01
def oGroupsResident (u : Nat) : Nat := (0x8000 + 0x10 * u) * 256 + 0x02
def oInstrIssued (u : Nat) : Nat := (0x8000 + 0x10 * u) * 256 + 0x03
def oIprefetches (u : Nat) : Nat := (0x8000 + 0x10 * u) * 256 + 0x04
def oLockFails (u : Nat) : Nat := (0x8000 + 0x10 * u) * 256 + 0x05
def oTrackerPeak (u : Nat) : Nat := (0x8000 + 0x10 * u) * 256 + 0x06
def oThrHalt (u : Nat) : Nat := (0x8001 + 0x10 * u) * 256 + 0x01
def oThrStep (u : Nat) : Nat := (0x8001 + 0x10 * u) * 256 + 0x02
def oGrpSel (u : Nat) : Nat := (0x8001 + 0x10 * u) * 256 + 0x03
def oGrpPc (u : Nat) : Nat := (0x8001 + 0x10 * u) * 256 + 0x04
def oGrpActive (u : Nat) : Nat := (0x8001 + 0x10 * u) * 256 + 0x05
def oGrpRegs (u : Nat) : Nat := (0x8001 + 0x10 * u) * 256 + 0x06
def oGrpLock (u : Nat) : Nat := (0x8001 + 0x10 * u) * 256 + 0x07
def oGrpFlags (u : Nat) : Nat := (0x8001 + 0x10 * u) * 256 + 0x08
def oSnoopsSent : Nat := 0x3400 * 256 + 0x01
def oWbPendingRsp : Nat := 0x3400 * 256 + 0x02
def oUpgAsRdu : Nat := 0x3400 * 256 + 0x03
def oWaymask (u n : Nat) : Nat := (0x3410 + u) * 256 + 0x01 + n
def oWaymaskState (u : Nat) : Nat := (0x3410 + u) * 256 + 0x11
def oL1dCtrl (u : Nat) : Nat := (0x3500 + u) * 256 + 0x01
def oL1dStatus (u : Nat) : Nat := (0x3500 + u) * 256 + 0x02
def oL1iCtrl (u : Nat) : Nat := (0x3500 + u) * 256 + 0x03
def oL1iStatus (u : Nat) : Nat := (0x3500 + u) * 256 + 0x04
def oL1dMisses (u : Nat) : Nat := (0x3500 + u) * 256 + 0x05
def oDprefetches (u : Nat) : Nat := (0x3500 + u) * 256 + 0x06
def oWbBufferPeak (u : Nat) : Nat := (0x3500 + u) * 256 + 0x07
def oL1EccCorrected (u : Nat) : Nat := (0x3500 + u) * 256 + 0x08
def oSliceCtrl (u : Nat) : Nat := (0x3600 + u) * 256 + 0x01
def oSliceStatus (u : Nat) : Nat := (0x3600 + u) * 256 + 0x02
def oEvictMode (u : Nat) : Nat := (0x3600 + u) * 256 + 0x03
def oVictimOcc (u : Nat) : Nat := (0x3600 + u) * 256 + 0x04
def oRecalls (u : Nat) : Nat := (0x3600 + u) * 256 + 0x05
def oWaysRetired (u : Nat) : Nat := (0x3600 + u) * 256 + 0x06
def oEccCorrected (u : Nat) : Nat := (0x3600 + u) * 256 + 0x07
def oEccUncorrected (u : Nat) : Nat := (0x3600 + u) * 256 + 0x08
def oMemCapacity : Nat := 0x3800 * 256 + 0x01
def oChannelsInService : Nat := 0x3800 * 256 + 0x02
def oPatrolPeriod : Nat := 0x3800 * 256 + 0x03
def oTrainSlotPeriod : Nat := 0x3800 * 256 + 0x04
def oTrainSlotAbandoned : Nat := 0x3800 * 256 + 0x05
def oReservedAccesses : Nat := 0x3800 * 256 + 0x06
def oMigrations : Nat := 0x3800 * 256 + 0x07
def oRegionBase (u n : Nat) : Nat := (0x3810 + u) * 256 + 0x01 + n
def oRateSlice (u : Nat) : Nat := (0x3820 + u) * 256 + 0x01
def oBurstSlice (u : Nat) : Nat := (0x3820 + u) * 256 + 0x02
def oRateLattice (u : Nat) : Nat := (0x3820 + u) * 256 + 0x03
def oBurstLattice (u : Nat) : Nat := (0x3820 + u) * 256 + 0x04
def oThrottledNs (u : Nat) : Nat := (0x3820 + u) * 256 + 0x05
def oStackState (u : Nat) : Nat := (0x8800 + 0x10 * u) * 256 + 0x01
def oStackTemp (u : Nat) : Nat := (0x8800 + 0x10 * u) * 256 + 0x02
def oCorrected (u : Nat) : Nat := (0x8800 + 0x10 * u) * 256 + 0x03
def oUncorrected (u : Nat) : Nat := (0x8800 + 0x10 * u) * 256 + 0x04
def oParityRetries (u : Nat) : Nat := (0x8800 + 0x10 * u) * 256 + 0x05
def oScrubPasses (u : Nat) : Nat := (0x8800 + 0x10 * u) * 256 + 0x06
def oLastFullTrain (u : Nat) : Nat := (0x8800 + 0x10 * u) * 256 + 0x07
def oChanOwner (u n : Nat) : Nat := (0x8801 + 0x10 * u) * 256 + 0x01 + n
def oChanState (u n : Nat) : Nat := (0x8802 + 0x10 * u) * 256 + 0x01 + n
def oChanRemap (u n : Nat) : Nat := (0x8803 + 0x10 * u) * 256 + 0x01 + n
def oWalks : Nat := 0x3C00 * 256 + 0x01
def oPageFaults : Nat := 0x3C00 * 256 + 0x02
def oFaultTimeouts : Nat := 0x3C00 * 256 + 0x03
def oInvalidations : Nat := 0x3C00 * 256 + 0x04
def oWalkDataErrors : Nat := 0x3C00 * 256 + 0x05
def oFaultTimeoutDefault : Nat := 0x3C00 * 256 + 0x06
def oTlbSetmask (u n : Nat) : Nat := (0x3C10 + u) * 256 + 0x01 + n
def oL2tlbMisses (u : Nat) : Nat := (0x3C10 + u) * 256 + 0x11
def oFaultsOutstanding (u : Nat) : Nat := (0x3C10 + u) * 256 + 0x12
def oContextsResident : Nat := 0x4000 * 256 + 0x01
def oContextsParked : Nat := 0x4000 * 256 + 0x02
def oParkEvictions : Nat := 0x4000 * 256 + 0x03
def oDestroyMax : Nat := 0x4000 * 256 + 0x04
def oDoorbellErrors : Nat := 0x4000 * 256 + 0x05
def oCheckFailures : Nat := 0x4000 * 256 + 0x06
def oObjTable (u : Nat) : Nat := (0x4010 + u) * 256 + 0x01
def oWindowBase (u : Nat) : Nat := (0x4010 + u) * 256 + 0x02
def oSlotState (u : Nat) : Nat := (0xA000 + u) * 256 + 0x01
def oSlotHandle (u : Nat) : Nat := (0xA000 + u) * 256 + 0x02
def oSlotPartition (u : Nat) : Nat := (0xA000 + u) * 256 + 0x03
def oSlotLastUse (u : Nat) : Nat := (0xA000 + u) * 256 + 0x04
def oSlotInflight (u : Nat) : Nat := (0xA000 + u) * 256 + 0x05
def oCePartition (u : Nat) : Nat := (0x8600 + 0x8 * u) * 256 + 0x01
def oCeState (u : Nat) : Nat := (0x8600 + 0x8 * u) * 256 + 0x02
def oCeBytes (u : Nat) : Nat := (0x8600 + 0x8 * u) * 256 + 0x03
def oCeCommands (u : Nat) : Nat := (0x8600 + 0x8 * u) * 256 + 0x04
def oFuncPartition (u : Nat) : Nat := (0xB100 + 0x8 * u) * 256 + 0x01
def oCtlRingBase (u : Nat) : Nat := (0xB100 + 0x8 * u) * 256 + 0x02
def oCtlResultBase (u : Nat) : Nat := (0xB100 + 0x8 * u) * 256 + 0x03
def oCtlLog2 (u : Nat) : Nat := (0xB100 + 0x8 * u) * 256 + 0x04
def oCtlEnable (u : Nat) : Nat := (0xB100 + 0x8 * u) * 256 + 0x05
def oRingsOpen (u : Nat) : Nat := (0xB100 + 0x8 * u) * 256 + 0x06
def oRerunLimit : Nat := 0x4400 * 256 + 0x01
def oAccepted : Nat := 0x4400 * 256 + 0x02
def oReruns : Nat := 0x4400 * 256 + 0x03
def oReturnedTotal : Nat := 0x4400 * 256 + 0x04
def oFailedTotal : Nat := 0x4400 * 256 + 0x05
def oReconcileMax : Nat := 0x4400 * 256 + 0x06
def oIdleEnergy : Nat := 0x4400 * 256 + 0x07
def oPrioMode (u : Nat) : Nat := (0x4410 + u) * 256 + 0x01
def oLcWeight (u : Nat) : Nat := (0x4410 + u) * 256 + 0x02
def oBeWeight (u : Nat) : Nat := (0x4410 + u) * 256 + 0x03
def oReservedCores (u : Nat) : Nat := (0x4410 + u) * 256 + 0x04
def oEngineNs (u : Nat) : Nat := (0x4410 + u) * 256 + 0x05
def oMemBytes (u : Nat) : Nat := (0x4410 + u) * 256 + 0x06
def oLinkBytes (u : Nat) : Nat := (0x4410 + u) * 256 + 0x07
def oHostBytes (u : Nat) : Nat := (0x4410 + u) * 256 + 0x08
def oEnergyMj (u : Nat) : Nat := (0x4410 + u) * 256 + 0x09
def oLcWaitMax (u : Nat) : Nat := (0x4410 + u) * 256 + 0x0A
def oSigPoll : Nat := 0x4800 * 256 + 0x01
def oWatchOverflows : Nat := 0x4800 * 256 + 0x02
def oSigAdds : Nat := 0x4800 * 256 + 0x03
def oRemoteErrors : Nat := 0x4800 * 256 + 0x04
def oOwner (u : Nat) : Nat := (0x9400 + 0x10 * u) * 256 + 0x01
def oMembers (u : Nat) : Nat := (0x9400 + 0x10 * u) * 256 + 0x02
def oReleaseSig (u : Nat) : Nat := (0x9400 + 0x10 * u) * 256 + 0x03
def oRound (u : Nat) : Nat := (0x9400 + 0x10 * u) * 256 + 0x04
def oChordState (u : Nat) : Nat := (0x9400 + 0x10 * u) * 256 + 0x05
def oArrived (u : Nat) : Nat := (0x9400 + 0x10 * u) * 256 + 0x06
def oRemote (u : Nat) : Nat := (0x9400 + 0x10 * u) * 256 + 0x07
def oMgmtArrive (u : Nat) : Nat := (0x9400 + 0x10 * u) * 256 + 0x08
def oLagNs (u : Nat) : Nat := (0x9400 + 0x10 * u) * 256 + 0x09
def oVertexId : Nat := 0x5000 * 256 + 0x01
def oArcRto : Nat := 0x5000 * 256 + 0x02
def oArcResendLimit : Nat := 0x5000 * 256 + 0x03
def oHopLimit : Nat := 0x5000 * 256 + 0x04
def oDrainTimeout : Nat := 0x5000 * 256 + 0x05
def oNoRouteDrops : Nat := 0x5000 * 256 + 0x06
def oHopDrops : Nat := 0x5000 * 256 + 0x07
def oAuthFails : Nat := 0x5000 * 256 + 0x08
def oNackStale : Nat := 0x5000 * 256 + 0x09
def oForwardedBytes : Nat := 0x5000 * 256 + 0x0A
def oResends : Nat := 0x5000 * 256 + 0x0B
def oRouteSet : Nat := 0x5001 * 256 + 0x01
def oRouteTable (u : Nat) : Nat := (0x5010 + u) * 256 + 0x01
def oLinkState (u : Nat) : Nat := (0x8C00 + 0x10 * u) * 256 + 0x01
def oLanes (u : Nat) : Nat := (0x8C00 + 0x10 * u) * 256 + 0x02
def oNbrVertex (u : Nat) : Nat := (0x8C00 + 0x10 * u) * 256 + 0x03
def oNbrLink (u : Nat) : Nat := (0x8C00 + 0x10 * u) * 256 + 0x04
def oLinkCtrl (u : Nat) : Nat := (0x8C00 + 0x10 * u) * 256 + 0x05
def oFecCorrected (u : Nat) : Nat := (0x8C00 + 0x10 * u) * 256 + 0x06
def oFecUncorrectable (u : Nat) : Nat := (0x8C00 + 0x10 * u) * 256 + 0x07
def oReplays (u : Nat) : Nat := (0x8C00 + 0x10 * u) * 256 + 0x08
def oEyeMargin (u : Nat) : Nat := (0x8C00 + 0x10 * u) * 256 + 0x09
def oRtt (u : Nat) : Nat := (0x8C00 + 0x10 * u) * 256 + 0x0A
def oSoleRoutes (u : Nat) : Nat := (0x8C00 + 0x10 * u) * 256 + 0x0B
def oPowerCap : Nat := 0x5800 * 256 + 0x01
def oDomainOrder : Nat := 0x5800 * 256 + 0x02
def oComputeMax : Nat := 0x5800 * 256 + 0x03
def oMemMax : Nat := 0x5800 * 256 + 0x04
def oLinkMax : Nat := 0x5800 * 256 + 0x05
def oPowerNow : Nat := 0x5800 * 256 + 0x06
def oPowerPeak : Nat := 0x5800 * 256 + 0x07
def oEnergyTotal : Nat := 0x5800 * 256 + 0x08
def oThermThrottle : Nat := 0x5800 * 256 + 0x09
def oExtPoint : Nat := 0x5800 * 256 + 0x0A
def oTangentHold : Nat := 0x5800 * 256 + 0x0B
def oDroopThresh : Nat := 0x5800 * 256 + 0x0C
def oThrNs (n : Nat) : Nat := 0x5810 * 256 + 0x01 + n
def oThrLast (n : Nat) : Nat := 0x5811 * 256 + 0x01 + n
def oShare (u : Nat) : Nat := (0x5830 + u) * 256 + 0x01
def oPartPower (u : Nat) : Nat := (0x5830 + u) * 256 + 0x02
def oShareNs (u : Nat) : Nat := (0x5830 + u) * 256 + 0x03
def oPoint (u : Nat) : Nat := (0x9200 + 0x8 * u) * 256 + 0x01
def oVoltage (u : Nat) : Nat := (0x9200 + 0x8 * u) * 256 + 0x02
def oCalVolt (u : Nat) : Nat := (0x9200 + 0x8 * u) * 256 + 0x03
def oProvisional (u : Nat) : Nat := (0x9200 + 0x8 * u) * 256 + 0x04
def oThrActive (u : Nat) : Nat := (0x9200 + 0x8 * u) * 256 + 0x05
def oDroopEvents (u : Nat) : Nat := (0x9200 + 0x8 * u) * 256 + 0x06
def oClTemp (u : Nat) : Nat := (0x9200 + 0x8 * u) * 256 + 0x07
def oMarginPs (u : Nat) : Nat := (0x9200 + 0x8 * u) * 256 + 0x08
def oPointLimit (u : Nat) : Nat := (0x9200 + 0x8 * u) * 256 + 0x09
def oRecommendDie (u : Nat) : Nat := (0x8700 + 0x20 * u) * 256 + 0x01
def oReasons (u : Nat) : Nat := (0x8700 + 0x20 * u) * 256 + 0x02
def oColdStarts (u : Nat) : Nat := (0x8700 + 0x20 * u) * 256 + 0x03
def oWarmStarts (u : Nat) : Nat := (0x8700 + 0x20 * u) * 256 + 0x04
def oFailedStarts (u : Nat) : Nat := (0x8700 + 0x20 * u) * 256 + 0x05
def oRepairs (u : Nat) : Nat := (0x8700 + 0x20 * u) * 256 + 0x06
def oVtSeconds (u n : Nat) : Nat := (0x8701 + 0x20 * u) * 256 + 0x01 + n
def oSite (d site : Nat) : Nat := (0x8702 + 0x20 * d + site / 128) * 256 + site % 128 + 1
def oLifeCorrected (d site : Nat) : Nat := (0x8706 + 0x20 * d + site / 128) * 256 + site % 128 + 1
def oLifeUncorrected (d site : Nat) : Nat := (0x870A + 0x20 * d + site / 128) * 256 + site % 128 + 1
def oTimingMin (u n : Nat) : Nat := (0x870E + 0x20 * u) * 256 + 0x01 + n
def oSramVmin (u n : Nat) : Nat := (0x870F + 0x20 * u) * 256 + 0x01 + n
def oHbmMargin (d i : Nat) : Nat := (0x8710 + 0x20 * d + i / 128) * 256 + i % 128 + 1
def oLaneEye (u n : Nat) : Nat := (0x8712 + 0x20 * u) * 256 + 0x01 + n
def oLedgerState : Nat := 0x6000 * 256 + 0x01
def oRecommendModule : Nat := 0x6000 * 256 + 0x02
def oFlashWear : Nat := 0x6000 * 256 + 0x03
def oSiteClear : Nat := 0x6000 * 256 + 0x04
def oRetireEnable : Nat := 0x6000 * 256 + 0x05
def oTrendSel : Nat := 0x6000 * 256 + 0x06
def oTrend : Nat := 0x6000 * 256 + 0x07
def oWindowW (n : Nat) : Nat := 0x6010 * 256 + 0x01 + n
def oWindowN (n : Nat) : Nat := 0x6011 * 256 + 0x01 + n
def oSiteOverride (n : Nat) : Nat := 0x6020 * 256 + 0x01 + n
def oTraceBase : Nat := 0x6800 * 256 + 0x01
def oTraceLog2 : Nat := 0x6800 * 256 + 0x02
def oTracePort : Nat := 0x6800 * 256 + 0x03
def oTraceEnable : Nat := 0x6800 * 256 + 0x04
def oTraceCons : Nat := 0x6800 * 256 + 0x05
def oTraceProdAddr : Nat := 0x6800 * 256 + 0x06
def oTraceMask : Nat := 0x6800 * 256 + 0x07
def oTraceLost : Nat := 0x6800 * 256 + 0x08
def oLatticeBytes : Nat := 0x6810 * 256 + 0x01
def oHomeRequests : Nat := 0x6810 * 256 + 0x02
def oDcHits : Nat := 0x6810 * 256 + 0x03
def oDcMisses : Nat := 0x6810 * 256 + 0x04
def oCtxSel : Nat := 0x6880 * 256 + 0x01
def oCtxCntCfg : Nat := 0x6880 * 256 + 0x02
def oCtxCnt : Nat := 0x6880 * 256 + 0x03
def oPmcSel (u n : Nat) : Nat := (0x6A00 + u) * 256 + 0x01 + n
def oPmc (u n : Nat) : Nat := (0x6A00 + u) * 256 + 0x41 + n
def oWatchCfg (u : Nat) : Nat := (0x6B00 + u) * 256 + 0x01
def oWatchTag (u : Nat) : Nat := (0x6B00 + u) * 256 + 0x02
def oWatchMask (u : Nat) : Nat := (0x6B00 + u) * 256 + 0x03
def oWatchState (u : Nat) : Nat := (0x6B00 + u) * 256 + 0x04
def oWatchCounts (u : Nat) : Nat := (0x6B00 + u) * 256 + 0x05
def oWatchStats (u : Nat) : Nat := (0x6B00 + u) * 256 + 0x06
def oWatchHist (u : Nat) : Nat := (0x6B00 + u) * 256 + 0x07
def oWatchCrc (u : Nat) : Nat := (0x6B00 + u) * 256 + 0x08
def oFwSlot : Nat := 0x7000 * 256 + 0x01
def oFwSvn : Nat := 0x7000 * 256 + 0x02
def oSvnFused : Nat := 0x7000 * 256 + 0x03
def oSvnCommit : Nat := 0x7000 * 256 + 0x04
def oCredKey (n : Nat) : Nat := 0x7001 * 256 + 0x01 + n
def oSvcPubkey (n : Nat) : Nat := 0x7002 * 256 + 0x01 + n
def oSvcEnable : Nat := 0x7002 * 256 + 0x05
def oSvcToken : Nat := 0x7003 * 256 + 0x01
def oL3Sessions : Nat := 0x7004 * 256 + 0x01
def oL3Denials : Nat := 0x7004 * 256 + 0x02
def oCredScope (n : Nat) : Nat := 0x7005 * 256 + 0x01 + n
def oPartState (u : Nat) : Nat := (0xB000 + 0x10 * u) * 256 + 0x01
def oCoreMask (u : Nat) : Nat := (0xB000 + 0x10 * u) * 256 + 0x02
def oTeardown (u : Nat) : Nat := (0xB000 + 0x10 * u) * 256 + 0x03
def oKeySlots (u : Nat) : Nat := (0xB000 + 0x10 * u) * 256 + 0x04
def oTeardownLast (u : Nat) : Nat := (0xB000 + 0x10 * u) * 256 + 0x05
def oStartReq : Nat := 0x7800 * 256 + 0x01
def oStartKind : Nat := 0x7800 * 256 + 0x02
def oStartCause : Nat := 0x7800 * 256 + 0x03
def oStartStep : Nat := 0x7800 * 256 + 0x04
def oStartDuration : Nat := 0x7800 * 256 + 0x05
def oWarmFailsRecent : Nat := 0x7800 * 256 + 0x06
def oColdFails : Nat := 0x7800 * 256 + 0x07
def oStartHistory (n : Nat) : Nat := 0x7810 * 256 + 0x01 + n
def oPresence : Nat := 0x7C00 * 256 + 0x01
def oBtnEnable : Nat := 0x7C00 * 256 + 0x02
def oLatchAction : Nat := 0x7C00 * 256 + 0x03
def oLatchState : Nat := 0x7C00 * 256 + 0x04
def oIdentify : Nat := 0x7C00 * 256 + 0x05
def oUndrainedPulls : Nat := 0x7C00 * 256 + 0x06
def oBtnIgnored : Nat := 0x7C00 * 256 + 0x07
def oLinkLed (n : Nat) : Nat := 0x7C10 * 256 + 0x01 + n
def oModuleLed : Nat := 0x7C11 * 256 + 0x01
def oDies : Nat := 0x2000 * 256 + 0x01
def oCores : Nat := 0x2000 * 256 + 0x02
def oEnableCores : Nat := 0x2000 * 256 + 0x03
def oEnableLinks : Nat := 0x2000 * 256 + 0x04
def oEnableStacks : Nat := 0x2000 * 256 + 0x05
def oClkDiv (n : Nat) : Nat := 0x2010 * 256 + 0x01 + n
def oClkKhz (n : Nat) : Nat := 0x2011 * 256 + 0x01 + n
def oPllLock (n : Nat) : Nat := 0x2012 * 256 + 0x01 + n
def oVin48Mv : Nat := 0x2030 * 256 + 0x01
def oAuxMv : Nat := 0x2030 * 256 + 0x02
def oInletTemp : Nat := 0x2030 * 256 + 0x03
def oOutletTemp : Nat := 0x2030 * 256 + 0x04
def oInletLimit : Nat := 0x2030 * 256 + 0x05

end Sys2Proof.Machine
end

