-- ==== Sys2Proof/Machine/Ops.lean ====
section
/-! DEFINITION. The named operations over the dictionary's values, the byte memories, the clock and the outputs. Every
meaning reads and writes the state through these. -/

namespace Sys2Proof.Machine

/-- The answer of a command. -/
abbrev Res := Host.Outcome State Fault Refusal

/-- A command on a unit that exists has its effect; an event on a unit that the module does not have cannot come, and changes nothing
(R2 to R4; log entry 2). -/
def onUnit (s : State) (ok : Bool) (t : State) : Res := .next (if ok then t else s)

/-! ### Objects (R12 to R16, R478, R479) -/

/-- Whether a table row covers an index and subindex (R12, R49). -/
def ObjRow.covers (r : ObjRow) (idx sub : Nat) : Bool :=
  r.i0 ≤ idx && idx ≤ r.i1 && (idx - r.i0) % r.stride == 0 && r.s0 ≤ sub && sub ≤ r.s1

/-- What a Jurad vendor object of level L3 is, if there is one (R48): the manual names none, so which there are, and their types, access
rights and defaults, is free (log entry 81). -/
def vendorRow (key : Nat) : Option ObjRow :=
  let v := (Config.vendorObject (key / 256) (key % 256)).toNat
  let ty := bits 4 1 v % 12
  let size := if 10 ≤ ty then bits 16 5 v + 1 else [1, 2, 4, 8, 4, 8, 4, 8, 1, 8].getD ty 1
  if v % 2 = 0 then none
  else some {
    i0 := key / 256
    i1 := key / 256
    stride := 1
    s0 := key % 256
    s1 := key % 256
    ty := ty
    size := size
    acc := bits 18 17 v
    level := 3
    dflt := some (bits 63 32 v % 256 ^ size)
    persist := 0
    onChange := false }

/-- The row that defines an object, if any (R48, R49). -/
def rowOf (key : Nat) : Option ObjRow :=
  if 0xF000 * 256 ≤ key then vendorRow key else objRows.find? fun r => r.covers (key / 256) (key % 256)

/-- Partition 0 owns everything until it is divided: the defaults that differ from unit to unit (R209, R257, R301, R381, R435). -/
def splitDefault (key : Nat) : Option Nat :=
  let idx := key / 256
  let sub := key % 256
  if 0x3410 ≤ idx && idx ≤ 0x3417 && sub == 1 then some 0xFFFF
  else if 0x3C10 ≤ idx && idx ≤ 0x3C17 && sub == 1 then some 0xFFFF
  else if idx == 0x5830 && sub == 1 then some 1000
  else if idx == 0xB000 && sub == 2 then some (2 ^ 96 - 1)
  else if (idx == 0xB100 || idx == 0xB180) && sub == 1 then some 0xFF
  else none

/-- The cores that are fuse-disabled: none but in an engineering sample (R476). -/
def offCores : List Nat :=
  if Config.sample then (List.range 4).filterMap fun i => if (Config.offCore i).toNat < 96 then some (Config.offCore i).toNat else none else []

/-- What holds from the moment the dictionary first answers: fused values, and the image that the first start accepted (R424, R479). -/
def fusedDefault (key : Nat) : Option Nat :=
  let idx := key / 256
  let sub := key % 256
  if key == oVendorId then some Config.vendorId.toNat
  else if key == oBuilt then some (Config.builtSeconds.toNat * 1000000000)
  else if key == oFwVersion then some (Config.fwVersion 0).toNat
  else if key == oFwMeasure then some (Config.fwMeasure 0).toNat
  else if key == oFwSlot then some (Config.fwSlot 0).toNat
  else if key == oFwSvn then some (Config.fwSvn 0).toNat
  else if key == oSvnFused then some Config.svnFused.toNat
  else if key == oEnableCores then some (offCores.foldl clrBit (2 ^ 96 - 1))
  else if key == oEnableLinks || key == oEnableStacks then some (2 ^ 48 - 1)
  else if 0x9000 ≤ idx && idx ≤ 0x917F && sub == 2 then some (Config.fuseRows (idx - 0x9000)).toNat
  else if 0x9000 ≤ idx && idx ≤ 0x917F && sub == 3 then some (Config.fuseCols (idx - 0x9000)).toNat
  else none

/-- An object's default, none where its table shows none (R19, R479). -/
def dfltOf (key : Nat) : Option Nat :=
  match splitDefault key with
  | some v => some v
  | none =>
    match fusedDefault key with
    | some v => some v
    | none => (rowOf key).bind fun r => r.dflt

/-- The stored value of an object: none while it has not been set since the start (R479). -/
def State.val (s : State) (key : Nat) : Option Nat :=
  Tbl.get (dfltOf key) s.obj key

/-- The same as a number, 0 while it is unset. -/
def State.nat (s : State) (key : Nat) : Nat := (s.val key).getD 0

/-- The state with an object's value set. -/
def State.put (s : State) (key v : Nat) : State := { s with obj := Tbl.set s.obj key (some v) }

/-- The state with an object unset, as after a start (R479). -/
def State.unset (s : State) (key : Nat) : State := { s with obj := Tbl.set s.obj key none }

/-- The largest value of an object of `w` bytes (R13, R478). -/
def typeMax (w : Nat) : Nat := 256 ^ w - 1

/-- The value of a counter, whose default is 0. -/
def State.ctr (s : State) (key : Nat) : Nat := (Tbl.get (some 0) s.obj key).getD 0

/-- The value of an object whose default `d` is known. -/
def State.objD (s : State) (d key : Nat) : Nat := (Tbl.get (some d) s.obj key).getD d

/-- A counter of `w` bytes counts `n` and stops at the largest value of its type (R478). -/
def State.bump (s : State) (w key n : Nat) : State := s.put key (min (s.ctr key + n) (typeMax w))

/-- A peak object of `w` bytes takes a larger measurement and stops at the largest value of its type (R16, R478). -/
def State.peak (s : State) (w key v : Nat) : State := s.put key (max (s.ctr key) (min v (typeMax w)))

/-! ### Memories (R171, R234, R274): a byte that nothing lists reads as zero (R444; log entry 4) -/

namespace Memory

/-- What an unlisted address reads as. -/
def blank : Byte := 0

/-- One byte. -/
def byte (m : List Host.Cell) (a : Nat) : Byte := Tbl.get blank m a

/-- The memory with one byte written; a blank byte is not listed. -/
def put (m : List Host.Cell) (a : Nat) (b : Byte) : List Host.Cell :=
  if b = blank then Tbl.erase m a else Tbl.set m a b

/-- The `n` bytes from `a`. -/
def read (m : List Host.Cell) (a : Nat) : Nat → List Byte
  | 0 => []
  | n + 1 => byte m a :: read m (a + 1) n

/-- The memory with a list of bytes written from `a`. -/
def write (m : List Host.Cell) (a : Nat) : List Byte → List Host.Cell
  | [] => m
  | b :: r => write (put m a b) (a + 1) r

/-- The number in `n` bytes from `a`, little-endian (R13). -/
def num (m : List Host.Cell) (a n : Nat) : Nat := leNat (read m a n)

/-- The memory with an `n`-byte number written from `a`. -/
def putNum (m : List Host.Cell) (a n v : Nat) : List Host.Cell := write m a (leBytes n v)

/-- The memory with every address from `a` up to and not including `b` blank. -/
def clear (m : List Host.Cell) (a b : Nat) : List Host.Cell := m.filter fun c => c.1 < a || b ≤ c.1

/-- Addresses strictly rise from `lo`, and no blank byte is listed. -/
def wfFrom (lo : Nat) : List Host.Cell → Bool
  | [] => true
  | (a, b) :: r => lo ≤ a && b ≠ blank && wfFrom (a + 1) r

/-- The one canonical form of a memory. -/
def wf (m : List Host.Cell) : Bool := wfFrom 0 m

end Memory

/-- Where a host port's bus address stands in the host memory: each port reaches a memory of its own. -/
def hostKey (port addr : Nat) : Nat := port * 2 ^ 64 + addr % 2 ^ 64

/-! ### The clock and what is sent out -/

/-- The module's time in ns since the root PLL lock of the last cold start (R13). -/
def State.mtime (s : State) : Nat := s.now - s.timeZero

/-- A timer that runs out at `t`: the clock has come to `t` (log entry 1). -/
def State.atTime (s : State) (t : Nat) : State := { s with now := max s.now t }

/-- An object that is read in segments has changed (R26). -/
def State.changed (s : State) (key : Nat) : State := { s with vers := Tbl.modify 0 s.vers key fun n => n + 1 }

/-- Something sent out (R23). -/
def State.send (s : State) (o : Out) : State := { s with out := s.out ++ [o] }

/-- The number of free values drawn goes up by one (log entry 5). -/
def State.drew (s : State) : State := { s with free := s.free + 1 }

/-! ### Small helpers over lists -/

/-- A fold over 0 to n - 1. -/
def forUpTo {α : Type} (n : Nat) (a : α) (f : α → Nat → α) : α := (List.range n).foldl f a

/-- The numbers below `n` whose bit of `m` is set. -/
def bitsOf (n m : Nat) : List Nat := (List.range n).filter fun i => m.testBit i

/-- The number of bits set among the low `n` of `m`. -/
def popcount (n m : Nat) : Nat := (bitsOf n m).length

/-- The mask whose bits are the listed numbers. -/
def maskOf (l : List Nat) : Nat := l.foldl (fun m i => m ||| 2 ^ i) 0

/-- The elements of a list with the one at `i` replaced. -/
def setNth {α : Type} (l : List α) (i : Nat) (a : α) : List α :=
  match l, i with
  | [], _ => []
  | _ :: r, 0 => a :: r
  | x :: r, n + 1 => x :: setNth r n a

/-- The `w`-bit field number `i` of `v`, counting from 0. -/
def lane (w i v : Nat) : Nat := v / 2 ^ (w * i) % 2 ^ w

/-- `v` with its `w`-bit field number `i` replaced. -/
def putLane (w i v x : Nat) : Nat :=
  v - lane w i v * 2 ^ (w * i) + x % 2 ^ w * 2 ^ (w * i)

/-- A word with each value in its field, given by its highest and lowest bit. -/
def packFields (l : List (Nat × Nat × Nat)) : Nat :=
  l.foldl (fun n f => n + f.2.2 % 2 ^ (f.1 + 1 - f.2.1) * 2 ^ f.2.1) 0

/-- A number of `w`-bit fields, the first least significant. -/
def packLanes (w : Nat) : List Nat → Nat
  | [] => 0
  | x :: r => x % 2 ^ w + 2 ^ w * packLanes w r

end Sys2Proof.Machine
end

