-- ==== Sys2Proof/Machine/Formats.lean ====
section
/-! DEFINITION. The number formats (R53 to R62), exact values, rounding to a linear format (R55, R58, R76) and to a
logarithmic one (R77). Formats are named by the codes of R132, with 10 for binary64 (R180). -/

namespace Sys2Proof.Machine

/-- An exact value: (-1)^neg × m × 2^e, or a special state (R73). -/
inductive FNum where
  | fin (neg : Bool) (m : Nat) (e : Int)
  | inf (neg : Bool)
  | nan
  deriving DecidableEq, Repr

/-- A linear format: fraction bits, exponent bits, bias, and whether its top exponent field holds infinity (R58). -/
structure LinFmt where
  fbits : Nat
  ebits : Nat
  bias : Nat
  hasInf : Bool
  deriving DecidableEq, Repr

/-- The linear formats by code (R53, R58, R132). -/
def linFmt (f : Nat) : Option LinFmt :=
  match f with
  | 2 => some ⟨3, 4, 7, false⟩
  | 3 => some ⟨2, 5, 15, true⟩
  | 4 => some ⟨7, 8, 127, true⟩
  | 5 => some ⟨10, 5, 15, true⟩
  | 6 => some ⟨23, 8, 127, true⟩
  | 10 => some ⟨52, 11, 1023, true⟩
  | _ => none

/-- Width of an element in bits (R53). -/
def fmtBits (f : Nat) : Nat :=
  match f with
  | 0 => 4
  | 1 => 8
  | 2 => 8
  | 3 => 8
  | 4 => 16
  | 5 => 16
  | 6 => 32
  | 7 => 4
  | 8 => 8
  | 9 => 128
  | 10 => 64
  | _ => 0

/-- The canonical NaN of a format (R56). -/
def canonNan (f : Nat) : Nat :=
  match f with
  | 0 => 0x8
  | 1 => 0x80
  | 2 => 0x7F
  | 3 => 0x7E
  | 4 => 0x7FC0
  | 5 => 0x7E00
  | 6 => 0x7FC00000
  | 10 => 0x7FF8000000000000
  | _ => 0

/-- Width of a linear format. -/
def LinFmt.width (p : LinFmt) : Nat := 1 + p.ebits + p.fbits

/-- The code of the largest finite magnitude (R58). -/
def LinFmt.maxCode (p : LinFmt) : Nat :=
  if p.hasInf then (2 ^ p.ebits - 1) * 2 ^ p.fbits - 1 else 2 ^ (p.ebits + p.fbits) - 2

/-- The exponent of the smallest subnormal, 1 - bias - w (R58). -/
def LinFmt.eLsb (p : LinFmt) : Int := 1 - (p.bias : Int) - p.fbits

/-- The value of a pattern (R58). -/
def LinFmt.decode (p : LinFmt) (v : Nat) : FNum :=
  let neg := v.testBit (p.ebits + p.fbits)
  let c := v % 2 ^ (p.ebits + p.fbits)
  let x := c / 2 ^ p.fbits
  let f := c % 2 ^ p.fbits
  if p.maxCode < c then (if p.hasInf && f == 0 then .inf neg else .nan)
  else if x = 0 then .fin neg f p.eLsb
  else .fin neg (2 ^ p.fbits + f) (p.eLsb + (x : Int) - 1)

/-- A signed code of a linear format. -/
def LinFmt.sign (p : LinFmt) (neg : Bool) (c : Nat) : Nat := if neg then 2 ^ (p.ebits + p.fbits) + c else c

/-- The five rounding-direction attributes (R55), by the codes 1 to 5 of R183. -/
inductive Rnd where
  | tiesEven | tiesAway | up | down | zero
  deriving DecidableEq, Repr

/-- The attribute of a code of R183. -/
def rndOf (c : Nat) : Rnd :=
  match c with
  | 2 => .tiesAway
  | 3 => .up
  | 4 => .down
  | 5 => .zero
  | _ => .tiesEven

/-- Whether a truncated magnitude `n` with remainder `r` of `2^d` is rounded up. -/
def roundsUp (rm : Rnd) (neg : Bool) (n r d : Nat) : Bool :=
  match rm with
  | .tiesEven => 2 ^ d < 2 * r || (2 * r == 2 ^ d && n % 2 == 1)
  | .tiesAway => 0 < r && 2 ^ d ≤ 2 * r
  | .up => 0 < r && !neg
  | .down => 0 < r && neg
  | .zero => false

/-- What rounding gives: the signed code and what happened (R86, R183). -/
structure Rounded where
  code : Nat
  inexact : Bool
  overflow : Bool
  tiny : Bool
  deriving DecidableEq, Repr

/-- `m × 2^e` as a multiple of `2^q`, rounded: the multiple and whether anything was lost. -/
def quantize (rm : Rnd) (neg : Bool) (m : Nat) (e q : Int) : Nat × Bool :=
  if q ≤ e then (m * 2 ^ (e - q).toNat, false)
  else
    let d := (q - e).toNat
    let n := m / 2 ^ d
    let r := m % 2 ^ d
    (if roundsUp rm neg n r d then n + 1 else n, r != 0)

/-- The exact value (-1)^neg × m × 2^e rounded to a linear format (R55, R58, R76). Overflow gives infinity or the largest
finite as the attribute requires, and the largest finite in F8a. Tininess is detected after rounding. -/
def LinFmt.round (p : LinFmt) (rm : Rnd) (neg : Bool) (m : Nat) (e : Int) : Rounded :=
  if m = 0 then ⟨p.sign neg 0, false, false, false⟩
  else
    let msb : Int := (Nat.log2 m : Int) + e
    let q := max (msb - p.fbits) p.eLsb
    let nq := quantize rm neg m e q
    let code := (q - p.eLsb).toNat * 2 ^ p.fbits + nq.1
    let free := quantize rm neg m e (msb - p.fbits)
    let tiny := msb < p.eLsb + p.fbits && !(msb = p.eLsb + p.fbits - 1 && free.1 = 2 ^ (p.fbits + 1))
    if p.maxCode < code then
      let toInf := p.hasInf && (match rm with
        | .tiesEven => true
        | .tiesAway => true
        | .up => !neg
        | .down => neg
        | .zero => false)
      ⟨p.sign neg (if toInf then p.maxCode + 1 else p.maxCode), true, true, false⟩
    else ⟨p.sign neg code, nq.2, false, tiny⟩

/-- The eight constants of T8 (R59). -/
def t8 (f : Nat) : Nat :=
  match f with
  | 0 => 0x8000
  | 1 => 0x8B96
  | 2 => 0x9838
  | 3 => 0xA5FF
  | 4 => 0xB505
  | 5 => 0xC567
  | 6 => 0xD745
  | _ => 0xEAC1

/-- The magnitude of an L8 code from 1, and of an extended code of a product (R60, R65): significand and exponent. -/
def l8Mag (c : Int) : Nat × Int := (t8 (c % 8).toNat, c / 8 - 8 - 15)

/-- An L4 code from 1 in eighths (R62). -/
def l4in8 (c : Nat) : Nat := 4 * c + 48

/-- An L operand: sign, and its code in eighths; none for NaN, code 0 for zero (R60 to R62). -/
def lOperand (f v : Nat) : Option (Bool × Nat) :=
  let w := if f = 0 then 3 else 7
  let neg := v.testBit w
  let c := v % 2 ^ w
  if c = 0 then (if neg then none else some (false, 0)) else some (neg, if f = 0 then l4in8 c else c)

/-- The value of an element of any format but the carry form (R58 to R62, R80). -/
def decodeFmt (f v : Nat) : FNum :=
  match linFmt f with
  | some p => p.decode v
  | none =>
    if f = 0 ∨ f = 1 then
      match lOperand f v with
      | none => .nan
      | some (neg, c) => if c = 0 then .fin false 0 0 else .fin neg (l8Mag c).1 (l8Mag c).2
    else
      let i := sext (fmtBits f) v
      .fin (i < 0) i.natAbs 0

/-- Whether m₁ × 2^e₁ ≤ m₂ × 2^e₂. -/
def dyLe (m1 : Nat) (e1 : Int) (m2 : Nat) (e2 : Int) : Bool :=
  m1 * 2 ^ (e1 - min e1 e2).toNat ≤ m2 * 2 ^ (e2 - min e1 e2).toNat

/-- The magnitude of code `c` of L4 or L8, with the phantom of code 0 (R77). -/
def lVal (f c : Nat) : Nat × Int :=
  if c = 0 then (1, if f = 0 then -2 else -8) else l8Mag (if f = 0 then l4in8 c else c)

/-- Rounding to an L format in the log domain (R77): the signed code and whether the magnitude saturated. -/
def lRound (f : Nat) (neg : Bool) (m : Nat) (e : Int) : Nat × Bool :=
  let w := if f = 0 then 3 else 7
  let top := 2 ^ w - 1
  let below (c : Nat) : Bool := dyLe (lVal f c).1 (lVal f c).2 m e
  if m = 0 ∨ dyLe m e (lVal f 0).1 (lVal f 0).2 then (0, false)
  else
    let c := ((List.range top).filter fun i => below (i + 1)).length
    if c = top then (if neg then 2 ^ w + top else top, !dyLe m e (lVal f top).1 (lVal f top).2)
    else
      let a := lVal f c
      let b := lVal f (c + 1)
      let pm := a.1 * b.1
      let pe := a.2 + b.2
      let upEq := dyLe pm pe (m * m) (2 * e)
      let loEq := dyLe (m * m) (2 * e) pm pe
      let r := if upEq && loEq then (if c % 2 = 0 then c else c + 1) else if upEq then c + 1 else c
      (if r = 0 then 0 else if neg then 2 ^ w + r else r, false)

/-- The product of exact values by the IEEE rules for signs, zeros, infinities and NaN (R68). -/
def FNum.mul : FNum → FNum → FNum
  | .nan, _ => .nan
  | _, .nan => .nan
  | .inf a, .inf b => .inf (a != b)
  | .inf a, .fin b m _ => if m = 0 then .nan else .inf (a != b)
  | .fin a m _, .inf b => if m = 0 then .nan else .inf (a != b)
  | .fin a m e, .fin b n x => .fin (a != b) (m * n) (e + x)

end Sys2Proof.Machine
end

