-- ==== Sys2Proof/Machine/Flags.lean ====
section
/-! DEFINITION. The five exception flags of a lane (R183) and how operations raise them (R55, R86). -/

namespace Sys2Proof.Machine

/-- Flag bits of R183: inexact 0, underflow 1, overflow 2, division by zero 3, invalid operation 4. -/
def flInexact : Nat := 1
def flUnder : Nat := 2
def flOver : Nat := 4
def flDivZero : Nat := 8
def flInvalid : Nat := 16

/-- The flags that a rounding raises under default exception handling: underflow only when tiny and inexact (R55). -/
def Rounded.flags (r : Rounded) : Nat :=
  (if r.inexact then flInexact else 0) + (if r.tiny && r.inexact then flUnder else 0) + (if r.overflow then flOver else 0)

/-- The flags that a conversion raises: underflow when a nonzero result is tiny or a nonzero source becomes zero (R86). -/
def Rounded.convFlags (r : Rounded) (srcNonzero : Bool) : Nat :=
  (if r.inexact then flInexact else 0) + (if r.tiny && srcNonzero then flUnder else 0) + (if r.overflow then flOver else 0)

/-- Whether a pattern of an IEEE format is a NaN (R55). -/
def LinFmt.isNan (p : LinFmt) (v : Nat) : Bool := p.decode v = .nan

/-- Whether a pattern of an IEEE format is a signalling NaN. -/
def LinFmt.isSnan (p : LinFmt) (v : Nat) : Bool := p.isNan v && !v.testBit (p.fbits - 1)

/-- A NaN pattern made quiet. -/
def LinFmt.quiet (p : LinFmt) (v : Nat) : Nat := v ||| 2 ^ (p.fbits - 1)

/-- The relation of two numbers, none when either is a NaN: -1 less, 0 equal, 1 greater. -/
def FNum.cmp : FNum → FNum → Option Int
  | .nan, _ => none
  | _, .nan => none
  | .inf a, .inf b => some (if a = b then 0 else if a then -1 else 1)
  | .inf a, .fin _ _ _ => some (if a then -1 else 1)
  | .fin _ _ _, .inf b => some (if b then 1 else -1)
  | .fin a m e, .fin b n x =>
    let q := min e x
    let u : Int := (m * 2 ^ (e - q).toNat : Nat)
    let v : Int := (n * 2 ^ (x - q).toNat : Nat)
    let u := if a then -u else u
    let v := if b then -v else v
    some (if u < v then -1 else if u = v then 0 else 1)

end Sys2Proof.Machine
end

