-- ==== Sys2Proof/Machine/Float.lean ====
section
/-! DEFINITION. Arithmetic of the thread lanes in the IEEE formats (R55, R56, R180): every operation gives a pattern and the
flags it raises. -/

namespace Sys2Proof.Machine

/-- The IEEE format of a code: binary16 5, binary32 6, binary64 10. -/
def ieee (f : Nat) : LinFmt := (linFmt f).getD ⟨23, 8, 127, true⟩

/-- The NaN that a result takes from its operands: the quiet form of the one that is a NaN, one of them where there are
several, and the canonical NaN where no operand supplies one (R56). -/
def nanOf (f : Nat) (ops : List Nat) : Nat :=
  let p := ieee f
  let ns := ops.filter p.isNan
  match ns with
  | [] => canonNan f
  | [a] => p.quiet a
  | a :: r => p.quiet ((a :: r).getD (Config.nanPick (a :: r) % (r.length + 1)) a)

/-- A NaN result with the invalid flag when an operand signals, or always when `inv` is set. -/
def nanResult (f : Nat) (ops : List Nat) (inv : Bool) : Nat × Nat :=
  (nanOf f ops, if inv || ops.any (ieee f).isSnan then flInvalid else 0)

/-- An exact value delivered in a format. -/
def deliver (f : Nat) (rm : Rnd) (v : FNum) : Nat × Nat :=
  let p := ieee f
  match v with
  | .nan => (canonNan f, flInvalid)
  | .inf s => (p.sign s (p.maxCode + 1), 0)
  | .fin s m e => let r := p.round rm s m e; (r.code, r.flags)

/-- The exact sum of two numbers that are not both infinite with unlike signs. A zero sum of unlike signs is negative only
toward negative. -/
def FNum.add (rm : Rnd) : FNum → FNum → FNum
  | .nan, _ => .nan
  | _, .nan => .nan
  | .inf a, .inf b => if a = b then .inf a else .nan
  | .inf a, .fin _ _ _ => .inf a
  | .fin _ _ _, .inf b => .inf b
  | .fin a m e, .fin b n x =>
    let q := min e x
    let u : Int := (m * 2 ^ (e - q).toNat : Nat)
    let v : Int := (n * 2 ^ (x - q).toNat : Nat)
    let t := (if a then -u else u) + (if b then -v else v)
    let z := if a = b ∧ m = 0 ∧ n = 0 then a else decide (rm = .down)
    .fin (if t = 0 then z else decide (t < 0)) t.natAbs q

/-- A + B. -/
def fAdd (f : Nat) (rm : Rnd) (a b : Nat) : Nat × Nat :=
  let p := ieee f
  if p.isNan a || p.isNan b then nanResult f [a, b] false
  else deliver f rm (FNum.add rm (p.decode a) (p.decode b))

/-- The pattern with its sign inverted (R180). -/
def fNeg (f a : Nat) : Nat :=
  let h := 2 ^ ((ieee f).width - 1)
  if a.testBit ((ieee f).width - 1) then a - h else a + h

/-- The pattern with its sign clear (R180). -/
def fAbs (f a : Nat) : Nat := if a.testBit ((ieee f).width - 1) then a - 2 ^ ((ieee f).width - 1) else a

/-- A - B: the sum with B's sign inverted; a NaN operand is delivered as it is. -/
def fSub (f : Nat) (rm : Rnd) (a b : Nat) : Nat × Nat :=
  let p := ieee f
  if p.isNan a || p.isNan b then nanResult f [a, b] false
  else fAdd f rm a (fNeg f b)

/-- A × B. -/
def fMul (f : Nat) (rm : Rnd) (a b : Nat) : Nat × Nat :=
  let p := ieee f
  if p.isNan a || p.isNan b then nanResult f [a, b] false
  else deliver f rm (FNum.mul (p.decode a) (p.decode b))

/-- A × B + C, rounded once. -/
def fFma (f : Nat) (rm : Rnd) (a b c : Nat) : Nat × Nat :=
  let p := ieee f
  let pr := FNum.mul (p.decode a) (p.decode b)
  let prNan := pr = .nan && !(p.isNan a || p.isNan b)
  if p.isNan a || p.isNan b || p.isNan c then nanResult f [a, b, c] (prNan && Config.fmaSignals)
  else if prNan then (canonNan f, flInvalid)
  else deliver f rm (FNum.add rm pr (p.decode c))

/-- minimumNumber and maximumNumber of IEEE 754-2019: a number against a NaN gives the number, and -0 lies below +0. -/
def fMinMax (f : Nat) (isMax : Bool) (a b : Nat) : Nat × Nat :=
  let p := ieee f
  let inv := if p.isSnan a || p.isSnan b then flInvalid else 0
  if p.isNan a && p.isNan b then (nanOf f [a, b], inv)
  else if p.isNan a then (b, inv)
  else if p.isNan b then (a, inv)
  else
    let less := match FNum.cmp (p.decode a) (p.decode b) with
      | some c => if c = 0 then a.testBit (p.width - 1) && !b.testBit (p.width - 1) else c < 0
      | none => false
    (if less != isMax then a else b, 0)

/-- A / B, correctly rounded. -/
def fDiv (f : Nat) (rm : Rnd) (a b : Nat) : Nat × Nat :=
  let p := ieee f
  if p.isNan a || p.isNan b then nanResult f [a, b] false
  else
    match p.decode a, p.decode b with
    | .inf _, .inf _ => (canonNan f, flInvalid)
    | .inf s, .fin t _ _ => deliver f rm (.inf (s != t))
    | .fin s _ _, .inf t => deliver f rm (.fin (s != t) 0 0)
    | .fin s m e, .fin t n x =>
      if n = 0 then
        if m = 0 then (canonNan f, flInvalid)
        else ((deliver f rm (.inf (s != t))).1, flDivZero)
      else
        let q := m * 2 ^ 128 / n
        let r := m * 2 ^ 128 % n
        deliver f rm (.fin (s != t) (2 * q + (if r = 0 then 0 else 1)) (e - x - 129))
    | _, _ => (canonNan f, flInvalid)

/-- The integer square root of a number below 2^(2k): bit by bit from the top. -/
def isqrt (k n : Nat) : Nat :=
  (List.range k).foldl (fun r i => let c := r + 2 ^ (k - 1 - i); if c * c ≤ n then c else r) 0

/-- √A, correctly rounded. -/
def fSqrt (f : Nat) (rm : Rnd) (a : Nat) : Nat × Nat :=
  let p := ieee f
  if p.isNan a then nanResult f [a] false
  else
    match p.decode a with
    | .fin s m e =>
      if m = 0 then (a, 0)
      else if s then (canonNan f, flInvalid)
      else
        let odd : Nat := (e % 2).toNat
        let n := m * 2 ^ (128 + odd)
        let r := isqrt 96 n
        deliver f rm (.fin false (2 * r + (if r * r = n then 0 else 1)) ((e - odd) / 2 - 65))
    | .inf s => if s then (canonNan f, flInvalid) else (a, 0)
    | .nan => (canonNan f, flInvalid)

/-- The relations of FSETP (R180): 0 EQ, 1 NE, 2 LT, 3 LE, 4 UN, 5 ORD. -/
def fRel (f rel a b : Nat) : Bool × Nat :=
  let p := ieee f
  let c := FNum.cmp (p.decode a) (p.decode b)
  let inv := p.isSnan a || p.isSnan b || ((rel = 2 ∨ rel = 3) && c.isNone && Config.lessSignals)
  (match rel with
    | 0 => c = some 0
    | 1 => c ≠ some 0
    | 2 => c = some (-1)
    | 3 => c = some (-1) || c = some 0
    | 4 => c.isNone
    | _ => c.isSome, if inv then flInvalid else 0)

/-! ### The SFU (R179, R180): results within one unit in the last place -/

/-- The binary32 result, within one unit in the last place of the exact one, that the unit gives. `exact` says that the
value is m × 2^e itself; otherwise the value lies strictly between m × 2^e and (m + 1) × 2^e, whose bits reach past binary32's. -/
def sfuRound (op x draw : Nat) (neg exact : Bool) (m : Nat) (e : Int) : Nat :=
  let p := ieee 6
  let lo := p.round .zero neg m e
  let pick := (Config.sfu op (BitVec.ofNat 32 x) draw).toNat
  let s := if neg then 2 ^ 31 else 0
  if exact && !lo.inexact then
    let c := lo.code % 2 ^ 31
    s + (if pick % 3 = 0 then c else if pick % 3 = 1 then min (c + 1) p.maxCode else c - 1)
  else
    let c := lo.code % 2 ^ 31
    s + (if pick % 2 = 0 then c else min (c + 1) p.maxCode)

/-- A result for an operand for which the manual states none. -/
def sfuFree (op x draw : Nat) : Nat := (Config.sfuOpen op (BitVec.ofNat 32 x) draw).toNat

/-- 1/A. Stated for a finite nonzero operand whose reciprocal binary32 can approach. -/
def sfuRcp (x draw : Nat) : Nat :=
  match (ieee 6).decode x with
  | .fin s m e =>
    if m = 0 then sfuFree 0 x draw
    else
      let q := 2 ^ 96 / m
      let lo := (ieee 6).round .zero s q (-e - 96)
      if lo.overflow then sfuFree 0 x draw else sfuRound 0 x draw s (2 ^ 96 % m == 0) q (-e - 96)
  | _ => sfuFree 0 x draw

/-- 1/√A. Stated for a finite positive operand. -/
def sfuRsq (x draw : Nat) : Nat :=
  match (ieee 6).decode x with
  | .fin s m e =>
    if m = 0 || s then sfuFree 1 x draw
    else
      let odd : Nat := (e % 2).toNat
      let n := 2 ^ 190 / (m * 2 ^ odd)
      let r := isqrt 96 n
      sfuRound 1 x draw false (r * r * (m * 2 ^ odd) == 2 ^ 190) r (-((e - odd) / 2) - 95)
  | _ => sfuFree 1 x draw

/-- A lower bound of 2^(2^-i) in units of 2^-128. -/
def exp2Root : Nat → Nat
  | 0 => 2 * 2 ^ 128
  | n + 1 => isqrt 130 (exp2Root n * 2 ^ 128)

/-- 2^A. Stated for a finite operand whose power does not exceed binary32's largest finite. The fraction's power is the
product of the roots of its bits; its bounds are the product and the product with 2^-100 of it added. -/
def sfuEx2 (x draw : Nat) : Nat :=
  match (ieee 6).decode x with
  | .fin s m e =>
    if 8 ≤ (Nat.log2 m : Int) + e then (if s then sfuRound 2 x draw false false 1 (-400) else sfuFree 2 x draw)
    else
      let v : Int := if -64 ≤ e then (m * 2 ^ (e + 64).toNat : Nat) else (m / 2 ^ (-64 - e).toNat : Nat)
      let lost := e < -64 && m % 2 ^ (-64 - e).toNat != 0
      let v := if s then -v - (if lost then 1 else 0) else v
      let n := v / 2 ^ 64
      let fr := (v % 2 ^ 64).toNat
      let pr := (List.range 64).foldl (fun a i =>
        if fr.testBit (63 - i) then a * exp2Root (i + 1) / 2 ^ 128 else a) (2 ^ 128)
      let hi := pr + (if lost then pr / 2 ^ 64 + 1 else 0) + pr / 2 ^ 100 + 1
      let exact := fr = 0 && !lost
      let clo := (ieee 6).round .zero false pr (n - 128)
      let chi := (ieee 6).round .zero false hi (n - 128)
      if clo.overflow then sfuFree 2 x draw
      else if exact || clo.code = chi.code then sfuRound 2 x draw false exact pr (n - 128)
      else chi.code
  | _ => sfuFree 2 x draw

/-- One bit of log₂ by squaring, on a lower bound of the mantissa in units of 2^-192. -/
def logStep (p : Nat × Nat) : Nat × Nat :=
  let y := p.1 * p.1 / 2 ^ 192
  if 2 ^ 193 ≤ y then (y / 2, 2 * p.2 + 1) else (y, 2 * p.2)

/-- log₂A. Stated for a finite positive operand. The fraction has 72 bits from repeated squaring. -/
def sfuLg2 (x draw : Nat) : Nat :=
  match (ieee 6).decode x with
  | .fin s m e =>
    if m = 0 || s then sfuFree 3 x draw
    else
      let k := Nat.log2 m
      let n : Int := (k : Int) + e
      let y := m * 2 ^ (192 - k)
      let fr := ((List.range 72).foldl (fun a _ => logStep a) (y, 0)).2
      let exact := m = 2 ^ k
      let v : Int := n * 2 ^ 72 + fr
      if v < 0 then sfuRound 3 x draw true exact (if exact then v.natAbs else v.natAbs - 1) (-72)
      else sfuRound 3 x draw false exact v.natAbs (-72)
  | _ => sfuFree 3 x draw

end Sys2Proof.Machine
end

