-- ==== Sys2Proof/Machine/Crypto.lean ====
section
/-! DEFINITION. The named standards that the module computes with (log entry 7): CRC-32C (R22), SHA-256 and HMAC (R39, R42),
SHA-384 and HKDF (R428, R432), and the verification of ECDSA P-384 signatures (R429). -/

namespace Sys2Proof.Machine

/-- One bit of the reflected CRC-32C. -/
def crcBit (c : BitVec 32) : BitVec 32 := if c.getLsbD 0 then (c >>> 1) ^^^ 0x82F63B78#32 else c >>> 1

/-- One octet of it. -/
def crcByte (c : BitVec 32) (b : Byte) : BitVec 32 := Nat.rec (c ^^^ b.setWidth 32) (fun _ x => crcBit x) 8

/-- A running CRC-32C over more octets, from and to its complemented form. -/
def crc32cFrom (c : BitVec 32) (l : List Byte) : BitVec 32 := ~~~ (l.foldl crcByte (~~~ c))

/-- CRC-32C (R22). -/
def crc32c (l : List Byte) : Nat := (crc32cFrom 0 l).toNat

/-- A big-endian number of `n` octets. -/
def beBytes (n v : Nat) : List Byte := (leBytes n v).reverse

/-- The number that octets spell, most significant first. -/
def beNat (l : List Byte) : Nat := leNat l.reverse

/-- The round constants of SHA-256. -/
def k256 : List (BitVec 32) :=
  [0x428A2F98, 0x71374491, 0xB5C0FBCF, 0xE9B5DBA5, 0x3956C25B, 0x59F111F1, 0x923F82A4, 0xAB1C5ED5,
    0xD807AA98, 0x12835B01, 0x243185BE, 0x550C7DC3, 0x72BE5D74, 0x80DEB1FE, 0x9BDC06A7, 0xC19BF174] ++
  [0xE49B69C1, 0xEFBE4786, 0x0FC19DC6, 0x240CA1CC, 0x2DE92C6F, 0x4A7484AA, 0x5CB0A9DC, 0x76F988DA,
    0x983E5152, 0xA831C66D, 0xB00327C8, 0xBF597FC7, 0xC6E00BF3, 0xD5A79147, 0x06CA6351, 0x14292967] ++
  [0x27B70A85, 0x2E1B2138, 0x4D2C6DFC, 0x53380D13, 0x650A7354, 0x766A0ABB, 0x81C2C92E, 0x92722C85,
    0xA2BFE8A1, 0xA81A664B, 0xC24B8B70, 0xC76C51A3, 0xD192E819, 0xD6990624, 0xF40E3585, 0x106AA070] ++
  [0x19A4C116, 0x1E376C08, 0x2748774C, 0x34B0BCB5, 0x391C0CB3, 0x4ED8AA4A, 0x5B9CCA4F, 0x682E6FF3,
    0x748F82EE, 0x78A5636F, 0x84C87814, 0x8CC70208, 0x90BEFFFA, 0xA4506CEB, 0xBEF9A3F7, 0xC67178F2]

/-- The round constants of SHA-384. -/
def k512 : List (BitVec 64) :=
  [0x428A2F98D728AE22, 0x7137449123EF65CD, 0xB5C0FBCFEC4D3B2F, 0xE9B5DBA58189DBBC,
    0x3956C25BF348B538, 0x59F111F1B605D019, 0x923F82A4AF194F9B, 0xAB1C5ED5DA6D8118,
    0xD807AA98A3030242, 0x12835B0145706FBE, 0x243185BE4EE4B28C, 0x550C7DC3D5FFB4E2,
    0x72BE5D74F27B896F, 0x80DEB1FE3B1696B1, 0x9BDC06A725C71235, 0xC19BF174CF692694] ++
  [0xE49B69C19EF14AD2, 0xEFBE4786384F25E3, 0x0FC19DC68B8CD5B5, 0x240CA1CC77AC9C65,
    0x2DE92C6F592B0275, 0x4A7484AA6EA6E483, 0x5CB0A9DCBD41FBD4, 0x76F988DA831153B5,
    0x983E5152EE66DFAB, 0xA831C66D2DB43210, 0xB00327C898FB213F, 0xBF597FC7BEEF0EE4,
    0xC6E00BF33DA88FC2, 0xD5A79147930AA725, 0x06CA6351E003826F, 0x142929670A0E6E70] ++
  [0x27B70A8546D22FFC, 0x2E1B21385C26C926, 0x4D2C6DFC5AC42AED, 0x53380D139D95B3DF,
    0x650A73548BAF63DE, 0x766A0ABB3C77B2A8, 0x81C2C92E47EDAEE6, 0x92722C851482353B,
    0xA2BFE8A14CF10364, 0xA81A664BBC423001, 0xC24B8B70D0F89791, 0xC76C51A30654BE30,
    0xD192E819D6EF5218, 0xD69906245565A910, 0xF40E35855771202A, 0x106AA07032BBD1B8] ++
  [0x19A4C116B8D2D0C8, 0x1E376C085141AB53, 0x2748774CDF8EEB99, 0x34B0BCB5E19B48A8,
    0x391C0CB3C5C95A63, 0x4ED8AA4AE3418ACB, 0x5B9CCA4F7763E373, 0x682E6FF3D6B2B8A3,
    0x748F82EE5DEFB2FC, 0x78A5636F43172F60, 0x84C87814A1F0AB72, 0x8CC702081A6439EC,
    0x90BEFFFA23631E28, 0xA4506CEBDE82BDE9, 0xBEF9A3F7B2C67915, 0xC67178F2E372532B] ++
  [0xCA273ECEEA26619C, 0xD186B8C721C0C207, 0xEADA7DD6CDE0EB1E, 0xF57D4F7FEE6ED178,
    0x06F067AA72176FBA, 0x0A637DC5A2C898A6, 0x113F9804BEF90DAE, 0x1B710B35131C471B,
    0x28DB77F523047D84, 0x32CAAB7B40C72493, 0x3C9EBE0A15C9BEBC, 0x431D67C49C100D4C,
    0x4CC5D4BECB3E42B6, 0x597F299CFC657E2A, 0x5FCB6FAB3AD6FAEC, 0x6C44198C4A475817]

/-- The initial value of SHA-256. -/
def h256 : List (BitVec 32) :=
  [0x6A09E667, 0xBB67AE85, 0x3C6EF372, 0xA54FF53A, 0x510E527F, 0x9B05688C, 0x1F83D9AB, 0x5BE0CD19]

/-- The initial value of SHA-384. -/
def h384 : List (BitVec 64) :=
  [0xCBBB9D5DC1059ED8, 0x629A292A367CD507, 0x9159015A3070DD17, 0x152FECD8F70E5939,
    0x67332667FFC00B31, 0x8EB44A8768581511, 0xDB0C2E0D64F98FA7, 0x47B5481DBEFA4FA4]

/-- The padding of both: a one bit, zeros, and the length in bits in `lenBytes` octets. -/
def shaPad (block lenBytes : Nat) (l : List Byte) : List Byte :=
  let used := (l.length + 1 + lenBytes) % block
  l ++ [0x80#8] ++ List.replicate (if used = 0 then 0 else block - used) 0 ++ beBytes lenBytes (8 * l.length)

/-- A list cut into pieces of `n`. -/
def chunks {α : Type} (n : Nat) : Nat → List α → List (List α)
  | 0, _ => []
  | k + 1, l => if l.isEmpty then [] else l.take n :: chunks n k (l.drop n)

/-- How the two hashes differ: word width and rotation counts. -/
structure ShaP where
  w : Nat
  s0 : Nat × Nat × Nat
  s1 : Nat × Nat × Nat
  b0 : Nat × Nat × Nat
  b1 : Nat × Nat × Nat

/-- The next word of the message schedule from the last sixteen, most recent first. -/
def schedWord (p : ShaP) (l : List (BitVec p.w)) : BitVec p.w :=
  let a := l.getD 14 0
  let b := l.getD 1 0
  let u := a.rotateRight p.s0.1 ^^^ a.rotateRight p.s0.2.1 ^^^ (a >>> p.s0.2.2)
  let v := b.rotateRight p.s1.1 ^^^ b.rotateRight p.s1.2.1 ^^^ (b >>> p.s1.2.2)
  v + l.getD 6 0 + u + l.getD 15 0

/-- The message schedule, most recent first. -/
def schedule (p : ShaP) (first : List (BitVec p.w)) (n : Nat) : List (BitVec p.w) :=
  (List.range n).foldl (fun l _ => schedWord p l :: l) first.reverse

/-- One round on the eight working words. -/
def shaRound (p : ShaP) (v : List (BitVec p.w)) (kw : BitVec p.w) : List (BitVec p.w) :=
  let a := v.getD 0 0
  let b := v.getD 1 0
  let c := v.getD 2 0
  let e := v.getD 4 0
  let f := v.getD 5 0
  let g := v.getD 6 0
  let t1 := v.getD 7 0 + (e.rotateRight p.b1.1 ^^^ e.rotateRight p.b1.2.1 ^^^ e.rotateRight p.b1.2.2) +
    ((e &&& f) ^^^ (~~~ e &&& g)) + kw
  let t2 := (a.rotateRight p.b0.1 ^^^ a.rotateRight p.b0.2.1 ^^^ a.rotateRight p.b0.2.2) +
    ((a &&& b) ^^^ (a &&& c) ^^^ (b &&& c))
  [t1 + t2, a, b, c, v.getD 3 0 + t1, e, f, g]

/-- One block. -/
def shaBlock (p : ShaP) (ks : List (BitVec p.w)) (h : List (BitVec p.w)) (blk : List Byte) : List (BitVec p.w) :=
  let first := (chunks (p.w / 8) 16 blk).map fun b => BitVec.ofNat p.w (beNat b)
  let ws := (schedule p first (ks.length - 16)).reverse
  let v := (List.zipWith (· + ·) ks ws).foldl (shaRound p) h
  List.zipWith (· + ·) h v

/-- SHA-256. -/
def sha256 (l : List Byte) : List Byte :=
  let p : ShaP := ⟨32, (7, 18, 3), (17, 19, 10), (2, 13, 22), (6, 11, 25)⟩
  let m := shaPad 64 8 l
  ((chunks 64 m.length m).foldl (shaBlock p k256) h256).flatMap fun x => beBytes 4 x.toNat

/-- SHA-384. -/
def sha384 (l : List Byte) : List Byte :=
  let p : ShaP := ⟨64, (1, 8, 7), (19, 61, 6), (28, 34, 39), (14, 18, 41)⟩
  let m := shaPad 128 16 l
  (((chunks 128 m.length m).foldl (shaBlock p k512) h384).flatMap fun x => beBytes 8 x.toNat).take 48

/-- HMAC over a hash with its block length. -/
def hmac (hash : List Byte → List Byte) (block : Nat) (key msg : List Byte) : List Byte :=
  let k := if block < key.length then hash key else key
  let k := k ++ List.replicate (block - k.length) 0
  hash (k.map (· ^^^ 0x5C#8) ++ hash (k.map (· ^^^ 0x36#8) ++ msg))

/-- HMAC-SHA-256 (R39, R42). -/
def hmac256 (key msg : List Byte) : List Byte := hmac sha256 64 key msg

/-- HMAC-SHA-384. -/
def hmac384 (key msg : List Byte) : List Byte := hmac sha384 128 key msg

/-- The first 32 bytes of HKDF-SHA-384 (R432): one block of output serves. -/
def hkdf384 (ikm salt info : List Byte) : List Byte :=
  (hmac384 (hmac384 salt ikm) (info ++ [0x01#8])).take 32

/-- The octets of an ASCII text. -/
def ascii (s : String) : List Byte := s.toList.map fun c => BitVec.ofNat 8 c.toNat

/-! ### P-384 -/

/-- The field prime. -/
def p384 : Nat := 2 ^ 384 - 2 ^ 128 - 2 ^ 96 + 2 ^ 32 - 1
/-- The curve's order. -/
def n384 : Nat := 0xFFFFFFFFFFFFFFFFFFFFFFFFFFFFFFFFFFFFFFFFFFFFFFFFC7634D81F4372DDF581A0DB248B0A77AECEC196ACCC52973
/-- The curve's b. -/
def b384 : Nat := 0xB3312FA7E23EE7E4988E056BE3F82D19181D9C6EFE8141120314088F5013875AC656398D8A2ED19D2A85C8EDD3EC2AEF
/-- The base point. -/
def g384 : Nat × Nat :=
  (0xAA87CA22BE8B05378EB1C71EF320AD746E1D3B628BA79B9859F741E082542A385502F25DBF55296C3A545E3872760AB7,
   0x3617DE4A96262C6F5D9E98BF9292DC29F8F41DBD289A147CE9DA3113B5F0B8C00A60B1CE1D7E819D7A431D7C90EA0E5F)

/-- Modular power over the low `k` bits of the exponent. -/
def powMod (k m a e : Nat) : Nat :=
  (List.range k).foldl (fun r i => let r := r * r % m; if e.testBit (k - 1 - i) then r * a % m else r) 1

/-- The inverse modulo a prime below 2^384. -/
def invMod (m a : Nat) : Nat := powMod 384 m (a % m) (m - 2)

/-- The sum of two points; none is the point at infinity. -/
def ecAdd : Option (Nat × Nat) → Option (Nat × Nat) → Option (Nat × Nat)
  | none, q => q
  | p, none => p
  | some (x1, y1), some (x2, y2) =>
    if x1 = x2 ∧ (y1 + y2) % p384 = 0 then none
    else
      let l := if x1 = x2 then (3 * x1 * x1 + (p384 - 3)) * invMod p384 (2 * y1) % p384
        else (y2 + p384 - y1) * invMod p384 (x2 + p384 - x1) % p384
      let x3 := (l * l + 2 * p384 - x1 - x2) % p384
      some (x3, (l * (x1 + p384 - x3) + p384 - y1) % p384)

/-- A multiple of a point. -/
def ecMul (k : Nat) (q : Option (Nat × Nat)) : Option (Nat × Nat) :=
  (List.range 384).foldl (fun r i => let r := ecAdd r r; if k.testBit (383 - i) then ecAdd r q else r) none

/-- Whether a signature r ‖ s over a message verifies under a public key 0x04 ‖ x ‖ y (R429). -/
def ecdsa384 (pub msg sig : List Byte) : Bool :=
  let x := beNat ((pub.drop 1).take 48)
  let y := beNat (pub.drop 49)
  let r := beNat (sig.take 48)
  let s := beNat (sig.drop 48)
  let onCurve := y * y % p384 == (x * x * x + (p384 - 3) * x + b384) % p384
  if pub.length ≠ 97 ∨ pub.getD 0 0 ≠ 4 ∨ p384 ≤ x ∨ p384 ≤ y ∨ onCurve = false ∨ r = 0 ∨ s = 0 ∨ n384 ≤ r ∨ n384 ≤ s then false
  else
    let z := beNat (sha384 msg)
    let w := invMod n384 s
    match ecAdd (ecMul (z * w % n384) (some g384)) (ecMul (r * w % n384) (some (x, y))) with
    | none => false
    | some (a, _) => a % n384 == r

end Sys2Proof.Machine
end

