-- ==== Sys2Proof/Machine/Trace.lean ====
section
/-! DEFINITION. Trace records (R414 to R416), and the counting of an error at its site (R395 to R398). -/

namespace Sys2Proof.Machine

/-! ### The trace ring -/

/-- Slots of the trace ring (R414). -/
def State.traceSlots (s : State) : Nat := 2 ^ s.nat oTraceLog2

/-- Free slots of the trace ring (R276, R414). -/
def State.traceFree (s : State) : Nat := s.traceSlots - (s.traceProd + 2 ^ 32 - s.traceCons) % 2 ^ 32

/-- One record into the next slot, and PROD into its mirror (R414, R415). -/
def State.traceWrite (s : State) (ty src tag ctx data : Nat) : State :=
  let seq := (s.traceSeq + 1) % 2 ^ 32
  let rec64 := ty * 2 ^ 504 + src * 2 ^ 480 + tag * 2 ^ 448 + ctx * 2 ^ 416 + seq * 2 ^ 384 +
    s.mtime % 2 ^ 64 * 2 ^ 320 + data % 2 ^ 320
  let at_ := hostKey (s.nat oTracePort) (s.nat oTraceBase + 64 * (s.traceProd % s.traceSlots))
  let prod := (s.traceProd + 1) % 2 ^ 32
  { s with
    host := Memory.putNum (Memory.putNum s.host at_ 64 rec64) (hostKey (s.nat oTracePort) (s.nat oTraceProdAddr)) 4 prod
    traceProd := prod
    traceSeq := seq }

/-- The group of a record type in TRACE_MASK (R416). -/
def traceGroup (ty : Nat) : Nat := if ty < 0x10 then 0 else if ty < 0x20 then 1 else 2

/-- A trace record for a traced event: written, or dropped and counted while one free slot remains or a LOSS record is owed
(R415, R416). -/
def State.trace (s : State) (ty src tag ctx data : Nat) : State :=
  if s.nat oTraceEnable = 0 || !(s.nat oTraceMask).testBit (traceGroup ty) then s
  else
    match s.traceLoss with
    | none =>
      if 2 ≤ s.traceFree then s.traceWrite ty src tag ctx data
      else { s with traceLoss := some (1, s.mtime, s.mtime) }.bump 8 oTraceLost 1
    | some (n, a, _) => { s with traceLoss := some (n + 1, a, s.mtime) }.bump 8 oTraceLost 1

/-- The LOSS record that goes before any other once two slots are free (R416). -/
def State.traceCatchUp (s : State) : State :=
  match s.traceLoss with
  | none => s
  | some (n, a, b) =>
    if 2 ≤ s.traceFree then
      { s with traceLoss := none }.traceWrite 0xFF 0x0200 0 0 (n % 2 ^ 64 * 2 ^ 256 + a % 2 ^ 64 * 2 ^ 192 + b % 2 ^ 64 * 2 ^ 128)
    else s

/-! ### Counters of a core and of its running shard (R411, R412) -/

/-- An event of a core: every enabled counter that selects it counts, modulo 2^64, and the running shard's counts of units 0
to 4 with them. -/
def State.count (s : State) (k unit event n : Nat) : State :=
  let sel := 2 ^ 31 + unit * 256 + event
  let hits := (List.range 64).filter fun i => s.ctr (oPmcSel k i) = sel
  let s := hits.foldl (fun s i => s.put (oPmc k i) ((s.ctr (oPmc k i) + n) % 2 ^ 64)) s
  let c := Tbl.get CoreU.reset s.cores k
  if unit < 5 && c.shard.isSome then
    { s with cores := Tbl.set s.cores k { c with cnts := Tbl.modify 0 c.cnts (256 * unit + event) (· + n) } }
  else s

/-! ### Error sites -/

/-- The kind of a site (R395). -/
def siteKind (x : Nat) : Nat :=
  if x < 48 then 0 else if x < 96 then 1 else if x < 192 then 2 else if x < 384 then 3
  else if x < 396 then 4 else if x < 400 then 5 else if x < 406 then 6 else 7

/-- Seconds of life of a die (R397). -/
def State.lifeSec (s : State) (d : Nat) : Nat := Tbl.get 0 s.life d + s.now / 10 ^ 9

/-- The value of a window object as it stood when a site's current bucket began: a change takes effect at the next bucket
boundary (R398). `ver` counts the changes that had been made by then. -/
def State.winVal (s : State) (ver key : Nat) : Nat :=
  match (s.winLog.drop ver).find? fun e => e.1 = key with
  | some e => e.2
  | none => s.nat key

/-- W in seconds and N of a site: the override that names it, else those of its kind (R398, R422). -/
def State.window (s : State) (d x : Nat) : Nat × Nat :=
  let ver := (Tbl.get SiteW.reset s.sites (512 * d + x)).ver
  let o := (List.range 32).find? fun i =>
    let v := s.winVal ver (oSiteOverride i)
    v.testBit 63 && bits 62 60 v = d && bits 59 51 v = x
  match o with
  | some i => (bits 31 0 (s.winVal ver (oSiteOverride i)), bits 47 32 (s.winVal ver (oSiteOverride i)))
  | none => (s.winVal ver (oWindowW (siteKind x)) / 10 ^ 9, s.winVal ver (oWindowN (siteKind x)))

/-- The state of a site (R410): 0 CLEAN, 1 TRANSIENT, 2 LASTING, 3 RETIRED. -/
def State.siteState (s : State) (d x : Nat) : Nat := bits 63 61 (s.ctr (oSite d x))

/-- A site word (R410). -/
def siteWord (st act cnt last : Nat) : Nat := st * 2 ^ 61 + act * 2 ^ 56 + min cnt 65535 * 2 ^ 40 + last % 2 ^ 32

/-- The site with a new state and action; a change of state is traced (R415). -/
def State.setSite (s : State) (d x st act cnt last : Nat) : State :=
  let old := s.siteState d x
  let s := s.put (oSite d x) (siteWord st act cnt last)
  if old = st then s
  else s.trace 0x10 (0x200 + d) 0 0 (d * 2 ^ 317 + x * 2 ^ 308 + old * 2 ^ 305 + st * 2 ^ 302 + act * 2 ^ 297)

/-- The weight of an event (R396); `n` is the site's N. -/
def evWeight (e : SiteEv) (n : Nat) : Nat :=
  match e with
  | .corrected => 1
  | .latticeReplay => 1
  | .slotAbandoned => 4
  | .linkRetrained => 4
  | .uncorrectable => 8
  | .parity => 8
  | .exhausted => 8
  | .failedTest => n

/-- A reported error at a site (R396, R397): its weight joins the current bucket, and the site becomes TRANSIENT or, when the
count reaches N, LASTING. -/
def State.siteError (s : State) (d x : Nat) (e : SiteEv) : State :=
  let wn := s.window d x
  let w := evWeight e wn.2
  let u := Tbl.get SiteW.reset s.sites (512 * d + x)
  let bk := setNth u.buckets 0 (u.buckets.getD 0 0 + w)
  let cnt := bk.foldl (· + ·) 0
  let st := s.siteState d x
  let act := bits 60 56 (s.ctr (oSite d x))
  let st' := if st = 3 then 3 else if st = 2 || wn.2 ≤ cnt || e = .failedTest then 2 else 1
  let s := { s with sites := Tbl.set s.sites (512 * d + x) { u with buckets := bk } }
  let s := match e with
    | .corrected => s.bump 8 (oLifeCorrected d x) 1
    | .uncorrectable => s.bump 4 (oLifeUncorrected d x) 1
    | _ => s
  s.setSite d x st' act cnt (s.lifeSec d)

end Sys2Proof.Machine
end

