-- ==== Sys2Proof/Machine/Memory.lean ====
section
/-! DEFINITION. The physical address map and the stacked memory below the caches (R231 to R235, R241 to R245). -/

namespace Sys2Proof.Machine

/-! ### Channels (R230, R233, R244) -/

/-- The states of a channel (R249). -/
def csService : Nat := 0
def csSuspect : Nat := 1
def csTraining : Nat := 2
def csMigrating : Nat := 3
def csRetired : Nat := 4
def csTarget : Nat := 5
def csDegraded : Nat := 6
def csClearing : Nat := 7

/-- The key of CHAN_STATE of module channel `c` = 192 × octant + index (R230, R249). -/
def kChanState (c : Nat) : Nat := oChanState (c / 32) (c % 32)
/-- The key of its CHAN_OWNER. -/
def kChanOwner (c : Nat) : Nat := oChanOwner (c / 32) (c % 32)
/-- The key of its CHAN_REMAP. -/
def kChanRemap (c : Nat) : Nat := oChanRemap (c / 32) (c % 32)

/-- The state of a channel (R249). -/
def State.chanState (s : State) (c : Nat) : Nat := s.ctr (kChanState c)
/-- The owner of a channel (R233): a partition, 0x10 the common region, 0xFF spare. -/
def State.chanOwner (s : State) (c : Nat) : Nat := s.ctr (kChanOwner c)
/-- What State holds of a channel beyond its objects. -/
def State.chanU (s : State) (c : Nat) : ChanU := Tbl.get ChanU.reset s.chan c

/-- The state of a channel apart from a clear or a training slot in progress: what it returns to (R237, R247). -/
def State.chanBase (s : State) (c : Nat) : Nat :=
  if s.chanState c = csClearing || s.chanState c = csTraining then (s.chanU c).was else s.chanState c

/-- The octant channel index that a channel's CHAN_REMAP names, 0xFF for none (R249). -/
def State.chanRemap (s : State) (c : Nat) : Nat := s.objD 0xFF (kChanRemap c)

/-- The octant channel indexes that stand in for retired channels (R244). -/
def State.targetsOf (s : State) (d : Nat) : List Nat :=
  (List.range 192).filterMap fun i => let t := s.chanRemap (192 * d + i); if t < 192 then some t else none

/-- The octant channel indexes that an owner holds, ascending: the list L of R234. A remap target takes the retired channel's
place and adds none (R244). -/
def State.chansOf (s : State) (d p : Nat) : List Nat :=
  let ts := s.targetsOf d
  (List.range 192).filter fun i =>
    s.chanOwner (192 * d + i) = p && s.chanBase (192 * d + i) ≠ csTarget && !ts.contains i

/-- The layout of an owner's region as its objects give it: its first unit, and the list L of R234. -/
def State.layoutNow (s : State) (d p : Nat) : Nat × List Nat := (s.ctr (oRegionBase d p), s.chansOf d p)

/-- The layout in effect: the one before the last WRITE while a channel of the new one is still being cleared (R237). -/
def State.layoutOf (s : State) (d p : Nat) : Nat × List Nat :=
  match s.layout.find? fun e => e.1 = 32 * d + p with
  | some e => e.2
  | none => s.layoutNow d p

/-- The owner whose region holds a 2 GiB unit of an octant, if any (R232). -/
def State.regionAt (s : State) (d u : Nat) : Option Nat :=
  (List.range 17).find? fun p =>
    let l := s.layoutOf d p
    l.1 ≤ u && u < l.1 + l.2.length

/-- Where a physical address lies (R231). -/
inductive Place where
  /-- A channel of the module, the channel-local address and the region's owner (R234). -/
  | chan (c loc owner : Nat)
  /-- A host window: its port and the key of the host memory's byte (R299). -/
  | host (port key : Nat)
  /-- Unmapped or reserved (R235). -/
  | bad
  deriving DecidableEq, Repr

/-- One octant's bytes: 384 GiB (R230). -/
def octantBytes : Nat := 0x6000000000
/-- First address of the host window of a port (R231). -/
def windowBase (p : Nat) : Nat := if p = 0 then 0x40000000000 else 0x80000000000

/-- The channel and channel-local address of offset `o` of a region over the channels `l` (R234). -/
def interleave (l : List Nat) (o : Nat) : Nat × Nat :=
  let n := l.length
  let b := o / 2 ^ 12
  let k := b % n
  let r := b / n
  let h := bits 7 0 r ^^^ bits 15 8 r ^^^ bits 18 16 r
  (l.getD ((k + h) % n) 0, r * 4096 + o % 4096)

/-- Where a physical address lies (R231 to R235, R299). -/
def State.place (s : State) (pa : Nat) : Place :=
  if pa < 8 * octantBytes then
    let d := pa / octantBytes
    let u := pa % octantBytes / 2 ^ 31
    match s.regionAt d u with
    | none => .bad
    | some p =>
      let l := s.layoutOf d p
      let ci := interleave l.2 (pa % octantBytes - l.1 * 2 ^ 31)
      .chan (192 * d + ci.1) ci.2 p
  else if 0x40000000000 ≤ pa ∧ pa < 0xC0000000000 then
    let p := if pa < 0x80000000000 then 0 else 1
    let a := s.ctr (oWindowBase p) + (pa - windowBase p)
    if a < 2 ^ 64 then .host p (hostKey p a) else .bad
  else .bad

/-- The die that is home of a physical address: its octant's, or the one that carries the host port (R2, R210). -/
def homeDie (pa : Nat) : Nat :=
  if pa < 8 * octantBytes then pa / octantBytes else if pa < 0x80000000000 then 0 else 7

/-! ### One 32-byte word of a channel (R241 to R245) -/

/-- Where a channel's byte stands in the stacked memory. -/
def hbmKey (c loc : Nat) : Nat := c * 2 ^ 31 + loc % 2 ^ 31

/-- The channel that accesses go to: a retired channel's target, and its target in turn (R244). -/
def State.servedFrom (s : State) (c : Nat) : Nat → Nat
  | 0 => c
  | n + 1 =>
    if s.chanBase c = csRetired && s.chanRemap c < 192 then s.servedFrom (192 * (c / 192) + s.chanRemap c) n else c

/-- The channel that accesses go to. -/
def State.served (s : State) (c : Nat) : Nat := s.servedFrom c 192

/-- The word that a channel holds in its held-write buffer, or that waits behind it, if any (R241). -/
def State.heldWord (s : State) (c loc : Nat) : Option Nat :=
  (((s.chanU c).waiting ++ (s.chanU c).held).find? fun h => h.1 = loc / 32).map fun h => h.2

/-- A 32-byte word of a channel, as a number, and whether it is poisoned: by its mark, or because its read has failed (R241, R242). -/
def State.chanRead (s : State) (c loc : Nat) : Nat × Bool :=
  let c := s.served c
  match s.heldWord c loc with
  | some v => (v, false)
  | none =>
    let a := hbmKey c (loc / 32 * 32)
    (Memory.num s.hbm a 32, s.poison.contains (a / 32) || (s.chanU c).fails.contains (loc / 32))

/-- The reads of `n` words of a channel are over: one that failed is not remembered (R241). -/
def State.chanPast (s : State) (c loc n : Nat) : State :=
  let c := s.served c
  let u := s.chanU c
  if u.fails.isEmpty then s
  else { s with chan := Tbl.set s.chan c { u with fails := u.fails.filter fun w => w < loc / 32 || loc / 32 + n ≤ w } }

/-- Bytes written over part of a 32-byte word: `v` at byte `o`, `n` bytes. -/
def spliceBytes (w o n v : Nat) : Nat :=
  w - w / 2 ^ (8 * o) % 2 ^ (8 * n) * 2 ^ (8 * o) + v % 2 ^ (8 * n) * 2 ^ (8 * o)

/-- `n` bytes written at byte `o` of a word of one channel. A write of all 32 bytes clears the poison mark (R242); a held word
takes the write in its buffer (R241). -/
def State.chanWriteOne (s : State) (c loc o n v : Nat) : State :=
  let a := hbmKey c (loc / 32 * 32)
  match s.heldWord c loc with
  | some w =>
    let u := s.chanU c
    let upd (h : Nat × Nat) : Nat × Nat := if h.1 = loc / 32 then (h.1, spliceBytes w o n v) else h
    { s with chan := Tbl.set s.chan c { u with held := u.held.map upd, waiting := u.waiting.map upd } }
  | none =>
    { s with hbm := Memory.putNum s.hbm (a + o) n v
             poison := if n = 32 then s.poison.filter (· ≠ a / 32) else s.poison }

/-- The same through the channel's retirement: a retired channel's write goes to its target, a migrating one's to both
(R244). -/
def State.chanWrite (s : State) (c loc o n v : Nat) : State :=
  let c := s.served c
  if s.chanState c = csMigrating then (s.chanWriteOne c loc o n v).chanWriteOne (s.chanU c).target loc o n v
  else s.chanWriteOne c loc o n v

/-- A word of one channel marked poisoned (R242). -/
def State.chanPoisonOne (s : State) (c loc : Nat) : State :=
  let a := hbmKey c loc / 32
  { s with poison := if s.poison.contains a then s.poison else a :: s.poison }

/-- The word that a channel's address is served from marked poisoned (R223). -/
def State.chanPoison (s : State) (c loc : Nat) : State := s.chanPoisonOne (s.served c) loc

/-- A whole channel at zero, without poison or held writes (R237, R436, R444). -/
def State.chanClear (s : State) (c : Nat) : State :=
  { s with
    hbm := Memory.clear s.hbm (c * 2 ^ 31) ((c + 1) * 2 ^ 31)
    poison := s.poison.filter fun a => a < c * 2 ^ 26 || (c + 1) * 2 ^ 26 ≤ a
    chan := Tbl.set s.chan c { s.chanU c with held := [], waiting := [], fails := [] } }

/-- Whether a channel accepts writes now: it is not being cleared, nor held by a training slot, nor blocked by a full
held-write buffer, which a DEGRADED channel's never is (R222, R237, R241, R245, R247). -/
def State.chanAccepts (s : State) (c : Nat) : Bool :=
  let t := s.served c
  let u := s.chanU t
  s.chanState c ≠ csClearing && s.chanState t ≠ csClearing && !u.trainHeld && (u.held.length < 64 || s.chanBase t = csDegraded)

/-- Whether a channel takes no access for an owner: it is being cleared, it is held by a training slot, or the owner holds it no more and its
region's new layout is not in effect yet (R237, R247). -/
def State.chanShut (s : State) (c p : Nat) : Bool :=
  s.chanState c = csClearing || s.chanState (s.served c) = csClearing || (s.chanU (s.served c)).trainHeld || s.chanOwner c ≠ p

/-! ### Memory by physical address, below the caches -/

/-- A 32-byte word of memory by physical address and whether it is poisoned. An unmapped address gives poisoned data
(R235). -/
def State.memWord (s : State) (pa : Nat) : Nat × Bool :=
  match s.place (pa / 32 * 32) with
  | .chan c loc _ => s.chanRead c loc
  | .host _ k => (Memory.num s.host k 32, false)
  | .bad => (0, true)

/-- `n` bytes written at byte `o` of the 32-byte word that holds `pa`; `poison` marks the word. An unmapped write is
discarded (R235). -/
def State.memPut (s : State) (pa o n v : Nat) (poison : Bool) : State :=
  match s.place (pa / 32 * 32) with
  | .chan c loc _ =>
    let s := s.chanWrite c loc o n v
    if poison then s.chanPoison c loc else s
  | .host _ k => { s with host := Memory.putNum s.host (k + o) n v }
  | .bad => s

/-- The reads of the four words of a 128-byte sector of memory are over (R241). -/
def State.sectorPast (s : State) (pa : Nat) : State :=
  match s.place (pa / 128 * 128) with
  | .chan c loc _ => s.chanPast c loc 4
  | _ => s

/-- Accesses that reach an unmapped or reserved address are counted (R235). -/
def State.countReserved (s : State) (pa : Nat) : State :=
  if s.place (pa / 32 * 32) = .bad then s.bump 4 oReservedAccesses 1 else s

end Sys2Proof.Machine
end

