-- ==== Sys2Proof/Machine/Cache.lean ====
section
/-! DEFINITION. The die caches with their victim caches, the L1 caches, the duplicate tags, and reads and writes at a home
(R202 to R212, R217 to R223). -/

namespace Sys2Proof.Machine

/-! ### Who asks -/

/-- The partition whose core mask holds a core, 0x10 where none does (R435). -/
def State.corePart (s : State) (k : Nat) : Nat :=
  ((List.range 16).find? fun p => (s.objD (if p = 0 then 2 ^ 96 - 1 else 0) (oCoreMask p)).testBit k).getD 0x10

/-- The partition on whose behalf a requester asks. -/
def State.agentPart (s : State) (r : Agent) : Nat :=
  match r with
  | .core k => s.corePart k
  | .mover k _ => s.corePart k
  | .copyEngine e => s.nat (oCePartition e)
  | _ => 0x10

/-- The die on which a requester lies (R2 to R4). -/
def agentDie (r : Agent) : Nat :=
  match r with
  | .core k => k / 12
  | .mover k _ => k / 12
  | .copyEngine e => e / 4
  | .link l => l / 6
  | .host p => if p = 0 then 0 else 7

/-! ### Die-cache slices (R202 to R206, R208, R222, R223) -/

/-- The slice beside the stack that holds an address (R203). A host-window line has no stack; it takes the slice that its line
number picks (log entry 16). -/
def State.sliceOf (s : State) (pa : Nat) : Nat :=
  match s.place pa with
  | .chan c _ _ => c % 192 / 32
  | _ => pa / 512 % 6

/-- The set of a line in its slice (R203). -/
def dcSet (pa : Nat) : Nat := bits 11 9 pa + 8 * (bits 21 12 pa ^^^ bits 31 22 pa)

/-- The number of a slice in the module. -/
def State.sliceNo (s : State) (pa : Nat) : Nat := 6 * homeDie pa + s.sliceOf pa

/-- Where a line's set stands in the table of slices. -/
def State.dcKey (s : State) (pa : Nat) : Nat := 8192 * s.sliceNo pa + dcSet pa

/-- The partition whose ways hold an address: the region's owner, or for a host window the requester's (R208). -/
def State.linePart (s : State) (pa p : Nat) : Nat :=
  match s.place pa with
  | .chan _ _ o => o
  | _ => p

/-- A partition's way mask on a die; ways in no mask hold what belongs to no partition (R208). -/
def State.wayMask (s : State) (d p : Nat) : Nat :=
  let m (q : Nat) : Nat := s.objD (if q = 0 then 0xFFFF else 0) (oWaymask d q)
  if p < 16 then m p else 0xFFFF - (List.range 16).foldl (fun a q => a ||| m q) 0

/-- Whether a slice takes fills at all: it is enabled (R224). -/
def State.sliceOn (s : State) (n : Nat) : Bool := s.ctr (oSliceStatus n) = 0

/-- The ways that a fill for partition `p` may use on a slice: its mask's, without retired ways and ways being reclaimed
(R205, R208, R209, R223). -/
def State.fillWays (s : State) (n p : Nat) : List Nat :=
  if s.sliceOn n then
    (List.range 16).filter fun w =>
      (s.wayMask (n / 6) p).testBit w && !(s.ctr (oWaysRetired n)).testBit w && !(Tbl.get 0 s.reclaim (n / 6)).testBit w
  else []

/-- The line of a slice that holds an address: a lookup examines only the ways of its partition (R208). -/
def State.dcFind (s : State) (p pa : Nat) : Option DcLine :=
  let m := s.wayMask (homeDie pa) (s.linePart pa p)
  (Tbl.get [] s.dc (s.dcKey pa)).find? fun l => l.line = pa / 512 && m.testBit l.way

/-- A 128-byte sector of memory with the poison of its four words. -/
def State.memSector (s : State) (pa : Nat) : Nat × Nat :=
  let ws := (List.range 4).map fun i => s.memWord (pa / 128 * 128 + 32 * i)
  (packLanes 256 (ws.map fun w => w.1), packLanes 1 (ws.map fun w => if w.2 then 1 else 0))

/-- The dirty sectors of a line written to memory, with their poison (R222, R223). -/
def State.dcClean (s : State) (l : DcLine) : State :=
  (bitsOf 4 l.dirty).foldl (fun s q =>
    (List.range 4).foldl (fun s i =>
      let j := 4 * q + i
      s.memPut (512 * l.line + 32 * j) 0 32 (lane 256 j l.data) (l.poison.testBit j)) (s.countReserved (512 * l.line + 128 * q))) s

/-- Whether the channel of a line accepts writes (R222). -/
def State.lineAccepts (s : State) (line : Nat) : Bool :=
  match s.place (512 * line) with
  | .chan c _ _ => s.chanAccepts c
  | _ => true

/-- One entry of a full victim cache freed: the oldest when it is clean or its channel accepts writes, else the oldest dirty
one whose channel does (R222). None where no entry can be freed. -/
def State.victimFree (s : State) (n : Nat) : Option State :=
  let v := Tbl.get [] s.victim n
  match v with
  | [] => some s
  | o :: rest =>
    if o.dirty = 0 then some { s with victim := Tbl.set s.victim n rest }
    else
      match v.find? fun l => l.dirty ≠ 0 && s.lineAccepts l.line with
      | none => none
      | some l =>
        let s := s.dcClean l
        some { s with victim := Tbl.set s.victim n (v.filter fun x => x.line ≠ l.line) }

/-- A line leaves its slice (R222): in SERVICE its dirty sectors go to memory, once its channel accepts them; in the other modes it moves whole
into the victim cache. None where it cannot leave. -/
def State.dcEvict (s : State) (n : Nat) (l : DcLine) : Option State :=
  if s.objD 1 (oEvictMode n) = 0 then (if l.dirty = 0 || s.lineAccepts l.line then some (s.dcClean l) else none)
  else
    let full := 64 ≤ (Tbl.get [] s.victim n).length
    let s' := if full then s.victimFree n else some s
    s'.map fun s => { s with victim := Tbl.set s.victim n (Tbl.get [] s.victim n ++ [l]) }

/-- The lowest-numbered free way, or none, among those a fill may use. -/
def freeWay (ws : List Nat) (used : List Nat) : Option Nat := ws.find? fun w => !used.contains w

/-- A line put into its set as the most recent (R205): into the lowest invalid way it may use, else in the place of the least
recent line of those ways. None where no way can be used, and for an address that is not there (R235). -/
def State.dcInsert (s : State) (pa p : Nat) (l : DcLine) : Option State :=
  let n := s.sliceNo pa
  let key := s.dcKey pa
  let set := Tbl.get [] s.dc key
  let ws := if s.place pa = .bad then [] else s.fillWays n (s.linePart pa p)
  match freeWay ws (set.map fun x => x.way) with
  | some w => some { s with dc := Tbl.set s.dc key ({ l with way := w } :: set) }
  | none =>
    match set.reverse.find? fun x => ws.contains x.way with
    | none => none
    | some o =>
      (s.dcEvict n o).map fun s =>
        { s with dc := Tbl.set s.dc key ({ l with way := o.way } :: set.filter fun x => x.way ≠ o.way) }

/-- A line of a slice changed and made the most recent. -/
def State.dcTouch (s : State) (pa : Nat) (l : DcLine) : State :=
  let key := s.dcKey pa
  { s with dc := Tbl.set s.dc key (l :: (Tbl.get [] s.dc key).filter fun x => x.way ≠ l.way) }

/-- The entry of a slice's victim cache that holds an address. -/
def State.victimOf (s : State) (pa : Nat) : Option DcLine := (Tbl.get [] s.victim (s.sliceNo pa)).find? fun l => l.line = pa / 512
/-- The same removed. -/
def State.victimDrop (s : State) (pa : Nat) : State :=
  let n := s.sliceNo pa
  { s with victim := Tbl.set s.victim n ((Tbl.get [] s.victim n).filter fun x => x.line ≠ pa / 512) }

/-- A request that misses in its slice and hits in the victim cache recalls the line as its fill, and frees the entry (R222); where the slice may
not take it, its dirty sectors go to memory. -/
def State.recall (s : State) (p pa : Nat) : State :=
  match s.dcFind p pa, s.victimOf pa with
  | none, some l =>
    let t := s.victimDrop pa
    ((t.dcInsert pa p l).getD (t.dcClean l)).bump 8 (oRecalls (s.sliceNo pa)) 1
  | _, _ => s

/-- A line with one sector brought in from memory (R204). -/
def State.withSector (s : State) (l : DcLine) (pa : Nat) : DcLine :=
  let q := pa / 128 % 4
  let m := s.memSector pa
  { l with valid := setBit l.valid q, data := putLane 1024 q l.data m.1, poison := putLane 4 q l.poison m.2 }

/-- A line without a valid sector. -/
def emptyLine (pa : Nat) : DcLine := { line := pa / 512, way := 0, valid := 0, dirty := 0, poison := 0, data := 0 }

/-- Whether an address's sector is valid in its slice. -/
def State.dcHit (s : State) (p pa : Nat) : Bool := (s.dcFind p pa).any fun l => l.valid.testBit (pa / 128 % 4)

/-- One lookup of a sector counted (R423), and one of an address that is not there as well (R235). -/
def State.dcCount (s : State) (p pa : Nat) : State :=
  if s.dcHit p pa then s.bump 8 oDcHits 1 else (s.bump 8 oDcMisses 1).countReserved pa

/-- An address's sector brought into its slice where it may be, a victim's line recalled first (R204, R205, R208, R222, R224). -/
def State.dcBring (s : State) (p pa : Nat) : State :=
  let s := s.recall p pa
  match s.dcFind p pa with
  | some l => if l.valid.testBit (pa / 128 % 4) || !s.sliceOn (s.sliceNo pa) then s else (s.dcTouch pa (s.withSector l pa)).sectorPast pa
  | none =>
    match s.dcInsert pa p (s.withSector (emptyLine pa) pa) with
    | some t => t.sectorPast pa
    | none => s

/-- A sector read at its home: its 128 bytes and the poison of its four words, from the slice, where it may be brought into it, or from memory. -/
def State.dcSector (s : State) (p pa : Nat) : State × Nat × Nat :=
  let q := pa / 128 % 4
  let s := (s.dcCount p pa).dcBring p pa
  match (s.dcFind p pa).filter fun l => l.valid.testBit q with
  | some l => (s.dcTouch pa l, lane 1024 q l.data, lane 4 q l.poison)
  | none =>
    let m := s.memSector pa
    (s.sectorPast pa, m.1, m.2)

/-- `n` bytes at byte `o` of the 32-byte word of `pa` written at the home: into the slice's sector, which is then dirty, or to memory where the
sector may not be brought in; a slice that is draining writes through (R206, R208, R224). -/
def State.dcPut (s : State) (p pa o n v : Nat) (poison : Bool) : State :=
  let q := pa / 128 % 4
  let j := pa / 32 % 16
  let s := s.dcBring p pa
  match (s.dcFind p pa).filter fun l => l.valid.testBit q with
  | none => s.memPut pa o n v poison
  | some l =>
    let w := spliceBytes (lane 256 j l.data) o n v
    let pz := if poison then setBit l.poison j else if n = 32 then clrBit l.poison j else l.poison
    if s.sliceOn (s.sliceNo pa) then
      s.dcTouch pa { l with data := putLane 256 j l.data w, dirty := setBit l.dirty q, poison := pz }
    else
      (s.memPut pa 0 32 w (pz.testBit j)).dcTouch pa { l with data := putLane 256 j l.data w, poison := pz }

/-! ### L1 caches (R202, R204, R205, R211, R221) -/

/-- Where an L1 line's set stands: data caches have 256 sets, instruction caches 128 (R202). -/
def l1Key (inst : Bool) (k line : Nat) : Nat := if inst then 128 * k + line % 128 else 256 * k + line % 256

/-- The lines of a set of an L1. -/
def State.l1Set (s : State) (inst : Bool) (k line : Nat) : List L1Line :=
  Tbl.get [] (if inst then s.l1i else s.l1d) (l1Key inst k line)

/-- The same set replaced. -/
def State.l1Put (s : State) (inst : Bool) (k line : Nat) (ls : List L1Line) : State :=
  if inst then { s with l1i := Tbl.set s.l1i (l1Key inst k line) ls }
  else { s with l1d := Tbl.set s.l1d (l1Key inst k line) ls }

/-- An L1's copy of a line. -/
def State.l1Find (s : State) (inst : Bool) (k line : Nat) : Option L1Line :=
  (s.l1Set inst k line).find? fun l => l.line = line

/-- An L1's copy changed, and made the most recent when `mru` is set. -/
def State.l1Update (s : State) (inst : Bool) (k : Nat) (l : L1Line) (mru : Bool) : State :=
  let ls := s.l1Set inst k l.line
  s.l1Put inst k l.line (if mru then l :: ls.filter fun x => x.line ≠ l.line
    else ls.map fun x => if x.line = l.line then l else x)

/-- An L1's copy removed. -/
def State.l1Drop (s : State) (inst : Bool) (k line : Nat) : State :=
  s.l1Put inst k line ((s.l1Set inst k line).filter fun x => x.line ≠ line)

/-- What State holds of a core. -/
def State.core (s : State) (k : Nat) : CoreU := Tbl.get CoreU.reset s.cores k
/-- The same replaced. -/
def State.setCore (s : State) (k : Nat) (c : CoreU) : State := { s with cores := Tbl.set s.cores k c }

/-- A coherence message sent (R214). -/
def State.post (s : State) (kind : String) (src dst line mask data : Nat) : State :=
  { s with lattice := s.lattice ++ [{ kind := kind, src := src, dst := dst, line := line, mask := mask, data := data }] }

/-- The first of a list that satisfies a test changed. -/
def changeFirst {α : Type} (f : α → Bool) (g : α → α) : List α → List α
  | [] => []
  | a :: r => if f a then g a :: r else a :: changeFirst f g r

/-- An ATM message sent with its operands (R214). -/
def State.postAtom (s : State) (k : Nat) (a : AtomMsg) : State :=
  { s with lattice := s.lattice ++
      [{ kind := "ATM", src := k, dst := 256 + homeDie a.pa, line := a.pa / 128, mask := 32 * a.group + a.lane, data := a.pa, atom := some a }] }

/-- Whether a message changes memory at its home: a write, or an atomic that is no LOCK.BEGIN. -/
def LMsg.changes (m : LMsg) : Bool := m.kind = "IWR" || (m.kind = "ATM" && m.atom.all fun a => a.op ≠ .lock)

/-- The first of a list without its first element that satisfies a test. -/
def dropFirst {α : Type} (f : α → Bool) : List α → List α
  | [] => []
  | a :: r => if f a then r else a :: dropFirst f r

/-- A message taken from those in flight, as it arrives (log entry 8). -/
def State.arrive (s : State) (kind : String) (src line : Nat) : State :=
  { s with lattice := dropFirst (fun m => m.kind = kind && m.src = src && m.line = line) s.lattice }

/-- The message in flight of a kind from a source for a line. -/
def State.inFlight (s : State) (kind : String) (src line : Nat) : Option LMsg :=
  s.lattice.find? fun m => m.kind = kind && m.src = src && m.line = line

/-- The node of a home in messages. -/
def homeNode (line : Nat) : Nat := 256 + homeDie (128 * line)

/-- The occupancy of a core's write-back buffer raises its peak (R227). -/
def State.wbPeak (s : State) (k : Nat) : State := s.peak 1 (oWbBufferPeak k) (s.core k).wbb.length

/-- A line leaves an L1 (R221): a modified one through the write-back buffer with WB and WBDAT, another with EVN. None while
the buffer is full. -/
def State.l1Evict (s : State) (inst : Bool) (k : Nat) (l : L1Line) : Option State :=
  let s' := s.l1Drop inst k l.line
  if l.dirty ≠ 0 then
    let c := s'.core k
    if 16 ≤ c.wbb.length then none
    else
      let m := l.dirty + 16 * l.poison
      let s' := (s'.setCore k { c with wbb := c.wbb ++ [(l.line, m, l.data)] }).wbPeak k
      some (((s'.post "WB" k (homeNode l.line) l.line m 0).post "WBDAT" k (homeNode l.line) l.line m l.data).count k 3 3 1)
  else
    let c := s'.core k
    some ((s'.setCore k { c with evns := c.evns ++ [l.line] }).post "EVN" k (homeNode l.line) l.line 0 (if inst then 1 else 0))

/-- Room for a line in an L1's set: the lowest free way, or that of the least recent line, which is evicted (R205). A
streaming line's filler asks the same way. None while the victim cannot leave. -/
def State.l1Room (s : State) (inst : Bool) (k line : Nat) : Option (State × Nat) :=
  let ls := s.l1Set inst k line
  match freeWay (List.range 8) (ls.map fun x => x.way) with
  | some w => some (s, w)
  | none =>
    match ls.getLast? with
    | none => some (s, 0)
    | some o => (s.l1Evict inst k o).map fun t => (t, o.way)

/-- Whether an L1 allocates: its status is ENABLED (R224, R227). -/
def State.l1On (s : State) (inst : Bool) (k : Nat) : Bool :=
  s.ctr (if inst then oL1iStatus k else oL1dStatus k) = 0

/-! ### Duplicate tags (R212) -/

/-- The duplicate tags of a line. -/
def State.tags (s : State) (line : Nat) : List DupTag := Tbl.get [] s.dup line
/-- The same replaced; a line that no L1 holds is not listed. -/
def State.setTags (s : State) (line : Nat) (l : List DupTag) : State :=
  { s with dup := if l.isEmpty then Tbl.erase s.dup line else Tbl.set s.dup line l }
/-- A core's tag cleared. -/
def State.clearTag (s : State) (inst : Bool) (k line : Nat) : State :=
  s.setTags line ((s.tags line).filter fun t => !(t.core = k && t.inst = inst))
/-- A core's tag set. -/
def State.putTag (s : State) (t : DupTag) (line : Nat) : State :=
  (s.clearTag t.inst t.core line).setTags line ((s.clearTag t.inst t.core line).tags line ++ [t])
/-- A core's tag brought to the sectors that its L1 holds: it is an exact copy. -/
def State.mirrorTag (s : State) (inst : Bool) (k line : Nat) : State :=
  match s.l1Find inst k line with
  | none => s
  | some l => s.setTags line ((s.tags line).map fun t => if t.core = k && t.inst = inst then { t with valid := l.valid } else t)
/-- The core that owns a line, if any. -/
def State.ownerOf (s : State) (line : Nat) : Option Nat := ((s.tags line).find? fun t => t.owned).map fun t => t.core

/-- The 128-byte sectors that `n` bytes from `pa` touch. -/
def sectorsOf (pa n : Nat) : List Nat :=
  if n = 0 then [] else (List.range ((pa + n - 1) / 128 - pa / 128 + 1)).map fun i => 128 * (pa / 128 + i)

/-- The 32-byte words that `n` bytes from `pa` touch, each with the first byte and the count within it. -/
def wordsOf (pa n : Nat) : List (Nat × Nat × Nat) :=
  if n = 0 then []
  else (List.range ((pa + n - 1) / 32 - pa / 32 + 1)).map fun i =>
    let w := 32 * (pa / 32 + i)
    let a := max w pa
    let b := min (w + 32) (pa + n)
    (w, a - w, b - a)

/-- `n` bytes from `pa` written at the home, each sector looked up once. -/
def State.dcStore (s : State) (p pa n v : Nat) : State :=
  let s := (sectorsOf pa n).foldl (fun (s : State) q => s.dcCount p q) s
  (wordsOf pa n).foldl (fun (s : State) w => s.dcPut p w.1 w.2.1 w.2.2 (v / 2 ^ (8 * (w.1 + w.2.1 - pa))) false) s

/-- The bytes over die-to-die edges (R423). -/
def State.edge (s : State) (from_ to_ n : Nat) : State := if from_ = to_ then s else s.bump 8 oLatticeBytes n

/-! ### Token buckets (R238 to R240) -/

/-- The number of a partition's bucket at slice `n` of the module. -/
def sliceBucket (n p : Nat) : Nat := 16 * n + p
/-- The number of a partition's lattice bucket on a die. -/
def latticeBucket (d p : Nat) : Nat := 1000 + 16 * d + p
/-- The partition of a bucket. -/
def bucketPart (b : Nat) : Nat := if b < 1000 then b % 16 else (b - 1000) % 16

/-- The rate of a bucket in bytes a ns; 0 disables it (R238, R248). -/
def State.bucketRate (s : State) (b : Nat) : Nat :=
  s.objD 0 (if b < 1000 then oRateSlice (bucketPart b) else oRateLattice (bucketPart b))

/-- The depth of a bucket (R248). -/
def State.bucketBurst (s : State) (b : Nat) : Nat :=
  s.objD 65536 (if b < 1000 then oBurstSlice (bucketPart b) else oBurstLattice (bucketPart b))

/-- The count of a bucket now (R238). -/
def State.bucketLevel (s : State) (b : Nat) : Int :=
  min (s.bucketBurst b : Int) (Tbl.get 0 s.buckets b + ((s.bucketRate b * (s.now - Tbl.get 0 s.bucketAt b) : Nat) : Int))

/-- Bytes taken from a bucket, at least 32, not below -2^16; a disabled bucket counts nothing (R238). -/
def State.bucketTake (s : State) (b n : Nat) : State :=
  if s.bucketRate b = 0 then s
  else
    { s with buckets := Tbl.set s.buckets b (max (-65536) (s.bucketLevel b - (max 32 n : Nat)))
             bucketAt := Tbl.set s.bucketAt b s.now }

/-- The counts of a partition's buckets brought up to date, before a WRITE changes a RATE or a BURST of them (R238). -/
def State.bucketSettle (s : State) (p : Nat) : State :=
  let bs := ((List.range 48).map fun n => sliceBucket n p) ++ (List.range 8).map fun d => latticeBucket d p
  { s with buckets := bs.foldl (fun t b => Tbl.set t b (s.bucketLevel b)) s.buckets
           bucketAt := bs.foldl (fun t b => Tbl.set t b s.now) s.bucketAt }

/-- The buckets that `n` bytes from `pa` pass: its slice's, and the lattice's where they leave a die (R238, R239). -/
def State.bucketsOf (s : State) (r : Agent) (pa from_ to_ : Nat) : List Nat :=
  let p := s.linePart pa (s.agentPart r)
  if p < 16 then sliceBucket (s.sliceNo pa) p :: (if from_ = to_ then [] else [latticeBucket from_ p]) else []

/-- Bytes that a command's requests moved, to its account and its partition's (R325, R326): `f` says where in the command,
`key` which object of the partition. -/
def State.account (s : State) (r : Agent) (key : Nat → Nat) (f : Cmd → Cmd) (n : Nat) : State :=
  let p := s.agentPart r
  let s := if p < 16 then s.bump 8 (key p) n else s
  let on (ring : Nat) (pick : Cmd → Bool) : State :=
    let x := Tbl.get Ring.reset s.rings ring
    { s with rings := Tbl.set s.rings ring { x with accepted := x.accepted.map fun (c : Cmd) => if pick c then f c else c } }
  let core (k : Nat) : State :=
    match (Tbl.get CoreU.reset s.cores k).shard with
    | some h => on h.ring fun c => c.aseq = h.aseq
    | none => s
  match r with
  | .core k => core k
  | .mover k _ => core k
  | .copyEngine e =>
    let x := Tbl.get Ring.reset s.rings (65536 * 6 + 96 + e)
    (match x.accepted.find? fun c => c.op = 3 && c.begun && c.ended.isNone with
      | some c => on (65536 * 6 + 96 + e) fun d => d.aseq = c.aseq
      | none => s)
  | _ => s

/-- The data bytes of a request to a local octant, or over a host port (R326). -/
def State.accountAt (s : State) (r : Agent) (pa n : Nat) : State :=
  if pa < 8 * octantBytes then s.account r oMemBytes (fun c => { c with memBytes := c.memBytes + n }) n
  else s.account r oHostBytes (fun c => { c with hostBytes := c.hostBytes + n }) n

/-- The bytes of a message that waits for no bucket counted against its buckets (R215, R239), and to its account (R326). -/
def State.charge (s : State) (r : Agent) (pa from_ to_ n : Nat) : State :=
  ((s.bucketsOf r pa from_ to_).foldl (fun s b => s.bucketTake b n) s).accountAt r pa n

/-! ### Whole transactions of a home (log entry 9) -/

/-- Dirty sectors of an L1 line merged into the die cache, where they are dirty with respect to memory (R217). -/
def State.mergeSectors (s : State) (p line mask data poison : Nat) : State :=
  let s := if mask % 16 = 0 then s else s.dcCount p (128 * line)
  (bitsOf 4 mask).foldl (fun s i => s.dcPut p (128 * line + 32 * i) 0 32 (lane 256 i data) (poison.testBit i)) s

/-- A core's write-back of a line taken in from its buffer: merged, counted against its buckets, acknowledged, and its messages no longer in
flight (R220 case 2, R239). -/
def State.takeWb (s : State) (p k line : Nat) : State :=
  match (s.core k).wbb.find? fun w => w.1 = line with
  | none => s
  | some (_, mask, data) =>
    let n := 32 * popcount 4 mask
    let s := (s.mergeSectors p line (mask % 16) data (mask / 16)).edge (k / 12) (homeDie (128 * line)) n
    let s := s.charge (.core k) (128 * line) (k / 12) (homeDie (128 * line)) n
    let s := s.setCore k { s.core k with wbb := dropFirst (fun w => w.1 = line) (s.core k).wbb }
    (s.arrive "WB" k line).arrive "WBDAT" k line

/-- Write-backs whose WB has reached the home and whose data have not taken in: the home serves nothing older (R215). -/
def State.takeLate (s : State) (p line : Nat) : State :=
  (s.lattice.filter fun m => m.kind = "WBDAT" && m.line = line && (s.inFlight "WB" m.src line).isNone).foldl (fun s m => s.takeWb p m.src line) s

/-- Whether a message is an EVN of a core's data or instruction cache for a line. -/
def LMsg.isEvn (m : LMsg) (inst : Bool) (k line : Nat) : Bool :=
  m.kind = "EVN" && m.src = k && m.line = line && m.data = if inst then 1 else 0

/-- An EVN whose eviction its home has learnt of otherwise: it is acknowledged when it arrives, and else ignored (R220 case 3). -/
def State.voidEvn (s : State) (inst : Bool) (k line : Nat) : State :=
  { s with lattice := s.lattice.map fun (m : LMsg) => if m.isEvn inst k line then { m with here := true } else m }

/-- A snoop of a core that does not hold a line in its L1: WB-PENDING with its write-back, or NOT-PRESENT (R217, R220 cases 2 and 3). -/
def State.snoopAway (s : State) (p k line : Nat) : State :=
  if (s.core k).wbb.any fun w => w.1 = line then (s.bump 8 oWbPendingRsp 1).takeWb p k line else s.voidEvn false k line

/-- SNS to the owner of a line and its answer (R217, R219): the owner's dirty sectors merge and it keeps a shared copy. -/
def State.snoopShare (s : State) (p line : Nat) : State :=
  let s := s.takeLate p line
  match s.ownerOf line with
  | none => s
  | some k =>
    let s := s.bump 8 oSnoopsSent 1
    match s.l1Find false k line with
    | some l =>
      let s := s.mergeSectors p line l.dirty l.data l.poison
      let s := s.l1Update false k { l with st := 1, dirty := 0 } false
      s.putTag { core := k, inst := false, owned := false, valid := l.valid } line
    | none => (s.snoopAway p k line).clearTag false k line

/-- SNI to every L1 that holds a line but core `skip`'s, and their answers (R217, R218). -/
def State.snoopInv (s : State) (p line : Nat) (skip : Option Nat) : State :=
  let s := s.takeLate p line
  ((s.tags line).filter fun t => skip ≠ some t.core).foldl (fun s t =>
    let s := s.bump 8 oSnoopsSent 1
    let s := match s.l1Find t.inst t.core line with
      | some l => (s.mergeSectors p line l.dirty l.data l.poison).l1Drop t.inst t.core line
      | none => if t.inst then s.voidEvn true t.core line else s.snoopAway p t.core line
    s.clearTag t.inst t.core line) s

/-- The open transaction of a line. -/
def State.txOf (s : State) (line : Nat) : Option Tx := s.tx.find? fun t => t.line = line

/-- Whether a fill of an address for partition `p` waits for space (R222): every way that it may use is taken, and neither the
least recent line can leave nor an entry of a full victim cache be freed. A line that is recalled frees its own entry. -/
def State.fillStuck (s : State) (p pa : Nat) : Bool :=
  let n := s.sliceNo pa
  let ws := s.fillWays n p
  let set := Tbl.get [] s.dc (s.dcKey pa)
  let s' := if (s.victimOf pa).isSome then s.victimDrop pa else s
  let stays (l : DcLine) : Bool := (s'.dcEvict n l).isNone
  (s.dcFind p pa).isNone && (freeWay ws (set.map fun x => x.way)).isNone && ((set.reverse.find? fun x => ws.contains x.way).any stays)

/-- Whether an address's sector can be served without its channel: it is valid in the slice or in the victim cache. -/
def State.cached (s : State) (p pa : Nat) : Bool :=
  s.dcHit p pa || (s.victimOf pa).any fun l => l.valid.testBit (pa / 128 % 4)

/-- Whether writes to a line wait at the controller (R222, R241): nothing of it may be held in its slice, and its channel accepts none. -/
def State.writesWait (s : State) (line : Nat) : Bool :=
  match s.place (128 * line) with
  | .chan c _ o => (s.fillWays (s.sliceNo (128 * line)) o).isEmpty && !s.chanAccepts c
  | _ => false

/-- Whether a home cannot take a line's next request now: a transaction is open on it, it is locked, its channel takes no access and the slice
does not hold it, or its fill waits for space (R194, R213, R222, R237, R247). -/
def State.lineBusy (s : State) (line : Nat) : Bool :=
  (s.txOf line).isSome || s.hlocks.any (fun h => h.line = line / 4) ||
    match s.place (128 * line) with
    | .chan c _ o => (s.chanShut c o && !s.cached o (128 * line)) || s.fillStuck o (128 * line)
    | _ => false

/-- Whether a home cannot take an access to some line of a range now. -/
def State.rangeBusy (s : State) (pa n : Nat) : Bool := (sectorsOf pa n).any fun q => s.lineBusy (q / 128)

/-- Whether a home cannot take a write to some line of a range now. -/
def State.rangeShut (s : State) (pa n : Nat) : Bool := (sectorsOf pa n).any fun q => s.lineBusy (q / 128) || s.writesWait (q / 128)

/-! ### Reads and writes without a cache (R218, R219) -/

/-- A read at the home by an agent without a cache (R219): the bytes from `pa`, low byte first, and whether any word read was
poisoned. -/
def State.agentRead (s : State) (r : Agent) (pa n : Nat) : State × Nat × Bool :=
  let p := s.agentPart r
  let z := (sectorsOf pa n).foldl (fun (a : State × List Nat × Bool) q =>
    let t := ((a.1.bump 8 oHomeRequests 1).snoopShare p (q / 128)).dcSector p q
    let ws := (wordsOf pa n).filter fun w => w.1 / 128 = q / 128
    let bad := ws.any fun w => t.2.2.testBit (w.1 / 32 % 4)
    let n := ws.foldl (fun m w => m + w.2.2) 0
    ((t.1.edge (homeDie q) (agentDie r) n).accountAt r q n, a.2.1 ++ [t.2.1], a.2.2 || bad)) (s, [], false)
  (z.1, packLanes 1024 z.2.1 / 2 ^ (8 * (pa % 128)) % 2 ^ (8 * n), z.2.2)

/-- Bytes of a 128-byte line written over an L1's copy. -/
def L1Line.overwrite (l : L1Line) (o n v : Nat) : L1Line := { l with data := spliceBytes l.data o n v }

/-- A core's own copies of a line after its uncacheable store: it updates them itself (R218). -/
def State.ownCopies (s : State) (k line o n v : Nat) : State :=
  let upd (s : State) (inst : Bool) : State :=
    match s.l1Find inst k line with
    | none => s
    | some l => s.l1Update inst k (l.overwrite o n v) false
  upd (upd s false) true

/-- A write at the home by an agent without a cache (R218). A core's own uncacheable store leaves its copies in place, and the
core updates them itself. -/
def State.agentWrite (s : State) (r : Agent) (pa n v : Nat) : State :=
  let p := s.agentPart r
  let skip := match r with | .core k => some k | _ => none
  let s := (sectorsOf pa n).foldl (fun s q => (s.bump 8 oHomeRequests 1).snoopInv p (q / 128) skip) s
  let s := s.dcStore p pa n v
  (wordsOf pa n).foldl (fun s w =>
    let s := (s.edge (agentDie r) (homeDie w.1) w.2.2).accountAt r w.1 w.2.2
    match skip with
    | none => s
    | some k => s.ownCopies k (w.1 / 128) (w.1 % 128 + w.2.1) w.2.2 (v / 2 ^ (8 * (w.1 + w.2.1 - pa)))) s

/-- The line of a slice that holds an address, whoever asks: a host window's may stand in any way. -/
def State.dcSee (s : State) (pa : Nat) : Option DcLine :=
  match s.place pa with
  | .chan _ _ o => s.dcFind o pa
  | _ => (Tbl.get [] s.dc (s.dcKey pa)).find? fun l => l.line = pa / 512

/-- What the coherent memory holds at a 32-byte word: the owner's copy, dirty data on their way to the home, the die cache, the victim
cache, or memory. -/
def State.cohWord (s : State) (pa : Nat) : Nat × Bool :=
  let line := pa / 128
  let i := pa / 32 % 4
  let own := (s.ownerOf line).bind fun k => (s.l1Find false k line).filter fun l => l.valid.testBit i
  let way := s.lattice.find? fun m => (m.kind = "SNPDAT" || m.kind = "WBDAT") && m.line = line && m.mask.testBit i
  let dc := (s.dcSee pa).filter fun l => l.valid.testBit (line % 4)
  let vi := (s.victimOf pa).filter fun l => l.valid.testBit (line % 4)
  match own, way, dc, vi with
  | some l, _, _, _ => (lane 256 i l.data, l.poison.testBit i)
  | none, some m, _, _ => (lane 256 i m.data, m.mask.testBit (4 + i))
  | none, none, some l, _ => (lane 256 (pa / 32 % 16) l.data, l.poison.testBit (pa / 32 % 16))
  | none, none, none, some l => (lane 256 (pa / 32 % 16) l.data, l.poison.testBit (pa / 32 % 16))
  | none, none, none, none => s.memWord pa

/-- The coherent memory's bytes from `pa` and whether any word was poisoned. -/
def State.cohRead (s : State) (pa n : Nat) : Nat × Bool :=
  let ws := (wordsOf pa n).map fun w => s.cohWord w.1
  (packLanes 256 (ws.map fun w => w.1) / 2 ^ (8 * (pa % 32)) % 2 ^ (8 * n), ws.any fun w => w.2)

end Sys2Proof.Machine
end

