-- ==== Sys2Proof/Machine/Waiters.lean ====
section
/-! DEFINITION. Handles (R269, R271), contexts and table entries (R250 to R255), rings as they are held, and the waiters on signal words and what an
addition does for them (R329 to R332, R336). -/

namespace Sys2Proof.Machine

/-! ### Handles (R269, R271) -/

/-- The generation of a slot of a kind: 1 in a zeroed table (R272). -/
def State.gen (s : State) (kind slot : Nat) : Nat := Tbl.get 1 s.gens (65536 * kind + slot)

/-- The handle of a slot in its present generation (R269). -/
def State.handle (s : State) (kind slot : Nat) : Nat := kind * 2 ^ 28 + s.gen kind slot * 2 ^ 16 + slot

/-- The next generation: 4,095 is followed by 1 (R271). -/
def State.nextGen (s : State) (kind slot : Nat) : State :=
  { s with gens := Tbl.set s.gens (65536 * kind + slot) (if s.gen kind slot = 4095 then 1 else s.gen kind slot + 1) }

/-- What a handle names: its kind and slot while its generation is the slot's. -/
def hKind (h : Nat) : Nat := bits 31 28 h
def hGen (h : Nat) : Nat := bits 27 16 h
def hSlot (h : Nat) : Nat := bits 15 0 h

/-- Whether a handle is not stale (R271). -/
def State.fresh (s : State) (h : Nat) : Bool := h ≠ 0 && hGen h = s.gen (hKind h) (hSlot h)

/-- A context by slot. -/
def State.ctx (s : State) (slot : Nat) : Ctx := Tbl.get Ctx.reset s.ctxs slot
/-- The same replaced. -/
def State.setCtx (s : State) (slot : Nat) (c : Ctx) : State := { s with ctxs := Tbl.set s.ctxs slot c }

/-- The live context of a handle. -/
def State.ctxOf (s : State) (h : Nat) : Option Ctx :=
  if hKind h = 1 && s.fresh h && (s.ctx (hSlot h)).live then some (s.ctx (hSlot h)) else none

/-! ### Table entries (R252, R253) -/

/-- The page-size shift of a leaf: 16, 26 or 36 (R251). -/
def pageShift (size : Nat) : Nat := 6 + 10 * size

/-- Whether a valid entry found at a level is malformed (R253). -/
def malformed (level e : Nat) : Bool :=
  let size := bits 62 61 e
  let tgt := bits 60 59 e
  let frame := bits 51 16 e
  if size = 0 then
    level == 0 || tgt ≠ 0 || e.testBit 58 || bits 57 52 e ≠ 0 || bits 12 0 e ≠ 0 ||
      (let n := bits 51 13 e * 2 ^ 13
       !(n < 8 * octantBytes || (0x40000000000 ≤ n && n < 0xC0000000000)))
  else
    size ≠ level + 1 || tgt = 3 || bits 15 0 e ≠ 0 ||
      (if tgt = 2 then e.testBit 58 || bits 41 16 e % 2 ^ (pageShift size - 16) ≠ 0
       else bits 57 52 e ≠ 0 || frame % 2 ^ (pageShift size - 16) ≠ 0 ||
         (let n := frame * 2 ^ 16
          if tgt = 0 then 8 * octantBytes ≤ n else !(0x40000000000 ≤ n && n < 0xC0000000000)))

/-- The physical target of an address through a leaf (R255): the target code, and the address. A peer's is its vertex and the
address within its octants. -/
def leafTarget (size e va : Nat) : Nat × Nat × Nat :=
  let off := va % 2 ^ pageShift size
  let t := bits 60 59 e
  if t = 2 then (2, bits 57 42 e, bits 41 16 e * 2 ^ 16 + off) else (t, if e.testBit 58 then 1 else 0, bits 51 16 e * 2 ^ 16 + off)

/-- A translated access: local or host memory with its physical address and cacheability, or a peer's. -/
inductive Target where
  | mem (pa : Nat) (cache : Bool)
  | peer (vertex addr : Nat)
  deriving DecidableEq, Repr

/-- The target of an address through a leaf. -/
def targetOf (size e va : Nat) : Target :=
  let t := leafTarget size e va
  if t.1 = 2 then .peer t.2.1 t.2.2 else .mem t.2.2 (t.2.1 = 1)

/-! ### Sequencers, rings and their commands as they are held -/

/-- The sequencer of a core. -/
def State.seq (s : State) (k : Nat) : Seq := Tbl.get Seq.reset s.seqs k
/-- The same replaced. -/
def State.setSeq (s : State) (k : Nat) (q : Seq) : State := { s with seqs := Tbl.set s.seqs k q }

/-- The key of the ring of copy engine `e`, and of core `k` (R270). -/
def kCopyRing (e : Nat) : Nat := 65536 * 6 + 96 + e
/-- The ring of a key. -/
def State.ring (s : State) (key : Nat) : Ring := Tbl.get Ring.reset s.rings key
/-- The same replaced. -/
def State.setRing (s : State) (key : Nat) (r : Ring) : State := { s with rings := Tbl.set s.rings key r }
/-- One accepted command of a ring changed. -/
def State.setCmd (s : State) (key aseq : Nat) (f : Cmd → Cmd) : State :=
  let r := s.ring key
  s.setRing key { r with accepted := r.accepted.map fun (c : Cmd) => if c.aseq = aseq then f c else c }

/-- An MSI-X message; a lost port's goes through the other, as its physical function (R314). -/
def State.msix (s : State) (fn v : Nat) : State :=
  let lost (p : Nat) : Bool := Tbl.get false s.hostLost p
  s.send (.msix (if lost (fn / 16) then 16 * (1 - fn / 16) else fn) v)

/-! ### A word's place, without a translation cache -/

/-- A walk that only reads (R251): the leaf's size and entry, if there is one. -/
def State.peekWalk (s : State) (va table : Nat) : Nat → Option (Nat × Nat)
  | 0 => none
  | l + 1 =>
    let x := s.cohRead (table + 8 * (va / 2 ^ (16 + 10 * l) % 1024)) 8
    let e := x.1
    if x.2 || !e.testBit 63 || malformed l e then none
    else if bits 62 61 e = 0 then s.peekWalk va (bits 51 13 e * 2 ^ 13) l
    else some (bits 62 61 e, e)

/-- Where a context's virtual address leads now. -/
def State.xlate (s : State) (h va : Nat) : Option Target :=
  (s.ctxOf h).bind fun c => (s.peekWalk va c.root 4).map fun e => targetOf e.1 e.2 va

/-- The physical address of a signal word that is not on a peer (R329). -/
def State.sigPa (s : State) (h va : Nat) : Option Nat :=
  match s.xlate h va with
  | some (.mem pa _) => some pa
  | _ => none

/-- Whether a signal word lies on a peer vertex (R333). -/
def State.sigPeer (s : State) (h va : Nat) : Bool :=
  match s.xlate h va with
  | some (.peer _ _) => true
  | _ => false

/-- What a signal holds. -/
def State.sigValue (s : State) (h va : Nat) : Option Nat := (s.sigPa h va).map fun pa => (s.cohRead pa 8).1

/-- Whether a signal has reached a value (R329). -/
def State.sigReached (s : State) (h va v : Nat) : Bool :=
  match s.sigValue h va with
  | some x => v ≤ x
  | none => false

/-! ### Waiters (R331, R332) -/

/-- Whether a watch is on the word at a physical address and its value is reached. -/
def State.watchReached (s : State) (w : Watch) : Bool := s.sigReached w.ctx w.va w.value

/-- A waiter released (R332). -/
def State.release (s : State) (w : Waiter) : State :=
  match w with
  | .seq k => s.setSeq k { s.seq k with released := true }
  | .group k g =>
    { s with groups := Tbl.modify Group.reset s.groups (64 * k + g) fun x =>
        match x.wait with
        | .sig _ _ => { x with wait := .none }
        | _ => x }
  | .cmd r a => s.setCmd r a fun c => { c with reached := true }

/-- The waiters that a test picks are examined: those whose word holds their value are released and leave the table. -/
def State.examine (s : State) (f : Watch → Bool) : State :=
  let go := s.watch.filter fun w => f w && s.watchReached w
  let s' := { s with watch := s.watch.filter fun w => !(f w && s.watchReached w) }
  go.foldl (fun s w => s.release w.who) s'

/-- An addition to the word at a physical address has been performed (R330, R331, R336): it is counted, waiters with an entry on the word are
released, and the vectors of the signals registered on it are raised. -/
def State.added (s : State) (pa : Nat) : State :=
  let s := (s.bump 8 oSigAdds 1).examine fun w => w.entry && s.sigPa w.ctx w.va = some pa
  s.sigs.foldl (fun s e => if e.2.live && e.2.msix && s.sigPa e.2.ctx e.2.va = some pa then s.msix e.2.fn e.2.vector else s) s

/-- The host function that created the context on whose behalf a requester asks: its requester ID is that of the requests (R299). -/
def State.agentFn (s : State) (r : Agent) : Nat :=
  let of (h : Nat) : Nat := ((s.ctxOf h).map fun c => c.fn).getD 0
  match r with
  | .core k => of (((s.core k).shard.map fun h => h.ctx).getD 0)
  | .mover k _ => of (((s.core k).shard.map fun h => h.ctx).getD 0)
  | .copyEngine e => of ((((s.ring (kCopyRing e)).accepted.find? fun c => c.op = 3 && c.begun && c.ended.isNone).map fun c => c.ctx).getD 0)
  | _ => 0

end Sys2Proof.Machine
end

