-- ==== Sys2Proof/Machine/Coherence.lean ====
section
/-! DEFINITION. The messages of the coherence protocol at a home and at an L1 (R212 to R221): one command for each arrival.
A home opens one transaction a line, sends its snoops, and answers when every awaited answer has come. -/

namespace Sys2Proof.Machine

/-! ### Names of the ends of a message -/

/-- The node number of a requester: a core is its number, a home 256 + die. -/
def agentNode (r : Agent) : Nat :=
  match r with
  | .core k => k
  | .copyEngine e => 512 + e
  | .link l => 600 + l
  | .host p => 700 + p
  | .mover k g => 2048 + 8 * k + g

/-- The first message in flight of a kind to a node for a line. -/
def State.bound (s : State) (kind : String) (dst line : Nat) : Option LMsg :=
  s.lattice.find? fun m => m.kind = kind && m.dst = dst && m.line = line

/-- The same taken out as it arrives (log entry 8). -/
def State.arriveTo (s : State) (kind : String) (dst line : Nat) : State :=
  { s with lattice := dropFirst (fun m => m.kind = kind && m.dst = dst && m.line = line) s.lattice }

/-! ### The operations performed at a home (R191, R192) -/

/-- An addition of a reduction: roundTiesToEven, subnormals kept, the canonical NaN, no flags (R192). -/
def redAdd (f a b : Nat) : Nat :=
  let v := (fAdd f .tiesEven a b).1
  if (ieee f).isNan v then canonNan f else v

/-- A 128-byte sector with the elements of the active lanes added (R192). -/
def vecAdd (f per old b active : Nat) : Nat :=
  let w := fmtBits f
  packLanes w ((List.range (32 * per)).map fun i =>
    if active.testBit (i / per) then redAdd f (lane w i old) (lane w i b) else lane w i old)

/-- The value that an operation stores over `old`, `w` bytes wide. For a reduction into a sector `c` holds the active lanes. -/
def atomNew (op : AtomOp) (w old b c : Nat) : Nat :=
  let m := 2 ^ (8 * w)
  match op with
  | .add => (old + b) % m
  | .minS => if sext (8 * w) old ≤ sext (8 * w) b then old else b % m
  | .minU => min old (b % m)
  | .maxS => if sext (8 * w) b ≤ sext (8 * w) old then old else b % m
  | .maxU => max old (b % m)
  | .and => old &&& (b % m)
  | .or => old ||| (b % m)
  | .xor => old ^^^ (b % m)
  | .swap => b % m
  | .cas => if old = b % m then c % m else old
  | .redB32 => vecAdd 6 1 old b c
  | .redW16 => vecAdd 4 2 old b c
  | .redB16 => vecAdd 5 2 old b c
  | .lock => old

/-- The bytes that an operation covers: a reduction's is the whole sector. -/
def atomBytes (op : AtomOp) (w : Nat) : Nat :=
  match op with
  | .redB32 | .redW16 | .redB16 => 128
  | _ => w

/-- Whether PCI Express has an AtomicOp for an operation (R193). -/
def atomOnHost (op : AtomOp) : Bool := op = .add || op = .swap || op = .cas

/-- A sector leaves the die cache and the victim cache of its home, what is dirty of it written to memory. -/
def State.dcExpel (s : State) (p pa : Nat) : State :=
  let q := pa / 128 % 4
  let s := match s.victimOf pa with
    | some l => (s.victimDrop pa).dcClean l
    | none => s
  match s.dcFind p pa with
  | none => s
  | some l =>
    let s := s.dcClean { l with dirty := l.dirty &&& 2 ^ q }
    let l' := { l with valid := clrBit l.valid q, dirty := clrBit l.dirty q, poison := putLane 4 q l.poison 0 }
    { s with dc := Tbl.modify [] s.dc (s.dcKey pa) fun ls => ls.map fun x => if x.way = l.way then l' else x }

/-- An operation performed at its home after the L1 copies are gone (R191 to R193): the state, the old value, and whether it
was poisoned. On a host window it is sent as a PCI Express AtomicOp, and performed at the host. An addition to a 64-bit word is one to a signal
(R330). `fn` is the host function whose requester ID it carries (R299). -/
def State.atomFor (s : State) (r : Agent) (fn : Nat) (op : AtomOp) (pa w b c : Nat) : State × Nat × Bool :=
  let n := atomBytes op w
  let p := s.agentPart r
  let signal (t : State) : State := if op = .add && n = 8 then t.added pa else t
  match s.place pa with
  | .host port k =>
    let t := s.dcExpel p pa
    let old := Memory.num t.host k n
    (signal ({ t with host := Memory.putNum t.host k n (atomNew op n old b c) }.send (.pcieAtomic port fn (k % 2 ^ 64) op n b c)), old, false)
  | _ =>
    let q := s.dcSector p pa
    let old := q.2.1 / 2 ^ (8 * (pa % 128)) % 2 ^ (8 * n)
    let ws := wordsOf pa n
    let bad := ws.any fun x => q.2.2.testBit (x.1 / 32 % 4)
    let new := atomNew op n old b c
    (signal (ws.foldl (fun s x => s.dcPut p x.1 x.2.1 x.2.2 (new / 2 ^ (8 * (x.1 + x.2.1 - pa))) bad) q.1), old, bad)

/-- The same for the context on whose behalf its requester asks. -/
def State.atomAt (s : State) (r : Agent) (op : AtomOp) (pa w b c : Nat) : State × Nat × Bool := s.atomFor r (s.agentFn r) op pa w b c

/-- A whole operation by an agent for a context of a function, its snoops with it (log entry 9). -/
def State.agentAtomFor (s : State) (r : Agent) (fn : Nat) (op : AtomOp) (pa w b c : Nat) : State × Nat × Bool :=
  let n := atomBytes op w
  ((((s.bump 8 oHomeRequests 1).snoopInv (s.agentPart r) (pa / 128) none).edge (agentDie r) (homeDie pa) n).accountAt r pa n).atomFor r fn op pa w b c

/-- The same for the context on whose behalf the agent asks. -/
def State.agentAtom (s : State) (r : Agent) (op : AtomOp) (pa w b c : Nat) : State × Nat × Bool := s.agentAtomFor r (s.agentFn r) op pa w b c

/-! ### Transactions of a home (R213) -/

/-- The requester of a request. -/
def HomeReq.agent : HomeReq → Agent
  | .rds r _ _ _ => r
  | .rdu k _ _ => .core k
  | .upg k _ => .core k
  | .iwr r _ _ _ => r
  | .atm r _ => r
  | .lock k _ => .core k
  | .unit r _ _ _ => r

/-- The data bytes of a request. -/
def HomeReq.bytes : HomeReq → Nat
  | .rds _ m _ _ => 32 * popcount 4 m
  | .rdu _ m nodata => if nodata then 0 else 32 * popcount 4 m
  | .upg _ _ => 0
  | .iwr _ _ m d => popcount d.length m
  | .atm _ m => atomBytes m.op m.width
  | .lock _ _ => 0
  | .unit _ _ n _ => n

/-- Whether a request's data go from the requester to the home. -/
def HomeReq.writes : HomeReq → Bool
  | .iwr _ _ _ _ => true
  | .atm _ _ => true
  | .unit _ _ _ w => w
  | _ => false

/-- Snoops sent to the holders of a line, each awaited (R217). -/
def State.snoops (s : State) (kind : String) (line : Nat) (ks : List Nat) : State :=
  ks.foldl (fun s k => (s.bump 8 oSnoopsSent 1).post kind (homeNode line) k line 0 0) s

/-- The cores that hold a line, without one of them. -/
def State.holders (s : State) (line : Nat) (skip : Option Nat) : List Nat :=
  (List.range 96).filter fun k => skip ≠ some k && (s.tags line).any fun t => t.core = k

/-- The core whose own copy a request leaves alone (R216, R218). -/
def HomeReq.skip : HomeReq → Option Nat
  | .rdu k _ _ => some k
  | .upg k _ => some k
  | .iwr (.core k) _ _ _ => some k
  | _ => none

/-- An upgrade whose core holds no copy any more is served as a read-unique of the sectors it held (R220, case 4). -/
def State.effective (s : State) (line : Nat) (req : HomeReq) : State × HomeReq :=
  match req with
  | .upg k m =>
    if (s.tags line).any fun t => t.core = k && !t.inst then (s, req) else (s.bump 8 oUpgAsRdu 1, .rdu k m false)
  | _ => (s, req)

/-- The cores whose WB for a line has reached the home, and whose data have not (R215). -/
def State.lateWbs (s : State) (line : Nat) : List Nat :=
  (s.lattice.filter fun m => m.kind = "WBDAT" && m.line = line && (s.inFlight "WB" m.src line).isNone).map fun m => m.src

/-- A transaction opened: its snoops go out and its answers are awaited (R216, R218 to R220). An invalidating write whose data
have not come awaits them as well, under number 1,000; the data of a write-back that is on its way are awaited too. -/
def State.openTx (s : State) (line : Nat) (req : HomeReq) : State :=
  let e := (s.bump 8 oHomeRequests 1).effective line req
  let s := e.1
  let req := e.2
  let ks := match req with
    | .rds (.core k) _ false inst =>
      (match s.ownerOf line with | some o => if o = k && !inst then [] else [o] | none => [])
    | .rds _ _ _ _ => (s.ownerOf line).toList
    | _ => s.holders line req.skip
  let kind := match req with | .rds _ _ _ _ => "SNS" | _ => "SNI"
  let more := match req with | .iwr _ _ _ [] => [1000] | _ => []
  let s := s.snoops kind line ks
  { s with tx := s.tx ++ [{ line := line, req := req, await := ks ++ more, wbs := s.lateWbs line, granted := false }] }

/-- The node to which the data of a read without a cache go (R219): a core takes them outside its L1s. -/
def naNode (r : Agent) : Nat :=
  match r with
  | .core k => 4096 + k
  | r => agentNode r

/-- A fill or grant sent: the duplicate tag shows it (R212, R216). A FILL says the sectors, their poison, whether it is exclusive, and for which
cache. -/
def State.grantTo (s : State) (k line mask : Nat) (inst owned data : Bool) (v pz : Nat) : State :=
  let had := ((s.tags line).find? fun t => t.core = k && t.inst = inst).map fun t => t.valid
  let s := s.putTag { core := k, inst := inst, owned := owned, valid := had.getD 0 ||| mask } line
  if data then
    (s.post "FILL" (homeNode line) k line (mask % 16 + 16 * (pz % 16) + (if owned then 256 else 0) + if inst then 512 else 0) v).edge (homeDie (128 * line)) (k / 12) (32 * popcount 4 mask)
  else s.post "GRANT" (homeNode line) k line mask 0

/-- A core's own instruction copy goes when its data cache takes the line unique (R211, R216). -/
def State.dropOwnInst (s : State) (k line : Nat) : State :=
  if (s.tags line).any fun t => t.core = k && t.inst then (s.l1Drop true k line).clearTag true k line else s

/-- The answer of an atomic to its requester (R191, R214): the lane of the group that issued it takes the old value; a reduction, and another
requester, takes a COMP. -/
def State.atomAnswer (s : State) (r : Agent) (m : AtomMsg) (old : Nat) (bad : Bool) : State :=
  let line := m.pa / 128
  match r with
  | .core k =>
    let mine (x : LMsg) : Bool := x.kind = "ATM" && x.src = k && x.here && x.atom = some m
    if !s.lattice.any mine then s
    else
      let s := { s with lattice := dropFirst mine s.lattice }
      if !m.ret then s.post "COMP" (homeNode line) k line 0 0
      else
        let takes (o : LoadOp) : Bool :=
          match o.vals with
          | some vs => !(vs.any fun v => v.1 = m.lane) && o.lanes.contains (m.lane, m.va)
          | none => false
        let put (o : LoadOp) : LoadOp := { o with vals := o.vals.map fun vs => vs ++ [(m.lane, old + if bad then 2 ^ 128 else 0)] }
        let s := { s with groups := Tbl.modify Group.reset s.groups (64 * k + m.group) fun x => { x with loads := changeFirst takes put x.loads } }
        s.post "ATMDAT" (homeNode line) k line (32 * m.group + m.lane) old
  | _ => s.post "COMP" (homeNode line) (agentNode r) line 0 0

/-- The bytes of an invalidating write that its mask names, over what the home holds (R214, R218). -/
def State.maskedStore (s : State) (p pa mask : Nat) (data : List Byte) : State :=
  let n := data.length
  if mask % 2 ^ n = 2 ^ n - 1 then s.dcStore p pa n (leNat data)
  else
    data.zipIdx.foldl (fun (s : State) b =>
      if mask.testBit b.2 then s.dcPut p (32 * ((pa + b.2) / 32)) ((pa + b.2) % 32) 1 b.1.toNat false else s)
      (if mask % 2 ^ n = 0 then s else s.dcCount p pa)

/-- What a transaction does once every answer has come (R216, R218 to R220); the second part says that it ends at once, with
no COMP-ACK to wait for. -/
def State.answerTx (s : State) (t : Tx) : State × Bool :=
  let line := t.line
  let pa := 128 * line
  match t.req with
  | .rds r mask na inst =>
    let p := s.agentPart r
    let q := s.dcSector p pa
    (match r, na with
      | .core k, false =>
        let own := (s.ownerOf line) = some k && !inst
        let others := (s.tags line).any fun t => t.core ≠ k || t.inst ≠ inst
        (q.1.grantTo k line mask inst (own || (!others && !inst)) true q.2.1 q.2.2, false)
      | _, _ => ((q.1.post "FILL" (homeNode line) (naNode r) line (mask % 16 + 16 * (q.2.2 % 16)) q.2.1).edge (homeDie pa) (agentDie r)
          (32 * popcount 4 mask), true))
  | .rdu k mask nodata =>
    let s := s.dropOwnInst k line
    if nodata then (s.grantTo k line mask false true false 0 0, false)
    else
      let q := s.dcSector (s.agentPart (.core k)) pa
      (q.1.grantTo k line mask false true true q.2.1 q.2.2, false)
  | .upg k _ => ((s.dropOwnInst k line).grantTo k line 0 false true false 0 0, false)
  | .iwr r wa bm data =>
    let d := data.take (128 - wa % 128)
    let s := s.maskedStore (s.agentPart r) wa bm d
    let s := match r with
      | .core k => d.zipIdx.foldl (fun (s : State) (b : Byte × Nat) => if bm.testBit b.2 then s.ownCopies k line (wa % 128 + b.2) 1 b.1.toNat else s) s
      | _ => s
    let s := s.edge (agentDie r) (homeDie pa) (popcount d.length bm)
    ((s.arrive "IWR" (agentNode r) line).post "COMP" (homeNode line) (agentNode r) line 0 0, true)
  | .atm r m =>
    let x := s.atomAt r m.op m.pa m.width m.b m.c
    (x.1.atomAnswer r m x.2.1 x.2.2, true)
  | .lock _ _ => (s, true)
  | .unit _ _ _ _ => (s, true)

/-- A transaction whose answers have all come is answered (R213). -/
def State.settle (s : State) (line : Nat) : State :=
  match s.txOf line with
  | none => s
  | some t =>
    if t.granted || !t.await.isEmpty || !t.wbs.isEmpty then s
    else
      let a := s.answerTx t
      if a.2 then { a.1 with tx := a.1.tx.filter fun x => x.line ≠ line }
      else { a.1 with tx := a.1.tx.map fun (x : Tx) => if x.line = line then { x with granted := true } else x }

/-- Whether a request is a LOCK.BEGIN, which asks for a whole die-cache line and is granted by LOCK_ACQUIRED (R194). -/
def HomeReq.isLock : HomeReq → Bool
  | .lock _ _ => true
  | _ => false

/-- Whether a waiting request comes before another for a line (R194, R213). -/
def ahead (w : Nat × HomeReq) (line : Nat) : Bool := w.1 = line || (w.2.isLock && w.1 / 4 = line / 4)

/-- A request at the home: it is served, or waits its turn (R213). One that an agent makes as a whole is admitted, and the agent goes on. -/
def State.serve (s : State) (line : Nat) (req : HomeReq) : State :=
  match req with
  | .unit r pa n _ => { s with admitted := s.admitted ++ [(r, pa, n)] }
  | _ =>
    if req.isLock || s.lineBusy line || (req.writes && s.writesWait line) || s.txq.any (fun w => ahead w line) then { s with txq := s.txq ++ [(line, req)] }
    else (s.openTx line req).settle line

/-- The waiting requests tried again in their order of arrival (R213). -/
def State.serveAll (s : State) : State :=
  s.txq.foldl (fun s w => s.serve w.1 w.2) { s with txq := [] }

/-- A request passes its buckets and reaches the home; one that is not admitted waits at the bucket (R238). -/
def State.pass (s : State) (line : Nat) (req : HomeReq) : List Nat → State
  | [] => s.serve line req
  | b :: r =>
    if s.bucketRate b = 0 then s.pass line req r
    else if 0 < s.bucketLevel b && !s.bucketQ.any (fun w => w.bucket = b) then (s.bucketTake b req.bytes).pass line req r
    else { s with bucketQ := s.bucketQ ++ [{ bucket := b, bytes := req.bytes, since := s.now, line := line, req := req }] }

/-- The buckets of a request. -/
def State.reqBuckets (s : State) (line : Nat) (req : HomeReq) : List Nat :=
  let h := homeDie (128 * line)
  let a := agentDie req.agent
  if req.writes then s.bucketsOf req.agent (128 * line) a h else s.bucketsOf req.agent (128 * line) h a

/-- A request arrives at the home's slice. -/
def State.request (s : State) (line : Nat) (req : HomeReq) : State :=
  (s.accountAt req.agent (128 * line) req.bytes).pass line req (s.reqBuckets line req)

/-- BUCKET_ADMIT (R238 to R240): the longest-waiting request of a bucket whose count is above zero is admitted, and the time it
waited is counted. -/
def State.bucketAdmit (s : State) (b : Nat) : State :=
  match s.bucketQ.find? fun w => w.bucket = b with
  | none => s
  | some w =>
    if s.bucketRate b = 0 || 0 < s.bucketLevel b then
      let s := { s with bucketQ := dropFirst (fun x => x.bucket = b) s.bucketQ }
      let s := (s.bucketTake b w.bytes).bump 8 (oThrottledNs (bucketPart b)) (s.now - w.since)
      let s := match w.req.agent with | .core k => s.count k 5 3 (s.now - w.since) | _ => s
      s.pass w.line w.req ((s.reqBuckets w.line w.req).filter fun x => 1000 ≤ x && b < 1000)
    else s

/-- A request that an agent makes as a whole passes its buckets (R238): whether it may go on now. One that may not waits at the bucket. -/
def State.letIn (s : State) (r : Agent) (pa n : Nat) (write : Bool) : State × Bool :=
  let bs := s.reqBuckets (pa / 128) (.unit r pa n write)
  if n = 0 || s.admitted.contains (r, pa, n) || bs.all (fun b => s.bucketRate b = 0) then (s, true)
  else if s.bucketQ.any fun w => w.req = .unit r pa n write then (s, false)
  else
    let t := s.pass (pa / 128) (.unit r pa n write) bs
    (t, t.admitted.contains (r, pa, n))

/-- An admitted request has been made. -/
def State.admitDone (s : State) (r : Agent) (pa n : Nat) : State := { s with admitted := s.admitted.filter (· ≠ (r, pa, n)) }

/-! ### Arrivals at a home -/

/-- A request by an L1 that does not hold the line shows that an eviction of it is past, whose EVN is still on its way. -/
def State.pastEvn (s : State) (inst : Bool) (k line : Nat) : State :=
  if s.lattice.any fun m => m.isEvn inst k line && !m.here then (s.voidEvn inst k line).clearTag inst k line else s

/-- RDS (R216, R219). -/
def State.rds (s : State) (r : Agent) (line mask : Nat) (na : Bool) : State :=
  let node := agentNode r
  let inst := (s.inFlight "RDSI" node line).isSome
  let s := if inst then s.arrive "RDSI" node line else s.arrive "RDS" node line
  let na := na || (match r with | .core _ => false | _ => true)
  let s := match r with
    | .core k => if na then s else s.pastEvn inst k line
    | _ => s
  s.request line (.rds r mask na inst)

/-- RDU (R216). -/
def State.rdu (s : State) (k line mask : Nat) (nodata : Bool) : State :=
  ((s.arrive "RDU" k line).pastEvn false k line).request line (.rdu k mask nodata)

/-- UPG (R216): the sectors the L1 held come with the message. -/
def State.upg (s : State) (k line : Nat) : State :=
  let m := ((s.inFlight "UPG" k line).map fun m => m.mask).getD 15
  (s.arrive "UPG" k line).request line (.upg k m)

/-- The IWR message of a requester for an address that has not reached its home. -/
def LMsg.isIwr (m : LMsg) (r : Agent) (pa : Nat) : Bool := m.kind = "IWR" && m.src = agentNode r && m.line = pa / 128 && m.mask % 128 = pa % 128

/-- IWR (R218): an invalidating write within one line; without data it awaits WDATA. What a message in flight carries comes with it. -/
def State.iwr (s : State) (r : Agent) (pa mask : Nat) (data : List Byte) : State :=
  match s.lattice.find? fun m => m.isIwr r pa && !m.here with
  | some m =>
    let s := { s with lattice := changeFirst (fun (m : LMsg) => m.isIwr r pa && !m.here) (fun m => { m with here := true }) s.lattice }
    let n := m.mask / 128
    s.request (pa / 128) (.iwr r pa (2 ^ n - 1) (if data.isEmpty then [] else leBytes n m.data))
  | none => s.request (pa / 128) (.iwr r pa mask (data.take (128 - pa % 128)))

/-- WDATA (R218): the data of a write whose transaction awaits them, or of one that still waits its turn. -/
def State.wdata (s : State) (r : Agent) (pa : Nat) (data : List Byte) : State :=
  let d := match s.lattice.find? fun m => m.isIwr r pa && m.here with
    | some m => leBytes (m.mask / 128) m.data
    | none => data.take (128 - pa % 128)
  let give (q : HomeReq) : HomeReq :=
    match q with
    | .iwr r' pa' bm [] => if r' = r && pa' = pa then .iwr r pa bm d else q
    | _ => q
  let s := { s with
    tx := s.tx.map fun (t : Tx) => if give t.req = t.req then t else { t with req := give t.req, await := t.await.filter (· ≠ 1000) }
    txq := s.txq.map fun (w : Nat × HomeReq) => (w.1, give w.2)
    bucketQ := s.bucketQ.map fun (w : BWait) => { w with req := give w.req } }
  (s.settle (pa / 128)).serveAll

/-- An ATM message that has reached its home (R191, R193, R194, R220 case 7): LOCK.BEGIN asks for its line; an atomic or a reduction is served. -/
def State.atomReq (s : State) (r : Agent) (m : AtomMsg) : State :=
  match m.op, r, s.place m.pa with
  | .lock, .core k, _ => s.request (4 * (m.pa / 512)) (.lock k m.group)
  | .lock, _, _ => s
  | op, _, .host _ _ => if atomOnHost op then s.request (m.pa / 128) (.atm r m) else s
  | _, _, _ => s.request (m.pa / 128) (.atm r m)

/-- The ATM message of a requester for an address that has not reached its home. -/
def LMsg.isAtm (m : LMsg) (r : Agent) (pa : Nat) : Bool := m.kind = "ATM" && m.src = agentNode r && !m.here && m.atom.any fun a => a.pa = pa

/-- ATM: the operands are those of the message in flight where there is one. A LOCK.BEGIN that no group sent asks for nothing. -/
def State.atm (s : State) (r : Agent) (op : AtomOp) (pa w b c : Nat) : State :=
  match (s.lattice.find? fun m => m.isAtm r pa).bind fun m => m.atom with
  | some a =>
    { s with lattice := changeFirst (fun (m : LMsg) => m.isAtm r pa) (fun m => { m with here := true }) s.lattice }.atomReq r a
  | none =>
    if op = .lock then s
    else s.atomReq r { op := op, pa := pa, width := w, b := b, c := c, va := 0, group := 0, lane := 0, ret := false, acq := false }

/-- WB (R215, R220 case 1): accepted at once; the duplicate tags show that the core holds the line no more. -/
def State.wb (s : State) (k line : Nat) : State := (s.arrive "WB" k line).clearTag false k line

/-- Whether dirty data answering a snoop would be covered by the stores of a NODATA read-unique (R216). -/
def State.covered (s : State) (line : Nat) : Nat :=
  match s.txOf line with
  | some t => (match t.req with | .rdu _ m true => m % 16 | _ => 0)
  | none => 0

/-- An awaited answer of a core has come (R217). -/
def State.answered (s : State) (k line : Nat) : State :=
  ({ s with tx := s.tx.map fun (t : Tx) =>
      if t.line = line then { t with await := t.await.filter (· ≠ k) } else t }.settle line).serveAll

/-- The sectors and data of a message in flight from a core, or else those that its arrival names. -/
def State.carried (s : State) (kind : String) (k line mask : Nat) (data : List Byte) : Nat × Nat :=
  match s.inFlight kind k line with
  | some m => (m.mask, m.data)
  | none => (mask, leNat data)

/-- WBDAT (R215, R220 case 2): the sectors go into the slice, WB-ACK is sent, and a transaction that awaited the write-back
goes on. -/
def State.wbdat (s : State) (k line mask : Nat) (data : List Byte) : State :=
  let c := s.carried "WBDAT" k line mask data
  let s := s.arrive "WBDAT" k line
  let n := 32 * popcount 4 c.1
  let m := c.1 % 16 - (c.1 % 16 &&& s.covered line)
  let s := (s.mergeSectors (s.corePart k) line m c.2 (c.1 / 16)).edge (k / 12) (homeDie (128 * line)) n
  let s := s.charge (.core k) (128 * line) (k / 12) (homeDie (128 * line)) n
  let s := s.post "WB-ACK" (homeNode line) k line 0 0
  ({ s with tx := s.tx.map fun (t : Tx) =>
      if t.line = line then { t with wbs := t.wbs.filter (· ≠ k) } else t }.settle line).serveAll

/-- EVN (R212, R220 case 3): the duplicate tag is cleared; one whose eviction the home knew of changes nothing. -/
def State.evn (s : State) (k line : Nat) (inst : Bool) : State :=
  let m := s.lattice.find? fun m => m.isEvn inst k line
  let s := { s with lattice := dropFirst (fun (m : LMsg) => m.isEvn inst k line) s.lattice }
  let c := s.core k
  let s := s.setCore k { c with evns := dropFirst (· = line) c.evns }
  match m with
  | some m => if m.here then s else s.clearTag inst k line
  | none => if (s.l1Find inst k line).isSome then s else s.clearTag inst k line

/-- SNPDAT (R217, R218): the dirty sectors are merged, but for those that a NODATA read-unique covers (R216). -/
def State.snpdat (s : State) (k line mask : Nat) (data : List Byte) : State :=
  let c := s.carried "SNPDAT" k line mask data
  let s := s.arrive "SNPDAT" k line
  let m := c.1 % 16 - (c.1 % 16 &&& s.covered line)
  (s.mergeSectors (s.corePart k) line m c.2 (c.1 / 16)).edge (k / 12) (homeDie (128 * line)) (32 * popcount 4 c.1)

/-- A core holds a line no more: its tags go, and an EVN that is on its way says nothing new. -/
def State.gone (s : State) (k line : Nat) : State := (((s.voidEvn false k line).voidEvn true k line).clearTag false k line).clearTag true k line

/-- ACK-INV (R217): the core holds the line no more. -/
def State.ackInv (s : State) (k line : Nat) : State := ((s.arrive "ACK-INV" k line).gone k line).answered k line

/-- ACK-SHR (R217): the core's copy is shared. -/
def State.ackShr (s : State) (k line : Nat) : State :=
  let s := s.arrive "ACK-SHR" k line
  (s.setTags line ((s.tags line).map fun t => if t.core = k then { t with owned := false } else t)).answered k line

/-- NOT-PRESENT (R220 case 3): the duplicate tag is cleared. -/
def State.notPresent (s : State) (k line : Nat) : State := ((s.arrive "NOT-PRESENT" k line).gone k line).answered k line

/-- WB-PENDING (R220 case 2): the home waits for the write-back while its data are on the way. -/
def State.wbPending (s : State) (k line : Nat) : State :=
  let way := (s.inFlight "WBDAT" k line).isSome
  let s := (s.arrive "WB-PENDING" k line).bump 8 oWbPendingRsp 1
  let s := s.clearTag true k line
  let s := if way then
      { s with tx := s.tx.map fun (t : Tx) =>
          if t.line = line && t.await.contains k && !t.wbs.contains k then { t with wbs := t.wbs ++ [k] } else t }
    else s
  s.answered k line

/-- COMP-ACK (R213): the line's transaction ends and the next request is served. -/
def State.compAck (s : State) (k line : Nat) : State :=
  let s := s.arrive "COMP-ACK" k line
  { s with tx := s.tx.filter fun (t : Tx) => !(t.line = line && t.granted && t.req.agent = Agent.core k) }.serveAll

/-! ### Arrivals at an L1 -/

/-- A snoop answered by the state of the line (R217, R220): `inv` for SNI. -/
def State.snooped (s : State) (inv : Bool) (k line : Nat) : State :=
  let s := s.arriveTo (if inv then "SNI" else "SNS") k line
  let h := homeNode line
  let ack := if inv then "ACK-INV" else "ACK-SHR"
  let hadI := (s.l1Find true k line).isSome
  match s.l1Find false k line with
  | some l =>
    let s := if l.dirty ≠ 0 then s.post "SNPDAT" k h line (l.dirty + 16 * l.poison) l.data else s
    let s := if inv then (s.l1Drop false k line).l1Drop true k line
      else s.l1Update false k { l with st := 1, dirty := 0 } false
    s.post ack k h line 0 0
  | none =>
    if (s.core k).wbb.any fun w => w.1 = line then
      (if inv then s.l1Drop true k line else s).post "WB-PENDING" k h line 0 0
    else if hadI then (if inv then s.l1Drop true k line else s).post ack k h line 0 0
    else s.post "NOT-PRESENT" k h line 0 0

/-- One pending store done in a line that the core holds unique (R206, R211). -/
def storeInto (l : L1Line) (pa w v : Nat) : L1Line :=
  let i := pa / 32 % 4
  let z := if w = 32 then clrBit l.poison i else l.poison
  { l with st := 3, valid := setBit l.valid i, dirty := setBit l.dirty i, poison := z, data := spliceBytes l.data (pa % 128) w v }

/-- Whether every byte of sector `i` of a line is covered by pending stores (R206). -/
def coversSector (sts : List (Nat × Nat × Nat)) (line i : Nat) : Bool :=
  (List.range 32).all fun b => sts.any fun x => x.1 ≤ 128 * line + 32 * i + b && 128 * line + 32 * i + b < x.1 + x.2.1

/-- The pending stores of a line that the core now holds unique are performed; one to a part of a sector that is not valid
waits for that sector (R206, R216). -/
def State.doStores (s : State) (k line : Nat) : State :=
  match s.l1Find false k line with
  | none => s
  | some l =>
    if l.st < 2 then s
    else
      let c := s.core k
      let mine := c.stores.filter fun x => x.1 / 128 = line
      let ready (x : Nat × Nat × Nat) : Bool := l.valid.testBit (x.1 / 32 % 4) || coversSector mine line (x.1 / 32 % 4)
      let now := mine.filter ready
      if now.isEmpty then s
      else
        ((s.l1Update false k (now.foldl (fun l x => storeInto l x.1 x.2.1 x.2.2) l) true).setCore k
          { c with stores := c.stores.filter fun x => !(x.1 / 128 = line && ready x) }).mirrorTag false k line

/-- Whether a request asks for a core's copy of a data line. -/
def HomeReq.fetches (k : Nat) : HomeReq → Bool
  | .rds r _ na inst => r = Agent.core k && !na && !inst
  | .rdu j _ _ => j = k
  | .upg j _ => j = k
  | _ => false

/-- Whether a core has asked for a data line and has not been answered. -/
def State.asked (s : State) (k line : Nat) : Bool :=
  s.lattice.any (fun m => m.line = line && ((m.src = k && (m.kind = "RDS" || m.kind = "RDU" || m.kind = "UPG")) ||
    (m.dst = k && ((m.kind = "FILL" && !m.mask.testBit 9) || m.kind = "GRANT")))) ||
  s.tx.any (fun t => t.line = line && !t.granted && t.req.fetches k) ||
  s.txq.any (fun w => w.1 = line && w.2.fetches k) ||
  s.bucketQ.any (fun w => w.line = line && w.req.fetches k)

/-- The data lines of an L1's set that a core has asked for and does not hold: each will need a way (R221). -/
def State.comingLines (s : State) (k line : Nat) : List Nat :=
  let all := (s.lattice.map fun m => m.line) ++ (s.tx.map fun t => t.line) ++ (s.txq.map fun w => w.1) ++ s.bucketQ.map fun w => w.line
  all.eraseDups.filter fun n => n ≠ line && n % 256 = line % 256 && s.asked k n && (s.l1Find false k n).isNone

/-- A way of a data cache made sure of before a line is asked for (R205, R221): the least recent line leaves when the set has no way left for it,
so that the fill finds its way free. None while the write-back buffer cannot take that line. -/
def State.makeRoom (s : State) (k line : Nat) : Option State :=
  let ls := s.l1Set false k line
  if (ls.any fun l => l.line = line) || ls.length + (s.comingLines k line).length < 8 then some s
  else
    match ls.getLast? with
    | none => none
    | some o => s.l1Evict false k o

/-- What a core's pending stores of a line still need is asked for (R216): an upgrade, further sectors, or the line; not while the line lies in
its own write-back buffer (R220, case 6), its way cannot be freed (R221), or the cache allocates nothing (R224). -/
def State.askStores (s : State) (k line : Nat) : State :=
  let c := s.core k
  let mine := c.stores.filter fun x => x.1 / 128 = line
  if mine.isEmpty || s.asked k line || c.wbb.any (fun w => w.1 = line) || !s.l1On false k then s
  else
    let touched := maskOf (mine.map fun x => x.1 / 32 % 4)
    let part := maskOf ((bitsOf 4 touched).filter fun i => !coversSector mine line i)
    match s.makeRoom k line with
    | none => s
    | some s =>
      let s := s.count k 5 1 1
      match s.l1Find false k line with
      | some l =>
        if l.st = 1 then (s.setCore k { s.core k with upgs := (s.core k).upgs ++ [line] }).post "UPG" k (homeNode line) line l.valid 0
        else s.post "RDU" k (homeNode line) line (part - (part &&& l.valid)) 0
      | none => if part = 0 then s.post "RDU" k (homeNode line) line touched 1 else s.post "RDU" k (homeNode line) line touched 0

/-- What all of a core's pending stores need asked for, as a write-back buffer entry comes free (R221). -/
def State.askAll (s : State) (k : Nat) : State :=
  ((s.core k).stores.map fun x => x.1 / 128).eraseDups.foldl (fun s line => s.askStores k line) s

/-- A line that streaming accesses asked for becomes the least recent of its set (R178). -/
def State.settleStreaming (s : State) (k line : Nat) : State :=
  let c := s.core k
  if c.streaming.contains line then
    let ls := s.l1Set false k line
    (s.setCore k { c with streaming := c.streaming.filter (· ≠ line) }).l1Put false k line
      ((ls.filter fun x => x.line ≠ line) ++ ls.filter fun x => x.line = line)
  else s

/-- SNI (R217). -/
def State.sni (s : State) (k line : Nat) : State := s.snooped true k line
/-- SNS (R217). -/
def State.sns (s : State) (k line : Nat) : State := s.snooped false k line

/-- A line's copy made or kept in an L1 with a state (R205, R211): none where the way it needs cannot be freed (R221). -/
def State.l1Install (s : State) (inst : Bool) (k line st : Nat) : Option State :=
  match s.l1Find inst k line with
  | some l => some (s.l1Update inst k { l with st := if inst then 1 else if l.st = 3 then 3 else max l.st st } true)
  | none =>
    (s.l1Room inst k line).map fun (r : State × Nat) =>
      r.1.l1Put inst k line ({ line := line, way := r.2, st := if inst then 1 else st, valid := 0, dirty := 0, poison := 0, data := 0 }
        :: r.1.l1Set inst k line)

/-- A fill or grant that reaches an L1 which allocates nothing (R224): a line that it holds takes its state and no sector; of another it sends EVN
at once, so that the home's tag goes. -/
def State.declined (s : State) (inst : Bool) (k line st : Nat) : State :=
  match s.l1Find inst k line with
  | some l => (s.l1Update inst k { l with st := if inst then 1 else max l.st st } false).mirrorTag inst k line
  | none =>
    let c := s.core k
    (s.setCore k { c with evns := c.evns ++ [line] }).post "EVN" k (homeNode line) line 0 (if inst then 1 else 0)

/-- GRANT (R216): the line is exclusive, the stores that asked for it are performed, and COMP-ACK is returned. -/
def State.grant (s : State) (k line : Nat) : State :=
  let done (t : State) : State :=
    let t := t.arriveTo "GRANT" k line
    t.setCore k { t.core k with upgs := (t.core k).upgs.filter (· ≠ line) }
  if !s.l1On false k then ((done s).declined false k line 2).post "COMP-ACK" k (homeNode line) line 0 0
  else
    match s.l1Install false k line 2 with
    | none => s
    | some t => (((done t).doStores k line).askStores k line).post "COMP-ACK" k (homeNode line) line 0 0

/-- The FILL in flight to a core's data or instruction cache for a line. -/
def State.fillTo (s : State) (inst : Bool) (k line : Nat) : Option LMsg :=
  s.lattice.find? fun m => m.kind = "FILL" && m.dst = k && m.line = line && m.mask.testBit 9 = inst

/-- FILL (R204, R205, R216): the sectors become valid, in E or S; the pending stores are performed; COMP-ACK is returned. What the message in flight
carries is what comes. The way was made sure of when the line was asked for; a fill that nothing asked for waits where its way cannot be freed. -/
def State.fill (s : State) (k line mask : Nat) (excl inst : Bool) (data : List Byte) : State :=
  let m : Nat × Nat × Bool := match s.fillTo inst k line with
    | some m => (m.mask % 256, m.data, m.mask.testBit 8)
    | none => (mask % 16, leNat data, excl)
  let done (t : State) : State :=
    let t := { t with lattice := dropFirst (fun m => m.kind = "FILL" && m.dst = k && m.line = line && m.mask.testBit 9 = inst) t.lattice }
    if inst then t else t.setCore k { t.core k with upgs := (t.core k).upgs.filter (· ≠ line) }
  let st := if m.2.2 then 2 else 1
  if !s.l1On inst k then ((done s).declined inst k line st).post "COMP-ACK" k (homeNode line) line 0 0
  else
    match s.l1Install inst k line st with
    | none => s
    | some t =>
      let t := match t.l1Find inst k line with
        | none => t
        | some l =>
          let new := m.1 % 16 - (m.1 % 16 &&& l.valid)
          let l' := (bitsOf 4 new).foldl (fun (l : L1Line) i =>
            let z := if m.1.testBit (4 + i) then setBit l.poison i else clrBit l.poison i
            { l with valid := setBit l.valid i, data := putLane 256 i l.data (lane 256 i m.2.1), poison := z }) l
          (t.l1Update inst k l' true).mirrorTag inst k line
      let t := done t
      (if inst then t else ((t.doStores k line).settleStreaming k line).askStores k line).post "COMP-ACK" k (homeNode line) line 0 0

/-- WB-ACK (R220): the write-back buffer's entry is free. -/
def State.wbAck (s : State) (k line : Nat) : State :=
  let s := s.arriveTo "WB-ACK" k line
  let c := s.core k
  (s.setCore k { c with wbb := dropFirst (fun w => w.1 = line) c.wbb }).askAll k

/-- COMP (R218): the requester's write or atomic is done, and is no longer in flight. -/
def State.comp (s : State) (r : Agent) (line : Nat) : State :=
  let s := s.arriveTo "COMP" (agentNode r) line
  match r with
  | .mover k g =>
    let q := Tbl.get Seq.reset s.seqs k
    let q := { q with streams := q.streams.map fun (e : Nat × Stream) => if e.1 = g then (e.1, { e.2 with acks := e.2.acks - 1 }) else e }
    { s with seqs := Tbl.set s.seqs k q }
  | _ => s

/-! ### Meanings -/

/-- RDS (R216, R219). -/
def execRds (r : Agent) (line mask : Nat) (na : Bool) (s : State) : Res := onUnit s r.wf (s.rds r line mask na)
/-- RDU (R216). -/
def execRdu (k line mask : Nat) (nodata : Bool) (s : State) : Res := onUnit s (isCore k) (s.rdu k line mask nodata)
/-- UPG (R216). -/
def execUpg (k line : Nat) (s : State) : Res := onUnit s (isCore k) (s.upg k line)
/-- WB (R215). -/
def execWb (k line : Nat) (s : State) : Res := onUnit s (isCore k) (s.wb k line)
/-- EVN (R212). -/
def execEvn (k line : Nat) (inst : Bool) (s : State) : Res := onUnit s (isCore k) (s.evn k line inst)
/-- IWR (R218). -/
def execIwr (r : Agent) (pa : Nat) (data : MaskedBytes) (s : State) : Res := onUnit s r.wf (s.iwr r pa data.mask data.bytes)
/-- ATM (R220). -/
def execAtm (r : Agent) (op : AtomOp) (pa width b c : Nat) (s : State) : Res := onUnit s r.wf (s.atm r op pa width b c)
/-- SNI (R217). -/
def execSni (k line : Nat) (s : State) : Res := onUnit s (isCore k) (s.sni k line)
/-- SNS (R217). -/
def execSns (k line : Nat) (s : State) : Res := onUnit s (isCore k) (s.sns k line)
/-- ACK_INV (R217). -/
def execAckInv (k line : Nat) (s : State) : Res := onUnit s (isCore k) (s.ackInv k line)
/-- ACK_SHR (R217). -/
def execAckShr (k line : Nat) (s : State) : Res := onUnit s (isCore k) (s.ackShr k line)
/-- NOT_PRESENT (R220). -/
def execNotPresent (k line : Nat) (s : State) : Res := onUnit s (isCore k) (s.notPresent k line)
/-- WB_PENDING (R220). -/
def execWbPending (k line : Nat) (s : State) : Res := onUnit s (isCore k) (s.wbPending k line)
/-- GRANT (R216). -/
def execGrant (k line : Nat) (s : State) : Res := onUnit s (isCore k) (s.grant k line)
/-- WB_ACK (R220). -/
def execWbAck (k line : Nat) (s : State) : Res := onUnit s (isCore k) (s.wbAck k line)
/-- COMP (R218). -/
def execComp (r : Agent) (line : Nat) (s : State) : Res := onUnit s r.wf (s.comp r line)
/-- COMP_ACK (R213). -/
def execCompAck (k line : Nat) (s : State) : Res := onUnit s (isCore k) (s.compAck k line)
/-- FILL (R216). -/
def execFill (k line mask : Nat) (excl inst : Bool) (data : List Byte) (s : State) : Res :=
  onUnit s (isCore k) (s.fill k line mask excl inst data)
/-- SNPDAT (R217). -/
def execSnpdat (k line mask : Nat) (data : List Byte) (s : State) : Res := onUnit s (isCore k) (s.snpdat k line mask data)
/-- WBDAT (R215). -/
def execWbdat (k line mask : Nat) (data : List Byte) (s : State) : Res := onUnit s (isCore k) (s.wbdat k line mask data)
/-- WDATA (R218). -/
def execWdata (r : Agent) (pa : Nat) (data : List Byte) (s : State) : Res := onUnit s r.wf (s.wdata r pa data)
/-- BUCKET_ADMIT (R238). -/
def execBucketAdmit (b : BucketId) (s : State) : Res :=
  onUnit s b.wf (s.bucketAdmit (match b with
    | .slice p d x => sliceBucket (6 * d + x) p
    | .lattice p d => latticeBucket d p))

end Sys2Proof.Machine
end

