-- ==== Sys2Proof/Machine/CacheCtl.lean ====
section
/-! DEFINITION. Disabling a cache, reclaiming ways, the eviction modes (R209, R222 to R225), and flushing translations. -/

namespace Sys2Proof.Machine

/-! ### Lines of a slice -/

/-- The lines of slice `n` that a test picks leave it, dirty sectors written to memory when `keep` is set (R209, R222, R224). -/
def State.sliceFlush (s : State) (n : Nat) (keep : Bool) (f : DcLine → Bool) : State :=
  let mine := s.dc.filter fun e => e.1 / 8192 = n
  let gone := (mine.map fun e => e.2.filter f).flatten
  let s := if keep then gone.foldl (fun s l => s.dcClean l) s else s
  { s with dc := s.dc.map fun (e : Nat × List DcLine) => if e.1 / 8192 = n then (e.1, e.2.filter fun l => !f l) else e }

/-- The victim cache of a slice empties, oldest first (R222, R224). -/
def State.victimFlush (s : State) (n : Nat) (keep : Bool) : State :=
  let v := Tbl.get [] s.victim n
  let s := if keep then v.foldl (fun s l => s.dcClean l) s else s
  { s with victim := Tbl.erase s.victim n }

/-- The victim cache of a slice in SERVICE empties, oldest first: clean entries drop, and dirty ones are written as their channels accept
writes (R222). -/
def State.victimEmpty (s : State) (n : Nat) : State :=
  if s.objD 1 (oEvictMode n) ≠ 0 then s
  else
    let v := Tbl.get [] s.victim n
    let goes (l : DcLine) : Bool := l.dirty = 0 || s.lineAccepts l.line
    let t := (v.filter goes).foldl (fun s l => s.dcClean l) s
    let rest := v.filter fun l => !goes l
    { t with victim := if rest.isEmpty then Tbl.erase t.victim n else Tbl.set t.victim n rest }

/-- The slices of a die do so as one of its channels comes to accept writes again (R222). -/
def State.victimsEmpty (s : State) (d : Nat) : State := forUpTo 6 s fun s j => s.victimEmpty (6 * d + j)

/-- A slice's eviction mode (R222): 0 SERVICE, 1 START, 2 TEST, 3 RECOVERY. On return to SERVICE its victim cache empties. -/
def State.evictMode (s : State) (n m : Nat) : State := (s.put (oEvictMode n) m).victimEmpty n

/-- Ways of a die leave every mask or are retired (R209): the six slices write their dirty sectors back and invalidate them,
and the ways take no fill until WAYMASK_RECLAIM_DONE. -/
def State.reclaimWays (s : State) (d slices ways : Nat) : State :=
  let s := (bitsOf 6 slices).foldl (fun s j => s.sliceFlush (6 * d + j) true fun l => ways.testBit l.way) s
  { s with reclaim := Tbl.set s.reclaim d (Tbl.get 0 s.reclaim d ||| ways) }.put (oWaymaskState d) 1

/-! ### Lines of an L1 -/

/-- The lines that an L1 holds. -/
def State.l1Lines (s : State) (inst : Bool) (k : Nat) : List L1Line :=
  ((if inst then s.l1i else s.l1d).filter fun e => e.1 / (if inst then 128 else 256) = k).map (fun e => e.2) |>.flatten

/-- Every line of an L1 leaves it, with an EVN for each (R224); dirty sectors go to the home when `keep` is set. -/
def State.l1Flush (s : State) (inst : Bool) (k : Nat) (keep : Bool) : State :=
  (s.l1Lines inst k).foldl (fun s l =>
    let s := if keep then s.mergeSectors (s.corePart k) l.line l.dirty l.data l.poison else s
    let c := s.core k
    ((s.l1Drop inst k l.line).setCore k { c with evns := c.evns ++ [l.line] }).post "EVN" k (homeNode l.line) l.line 0 (if inst then 1 else 0)) s

/-- The same without messages: the duplicate tags go with the lines, as when a unit or a tenant is cleared. -/
def State.l1Clear (s : State) (inst : Bool) (k : Nat) (keep : Bool) : State :=
  (s.l1Lines inst k).foldl (fun s l =>
    let s := if keep then s.mergeSectors (s.corePart k) l.line l.dirty l.data l.poison else s
    (s.l1Drop inst k l.line).clearTag inst k l.line) s

/-! ### CTRL objects (R224, R227, R228) -/

/-- The keys of a cache's CTRL and STATUS objects. -/
def ctrlKey : CacheId → Nat
  | .l1d k => oL1dCtrl k
  | .l1i k => oL1iCtrl k
  | .slice d x => oSliceCtrl (6 * d + x)
/-- The key of its STATUS. -/
def statusKey : CacheId → Nat
  | .l1d k => oL1dStatus k
  | .l1i k => oL1iStatus k
  | .slice d x => oSliceStatus (6 * d + x)

/-- The pending stores of a core whose L1 data cache allocates no more are sent as invalidating writes, oldest first (R224). -/
def State.storesHome (s : State) (k : Nat) : State :=
  let c := s.core k
  c.stores.foldl (fun s x => s.post "IWR" k (homeNode (x.1 / 128)) (x.1 / 128) (x.1 % 128 + 128 * x.2.1) x.2.2) (s.setCore k { c with stores := [] })

/-- CTRL written 1 DRAIN: an L1 instruction cache, never dirty, is DRAINED at once (R224). -/
def State.cacheDrain (s : State) (c : CacheId) : State :=
  let s := s.put (ctrlKey c) 1
  match c with
  | .l1i k => (s.l1Flush true k false).put (oL1iStatus k) 2
  | .l1d k => if s.ctr (statusKey c) = 2 then s else (s.put (statusKey c) 1).storesHome k
  | .slice _ _ => if s.ctr (statusKey c) = 2 then s else s.put (statusKey c) 1

/-- CTRL written 2 DISCARD: every line is invalidated and its dirty data are lost (R224). -/
def State.cacheDiscard (s : State) (c : CacheId) : State :=
  let s := (s.put (ctrlKey c) 2).put (statusKey c) 2
  match c with
  | .l1d k => (s.storesHome k).l1Flush false k false
  | .l1i k => s.l1Flush true k false
  | .slice d x => (s.sliceFlush (6 * d + x) false fun _ => true).victimFlush (6 * d + x) false

/-- CTRL written 0 ENABLE: a DRAINED cache resumes empty (R224). -/
def State.cacheEnable (s : State) (c : CacheId) : State :=
  let s := s.put (ctrlKey c) 0
  if s.ctr (statusKey c) = 2 then s.put (statusKey c) 0 else s

/-- Whether a DISCARD is accepted (R224): a slice in TEST, or a core without a shard; the level is checked by the server. -/
def State.discardOk (s : State) (c : CacheId) : Bool :=
  match c with
  | .l1d k => (s.core k).shard.isNone
  | .l1i k => (s.core k).shard.isNone
  | .slice d x => s.objD 1 (oEvictMode (6 * d + x)) = 2

/-- The end of a drain (R224, R225): what is dirty is written back, every line goes, and the cache is DRAINED. -/
def State.cacheDrained (s : State) (c : CacheId) : State :=
  if s.ctr (statusKey c) ≠ 1 then s
  else
    let s := s.put (statusKey c) 2
    match c with
    | .l1d k => s.l1Flush false k true
    | .l1i k => s.l1Flush true k true
    | .slice d x => (s.sliceFlush (6 * d + x) true fun _ => true).victimFlush (6 * d + x) true

/-- A die is STABLE again, and its ways take fills (R209). -/
def State.reclaimDone (s : State) (d : Nat) : State :=
  if s.ctr (oWaymaskState d) = 1 then { s with reclaim := Tbl.set s.reclaim d 0 }.put (oWaymaskState d) 0 else s

/-- New way masks of a die (R208, R209): the ways that some mask loses are reclaimed. -/
def State.setWaymasks (s : State) (d : Nat) (ms : List (Nat × Nat)) : State :=
  let lost := ms.foldl (fun a m => let old := s.objD (if m.1 = 0 then 0xFFFF else 0) (oWaymask d m.1); a ||| (old - (old &&& m.2))) 0
  let s := ms.foldl (fun s m => s.put (oWaymask d m.1) m.2) s
  if lost = 0 then s else s.reclaimWays d 63 lost

/-- CACHE_DRAINED (R224). -/
def execCacheDrained (c : CacheId) (s : State) : Res := onUnit s c.wf (s.cacheDrained c)
/-- WAYMASK_RECLAIM_DONE (R209). -/
def execWaymaskReclaimDone (d : Nat) (s : State) : Res := onUnit s (isDie d) (s.reclaimDone d)

end Sys2Proof.Machine
end

