-- ==== Sys2Proof/Machine/Translate.lean ====
section
/-! DEFINITION. The translation caches (R256 to R258), table walks (R251 to R254) and translation faults (R259 to R264). -/

namespace Sys2Proof.Machine

/-- What a walk finds (R258, R259): a leaf of a size, or a fault of a kind at a level with the entry found; or where it waits: the levels still to
read and the table reached. -/
inductive WalkRes where
  | leaf (size e : Nat)
  | fault (kind level e : Nat)
  | busy (levels table : Nat)
  deriving DecidableEq, Repr

/-- A walk down from a level's table (R251, R254); the reads are non-allocating reads at the home, which wait where it is busy with a table's
line, and at their buckets (R238). -/
def State.walkFrom (s : State) (r : Agent) (va table : Nat) : Nat → State × WalkRes
  | 0 => (s, .fault 2 0 0)
  | l + 1 =>
    let a := table + 8 * (va / 2 ^ (16 + 10 * l) % 1024)
    if s.rangeBusy a 8 then (s, .busy (l + 1) table)
    else
      match s.letIn r a 8 false with
      | (t, false) => (t, .busy (l + 1) table)
      | (t, true) =>
        let x := (t.admitDone r a 8).agentRead r a 8
        let e := x.2.1
        if x.2.2 then (x.1, .fault 3 l 0)
        else if !e.testBit 63 then (x.1, .fault 1 l e)
        else if malformed l e then (x.1, .fault 2 l e)
        else if bits 62 61 e = 0 then x.1.walkFrom r va (bits 51 13 e * 2 ^ 13) l
        else (x.1, .leaf (bits 62 61 e) e)

/-! ### Translation caches (R256, R257) -/

/-- The unit number of a core, copy engine or die in the list of TLB entries. -/
def tlbCore (k : Nat) : Nat := k
def tlbCe (e : Nat) : Nat := 256 + e
def tlbDie (d : Nat) : Nat := 512 + d

/-- The set of an L2 TLB for a page number, context slot and the partition's groups (R257). -/
def tlbSet (gs : List Nat) (v slot : Nat) : Nat :=
  let h := bits 13 0 v ^^^ bits 27 14 v ^^^ slot % 4096
  128 * gs.getD (h / 128 % gs.length) 0 + h % 128

/-- The set groups of a partition on a die (R257). -/
def State.tlbGroups (s : State) (d p : Nat) : List Nat := bitsOf 16 (s.objD (if p = 0 then 0xFFFF else 0) (oTlbSetmask d p))

/-- The entry of a unit for an address; of two sizes the smaller page's (R257). -/
def State.tlbFind (s : State) (unit slot va : Nat) : Option TlbE :=
  [1, 2, 3].findSome? fun sz => s.tlbs.find? fun t =>
    t.unit = unit && t.slot = slot && t.size = sz && t.vpn = va / 2 ^ pageShift sz

/-- The first `n` of a list that satisfy a test, and everything that does not. -/
def keepFirst {α : Type} (f : α → Bool) : Nat → List α → List α
  | _, [] => []
  | n, a :: r => if f a then (match n with | 0 => keepFirst f 0 r | m + 1 => a :: keepFirst f m r) else a :: keepFirst f n r

/-- An entry put into a unit's TLB as the most recent; the least recent leaves a full one, or a full set of 8 (R256). -/
def State.tlbInsert (s : State) (t : TlbE) : State :=
  let same (x : TlbE) : Bool := x.unit = t.unit && x.slot = t.slot && x.size = t.size && x.vpn = t.vpn
  let ts := t :: s.tlbs.filter fun x => !same x
  { s with tlbs :=
      if 512 ≤ t.unit then keepFirst (fun x => x.unit = t.unit && x.set = t.set) 8 ts
      else keepFirst (fun x => x.unit = t.unit) (if t.unit < 256 then 128 else 64) ts }

/-- The die of an engine code of R261. -/
def engineDie (eng : Nat) : Nat := if eng < 256 then eng / 12 else (eng - 256) / 4
/-- The L1 TLB unit of an engine code. -/
def engineTlb (eng : Nat) : Nat := if eng < 256 then tlbCore eng else tlbCe (eng - 256)
/-- The requester of an engine's walks. -/
def engineAgent (eng : Nat) : Agent := if eng < 256 then .core eng else .copyEngine (eng - 256)

/-- A translation found in the caches: the L1 TLB, else the L2 in the set that the partition's groups give, which fills the L1
(R256 to R258). -/
def State.lookup (s : State) (eng part hw va : Nat) : Option (State × Target) :=
  match s.tlbFind (engineTlb eng) hw va with
  | some t => some (s.tlbInsert t, targetOf t.size t.leaf va)
  | none =>
    let d := engineDie eng
    let gs := s.tlbGroups d part
    (({ s with tlbs := s.tlbs.filter fun (t : TlbE) => t.set = tlbSet gs t.vpn hw && !gs.isEmpty }).tlbFind (tlbDie d) hw va).map fun t =>
      ((s.tlbInsert t).tlbInsert { t with unit := engineTlb eng, set := 0 }, targetOf t.size t.leaf va)

/-- The page and context of two accesses are one. -/
def samePage (a b : Access) : Bool := a.ctx = b.ctx && a.va / 2 ^ 16 = b.va / 2 ^ 16

/-- Whether two accesses are by one unit on one page. -/
def sameAccess (a b : Access) : Bool := samePage a b && a.engine = b.engine && a.source = b.source && a.kind = b.kind

/-- Whether an access waits on a walk or on a fault. -/
def State.stalled (s : State) (a : Access) : Bool :=
  s.walks.any (fun w => sameAccess w.acc a) || s.faults.any (fun f => sameAccess f.acc a || f.joined.any (sameAccess · a))

/-- A miss in the L2 TLB joins the walks of its die (R258). -/
def State.startWalk (s : State) (a : Access) : State :=
  if s.stalled a then s
  else
    let d := engineDie a.engine
    let s := (s.bump 8 (oL2tlbMisses d) 1)
    let s := if a.engine < 256 then s.count a.engine 4 1 1 else s
    { s with walks := s.walks ++ [⟨d, a, none⟩] }

/-- A translated address, or the state with a walk under way for it (R256 to R258). -/
def State.translate (s : State) (a : Access) : State × Option Target :=
  match (s.ctxOf a.ctx).bind fun c => c.hw.map fun hw => (c.part, hw) with
  | none => (s, none)
  | some (part, hw) =>
    match s.lookup a.engine part hw a.va with
    | some (t, x) => (t, some x)
    | none => (s.startWalk a, none)

/-! ### What runs on a core, as far as faults end it -/

/-- Whether a core's shard runs and has not been ended; nothing runs on a die whose root PLL has lost lock (R470). -/
def State.running (s : State) (k : Nat) : Bool :=
  match (s.core k).shard with
  | none => false
  | some h => h.code = 0 && !h.stopped && h.begun && s.objD 1 (oPllLock (k / 12)) ≠ 0

/-- SEQ_STATE of a core (R167): 0 IDLE, 1 LOADING, 2 RUNNING, 3 HALTED, 4 HELD. -/
def State.seqState (s : State) (k : Nat) : Nat := s.ctr (oSeqState k)
/-- THR_HALT of a core (R201): 0 run, else halted. -/
def State.thrHalt (s : State) (k : Nat) : Nat := s.ctr (oThrHalt k)
/-- Whether a core's timeouts stand still (R165, R198, R263, R293). -/
def State.coreHalted (s : State) (k : Nat) : Bool := s.seqState k = 3 || s.seqState k = 4 || s.thrHalt k ≠ 0

/-- The shard of a core ends with an error code: its sequencer issues no more and its streams stand still (R163, R200). The end
itself is SHARD_END. A code that came first stays. -/
def State.failShard (s : State) (k code : Nat) : State :=
  let c := s.core k
  match c.shard with
  | none => s
  | some h => if h.code ≠ 0 then s else s.setCore k { c with shard := some { h with code := code } }

/-- The same for a code that one of its groups raised: its copies go no further (R187, R200, R294). -/
def State.failGroup (s : State) (k g code : Nat) : State :=
  let c := s.core k
  match c.shard with
  | none => s
  | some h =>
    if h.code ≠ 0 then s else s.setCore k { c with acps := [], shard := some { h with code := code, faultGroup := g, byGroup := true } }

/-! ### Faults (R259 to R264) -/

/-- The outstanding faults of a die (R260). -/
def State.faultsOn (s : State) (d : Nat) : List TFault := s.faults.filter fun f => f.die = d && f.outstanding

/-- A fault of an access (R260): it joins one of its context and page on the die, becomes outstanding, or waits on the die. -/
def State.raiseFault (s : State) (a : Access) (kind level entry : Nat) : State :=
  let d := engineDie a.engine
  let a := { a with since := some (a.since.getD s.now) }
  let s := if kind = 3 then s.bump 4 oWalkDataErrors 1 else s
  if s.faults.any fun f => f.die = d && samePage f.acc a then
    { s with faults := s.faults.map fun f =>
        if f.die = d && samePage f.acc a then { f with joined := f.joined ++ [a] } else f }
  else
    let f : TFault := ⟨d, a, kind, level, entry, s.now, (s.faultsOn d).length < 64, false, 0, []⟩
    { s with faults := s.faults ++ [f] }

/-- Waiting faults become outstanding, in order, while a die holds fewer than 64 (R260). -/
def State.promote (s : State) (d : Nat) : State :=
  { s with faults := (s.faults.foldl (fun (a : List TFault × Nat) f =>
      if 0 < a.2 && f.die = d && !f.outstanding then (a.1 ++ [{ f with outstanding := true }], a.2 - 1) else (a.1 ++ [f], a.2))
      ([], 64 - (s.faultsOn d).length)).1 }

/-- The faults that satisfy a test are retired or dropped, and those that wait take their places (R260). -/
def State.retire (s : State) (f : TFault → Bool) : State :=
  let s := { s with faults := s.faults.filter fun x => !f x }
  forUpTo 8 s fun s d => s.promote d

/-- A unit's accesses stop: its part in every fault ends, and a fault that stalls no unit any more is retired (R260). -/
def State.dropUnit (s : State) (u : Access → Bool) : State :=
  let fs := s.faults.filterMap fun f =>
    let all := (f.acc :: f.joined).filter fun a => !u a
    match all with
    | [] => none
    | a :: r => some { f with acc := a, joined := r }
  let s := { s with faults := fs, walks := s.walks.filter fun w => !u w.acc }
  forUpTo 8 s fun s d => s.promote d

/-- The translation entries that a test picks leave every TLB (R257, R266, R267). -/
def State.tlbDrop (s : State) (f : TlbE → Bool) : State := { s with tlbs := s.tlbs.filter fun t => !f t }

/-- A finished walk's leaf fills the L2 TLB of its die, where the partition has set groups there, and the requester's L1 TLB
(R257, R258). -/
def State.tlbFill (s : State) (a : Access) (hw part size e : Nat) : State :=
  let d := engineDie a.engine
  let v := a.va / 2 ^ pageShift size
  let gs := s.tlbGroups d part
  let s := if gs.isEmpty then s
    else s.tlbInsert { unit := tlbDie d, slot := hw, size := size, vpn := v, leaf := e, set := tlbSet gs v hw }
  s.tlbInsert { unit := engineTlb a.engine, slot := hw, size := size, vpn := v, leaf := e, set := 0 }

/-- The pages that the walkers of a die walk for: the first 16 missed (R258). -/
def State.walkPages (s : State) (d : Nat) : List Access :=
  ((s.walks.foldl (fun (l : List Access) w => if w.die = d && !l.any (samePage w.acc) then l ++ [w.acc] else l) []).take 16)

/-- Whether a walk is one of a die for a page. -/
def Walk.isFor (w : Walk) (d : Nat) (a : Access) : Bool := w.die = d && samePage w.acc a

/-- The walk of a die for a page ends, with all that wait for it, or stays where it waits: whether it ended (R258). -/
def State.walkPage (s : State) (d : Nat) (a : Access) : State × Bool :=
  let mine := s.walks.filter fun w => w.isFor d a
  let gone (s : State) : State := { s with walks := s.walks.filter fun w => !w.isFor d a }
  match (s.ctxOf a.ctx).bind fun c => c.hw.map fun hw => (c, hw) with
  | none => (gone s, true)
  | some (c, hw) =>
    let from_ := ((mine.head?).bind fun w => w.at_).getD (4, c.root)
    let r := s.walkFrom (engineAgent a.engine) a.va from_.2 from_.1
    let ended (t : State) : State :=
      let t := (gone t).bump 8 oWalks 1
      if a.engine < 256 then t.count a.engine 4 2 1 else t
    match r.2 with
    | .busy l table =>
      ({ r.1 with walks := r.1.walks.map fun (w : Walk) => if w.isFor d a then { w with at_ := some (l, table) } else w }, false)
    | .leaf size e => (mine.foldl (fun t w => t.tlbFill w.acc hw c.part size e) (ended r.1), true)
    | .fault kind level e => (mine.foldl (fun t w => t.raiseFault w.acc kind level e) (ended r.1), true)

/-- The first of a list of walks that ends. -/
def State.walkFirst (s : State) (d : Nat) : List Access → State
  | [] => s
  | a :: l =>
    match s.walkPage d a with
    | (t, true) => t
    | (t, false) => t.walkFirst d l

/-- A walk of a die ends: of those that its 16 walkers hold, the oldest whose table reads are not held up (R258). -/
def State.finishWalk (s : State) (d : Nat) : State := s.walkFirst d (s.walkPages d)

end Sys2Proof.Machine
end

