-- ==== Sys2Proof/Machine/Sites.lean ====
section
/-! DEFINITION. Error sites that become LASTING: repairs, retirements and what they change (R120 to R123, R244, R245, R342, R350,
R399 to R407). -/

namespace Sys2Proof.Machine

/-! ### Ending codes (R119, R199, R261, R300, R310, R345, R375, R387) -/

/-- PART-FAULT (R310). -/
def cPartFault : Nat := 0x0A04
/-- CHORD-BROKEN (R345). -/
def cChordBroken : Nat := 0x0B03
/-- ARRAY-PARITY (R119). -/
def cArrayParity : Nat := 0x0301

/-! ### Chord instances that a unit belongs to (R337, R342) -/

/-- The current control word of a core. -/
def State.curWord (s : State) (k : Nat) : Nat := Tbl.get 0 (s.seq k).words (s.seq k).pc
/-- Whether a word is a SYNC with operation `op` (R131, R141). -/
def isSync (w op : Nat) : Bool := bits 255 252 w = 5 && bits 175 174 w = op
/-- The instance that a SYNC CHORD word names (R141). -/
def syncChordOf (w : Nat) : Nat := bits 173 168 w

/-- A copy engine's WAIT that stalls on an instance returns with a code: it is the head of the engine's ring, and the engine has
arrived and not left (R310, R340, R342). -/
def State.endChordWait (s : State) (i e code : Nat) : State :=
  let u := Tbl.get Chord.reset s.chords i
  if (s.ctr (oArrived i) ||| u.next ||| u.unleft).testBit (96 + e) then
    match (s.ring (kCopyRing e)).accepted.find? fun c => c.ended.isNone with
    | some c => if c.op = 4 && c.begun then s.setCmd (kCopyRing e) c.aseq fun c => { c with code := code, ended := some (3, code) } else s
    | none => s
  else s

/-- An instance enters BROKEN (R342, R343): what stalls on it ends with PART-FAULT. -/
def State.breakChord (s : State) (i : Nat) : State :=
  let s := s.put (oChordState i) 3
  let s := forUpTo 96 s fun s k =>
    let w := s.curWord k
    if isSync w 0 && syncChordOf w = i && (s.seq k).waiting && !(s.seq k).released && s.running k then s.failShard k cPartFault else s
  forUpTo 32 s fun s e => s.endChordWait i e cPartFault

/-- A member is retired or becomes STALE: its instances break (R342). `bit` is its bit of the mask of R337. -/
def State.breakMember (s : State) (b : Nat) : State :=
  forUpTo 64 s fun s i =>
    if (s.ctr (oMembers i)).testBit b && s.ctr (oChordState i) ≠ 3 then s.breakChord i else s

/-! ### Counts of what serves -/

/-- CORES_IN_SERVICE, ARRAYS_IN_SERVICE and CHANNELS_IN_SERVICE brought up to date (R124, R201, R248). -/
def State.recount (s : State) : State :=
  let cs := ((List.range 96).filter fun k => s.ctr (oCoreState k) = 0).length
  let as_ := ((List.range 384).filter fun a => s.ctr (oArrayState a) < 2).length
  let ch := ((List.range 1536).filter fun c => s.chanBase c ≠ csRetired && s.chanBase c ≠ csDegraded).length
  ((s.put oCoresInService cs).put oArraysInService as_).put oChannelsInService ch

/-- FUSE_ROWS or FUSE_COLS of an array: as fused, until a hard repair burns more (R123, R125). -/
def State.fuseSkips (s : State) (col : Bool) (a : Nat) : Nat :=
  match Tbl.get none s.obj (if col then oFuseCols a else oFuseRows a) with
  | some v => v
  | none => if col then (Config.fuseCols a).toNat else (Config.fuseRows a).toNat

/-- SOFT_ROWS or SOFT_COLS of an array (R125). -/
def State.softSkips (s : State) (col : Bool) (a : Nat) : Nat := s.objD 0xFFFF (if col then oSoftCols a else oSoftRows a)

/-- The physical indexes of a skip word (R125). -/
def skipsIn (w : Nat) : List Nat := [bits 7 0 w, bits 15 8 w].filter (· ≠ 0xFF)

/-- The skipped set of an axis: fuse skips and soft skips (R120). -/
def State.skipped (s : State) (col : Bool) (a : Nat) : List Nat :=
  (skipsIn (s.fuseSkips col a) ++ skipsIn (s.softSkips col a)).eraseDups

/-- A skip word with one more index in its free place (R125). -/
def addSkip (w i : Nat) : Nat := if bits 7 0 w = 0xFF then bits 15 8 w * 256 + i else i * 256 + bits 7 0 w

/-- A soft skip of a physical row or column (R121, R125). -/
def State.softSkip (s : State) (col : Bool) (a i : Nat) : State :=
  s.put (if col then oSoftCols a else oSoftRows a) (addSkip (s.softSkips col a) i)

/-! ### Recommendations (R406, R407) -/

/-- Spares of a die: those free and those at manufacture (R406, reason 5): array rows and columns beyond the fuse skips, four
rows of each core structure, and spare channels. -/
def State.sparesOn (s : State) (d : Nat) : List (Nat × Nat) :=
  let as_ := (List.range 48).map fun i => 48 * d + i
  let free := as_.foldl (fun n a => n + (2 - (s.skipped false a).length) + (2 - (s.skipped true a).length)) 0
  let made := as_.foldl (fun n a => n + (2 - (skipsIn (Config.fuseRows a).toNat).length) + (2 - (skipsIn (Config.fuseCols a).toNat).length)) 0
  let sram := (List.range 48).foldl (fun n x => n + (4 - (Tbl.get SiteW.reset s.sites (512 * d + 48 + x)).used)) 0
  let ts := s.targetsOf d
  let chFree := ((List.range 192).filter fun i => s.chanOwner (192 * d + i) = 0xFF && s.chanBase (192 * d + i) < csTraining && !ts.contains i).length
  [(free, made), (sram, 192), (chFree, chFree + ts.length)]

/-- Reason 6: a least-squares line through the last 30 daily minima of a cluster, 14 at least, reaches 15 ps within 90 days
(R406). With x = 0 the newest day, the line at x = 90 is at or below 15, in whole numbers. -/
def trendBad (l : List Int) : Bool :=
  let y := l.take 30
  let n : Int := y.length
  if n < 14 then false
  else
    let xs := (List.range y.length).map fun i => -(i : Int)
    let sx := xs.foldl (· + ·) 0
    let sy := y.foldl (· + ·) 0
    let sxx := xs.foldl (fun a x => a + x * x) 0
    let sxy := (xs.zip y).foldl (fun a p => a + p.1 * p.2) 0
    let den := n * sxx - sx * sx
    let b := n * sxy - sx * sy
    sy * den + b * (90 * n - sx) ≤ 15 * n * den

/-- REASONS of a die as its conditions now hold; reasons 8 and 9 are set and cleared by starts and trips (R406). -/
def State.reasonsNow (s : State) (d : Nat) : Nat :=
  let old := s.ctr (oReasons d)
  let core := (List.range 12).any fun i => s.ctr (oCoreState (12 * d + i)) = 2
  let chan := (List.range 192).any fun i => s.chanBase (192 * d + i) = csDegraded
  let link := (List.range 6).any fun i => s.ctr (oLinkState (6 * d + i)) = 6
  let lim := (List.range 3).any fun i => s.ctr (oPointLimit (3 * d + i)) ≠ 0
  let clus := (List.range 3).any fun i => s.siteState d (406 + i) = 3
  let few := (s.sparesOn d).any fun p => 4 * p.1 < p.2
  let fit := (List.range 3).any fun i => trendBad (Tbl.get [] s.timingDays (3 * d + i))
  let ways := 4 < (List.range 6).foldl (fun n j => n + popcount 16 (s.ctr (oWaysRetired (6 * d + j)))) 0
  packLanes 1 ([core, chan, link, lim, clus, few, fit, s.ctr oLedgerState = 2, old.testBit 8, old.testBit 9,
    s.objD 1 oModuleState = 4, ways].map fun b => if b then 1 else 0)

/-- The level of a set of reasons (R406). -/
def reasonLevel (r : Nat) : Nat :=
  if r.testBit 10 then 3 else if r.testBit 1 || r.testBit 4 || r.testBit 6 || r.testBit 8 then 2 else if r = 0 then 0 else 1

/-- REASONS and RECOMMEND of every die and of the module brought up to date, and a READY module that has lost a part reads
DEGRADED (R406, R407). -/
def State.judge (s : State) : State :=
  let s := forUpTo 8 s fun s d =>
    let r := s.reasonsNow d
    (s.put (oReasons d) r).put (oRecommendDie d) (reasonLevel r)
  let s := s.put oRecommendModule ((List.range 8).foldl (fun m d => max m (s.ctr (oRecommendDie d))) 0)
  let lost := (List.range 8).any fun d => (List.range 409).any (fun x => s.siteState d x = 3) ||
    (List.range 192).any fun i => s.chanBase (192 * d + i) = csDegraded
  if lost && s.objD 1 oModuleState = 2 then s.put oModuleState 3 else s

/-! ### Retirements -/

/-- An action counted (R394, R399): REPAIRS, its fuse, and the fuse of a RETIRED site. -/
def State.repairCounted (s : State) (d : Nat) : State :=
  let s := s.bump 4 (oRepairs d) 1
  { s with floors := Tbl.set s.floors (4 * d + 2) (min 256 (max (Tbl.get 0 s.floors (4 * d + 2)) (s.ctr (oRepairs d)))) }

/-- A site after its action: CLEAN with an empty window, or RETIRED (R397, R399). -/
def State.siteAfter (s : State) (d x st act : Nat) : State :=
  let u := Tbl.get SiteW.reset s.sites (512 * d + x)
  let word := s.ctr (oSite d x)
  let u := { u with acting := false, buckets := if st = 0 then List.replicate 16 0 else u.buckets }
  let s := { s with sites := Tbl.set s.sites (512 * d + x) u
                    retFuse := if st = 3 then Tbl.set s.retFuse (512 * d + x) true else s.retFuse }
  ((s.setSite d x st act (if st = 0 then 0 else bits 55 40 word) (bits 31 0 word)).repairCounted d).judge

/-- A core is retired (R122, R399): its arrays with it; it breaks its instances. -/
def State.retireCore (s : State) (k : Nat) : State :=
  let s := s.put (oCoreState k) 2
  let s := forUpTo 4 s fun s j => s.put (oArrayState (4 * k + j)) 4
  (s.setCore k { s.core k with repairing := false }).recount.breakMember k

/-- A core becomes STALE (R402): with a trace record and its instances broken. -/
def State.staleCore (s : State) (k : Nat) : State :=
  if s.ctr (oCoreState k) = 0 then
    ((s.put (oCoreState k) 1).recount.breakMember k).trace 0x11 (0x200 + k / 12) 0 0 (k / 12 * 2 ^ 317 + k * 2 ^ 301 + 2 ^ 300)
  else s

/-- The copy engine that takes the arc ends of one that leaves service: the next in service, round from it; itself where none is. -/
def State.nextCe (s : State) (e : Nat) : Nat :=
  (((List.range 31).map fun j => (e + 1 + j) % 32).find? fun x => s.ctr (oCeState x) < 3).getD e

/-- The arc ends that a copy engine serves move to another, under the next epoch (R372). -/
def State.moveArcs (s : State) (e : Nat) : State :=
  let n := s.nextCe e
  if n = e then s
  else { s with arcs := s.arcs.map fun (x : Nat × Arc) =>
    (x.1, if x.2.live && x.2.ce = e then { x.2 with ce := n, epoch := (x.2.epoch + 1) % 65536 } else x.2) }

/-- A copy engine becomes STALE (R402): the arc ends that it serves move. -/
def State.staleCe (s : State) (e : Nat) : State :=
  if s.ctr (oCeState e) < 3 then
    (((s.put (oCeState e) 3).breakMember (96 + e)).moveArcs e).trace 0x11 (0x200 + e / 4) 0 0
      (e / 4 * 2 ^ 317 + (0x100 + e) * 2 ^ 301 + 2 ^ 300)
  else s

/-- Whether a core's shard has ended and nothing holds it: deferred actions begin then (R400). -/
def State.coreIdle (s : State) (k : Nat) : Bool := (s.core k).shard.isNone && !s.coreHalted k

/-- A link's messages that have not been acknowledged are to be sent again (R366). -/
def State.linkLost (s : State) (l : Nat) : State :=
  { s with arcs := s.arcs.map fun (e : Nat × Arc) =>
      (e.1, { e.2 with unacked := e.2.unacked.map fun (t : TxMsg) => if t.link = l then { t with sent := false } else t }) }

/-- A channel's state set; while it is cleared it takes that state as the clear ends (R237). -/
def State.setChanState (s : State) (c st : Nat) : State :=
  if s.chanState c = csClearing then { s with chan := Tbl.set s.chan c { s.chanU c with was := st } } else s.put (kChanState c) st

/-- The lowest-indexed spare channel of an octant, but for one that is itself going or lasting (R244). -/
def State.spareChan (s : State) (d : Nat) : Option Nat :=
  let ts := s.targetsOf d
  (List.range 192).find? fun i => s.chanOwner (192 * d + i) = 0xFF && s.chanBase (192 * d + i) < csTraining && !ts.contains i

/-- One write that a DEGRADED channel still holds is tried again: whether it completes is open. One that does not stays, or is discarded and
counted when it has been tried after a retraining (R245). -/
def State.retryWrite (s : State) (c : Nat) (last : Bool) (h : Nat × Nat) : State :=
  let ok := (Config.freeNat 1 s.free).toNat % 2 = 1
  let s := s.drew
  let drop (s : State) : State :=
    let u := s.chanU c
    { s with chan := Tbl.set s.chan c { u with held := dropFirst (· = h) u.held, waiting := u.waiting.filter (· ≠ h) } }
  if ok then (drop s).chanWriteOne c (32 * h.1) 0 32 h.2
  else if last then (drop s).bump 4 (oUncorrected (c / 32)) 1
  else s

/-- The writes that a DEGRADED channel holds are tried once more, those that have waited behind them after them (R245). -/
def State.heldRetry (s : State) (c : Nat) (last : Bool) : State :=
  ((s.chanU c).held ++ (s.chanU c).waiting).foldl (fun s h => s.retryWrite c last h) s

/-- A channel without a spare becomes DEGRADED and keeps serving (R245). -/
def State.degradeChan (s : State) (c : Nat) : State :=
  let d := c / 192
  let x := 192 + c % 192
  let word := s.ctr (oSite d x)
  let s := ((s.setChanState c csDegraded).heldRetry c false).recount
  (((s.setSite d x 2 11 (bits 55 40 word) (bits 31 0 word)).repairCounted d).judge).serveAll

/-- A channel begins to migrate to a spare (R244): its stack and the stack's slice are in RECOVERY. -/
def State.migrateChan (s : State) (c t : Nat) : State :=
  let s := (s.put (kChanOwner t) (s.chanOwner c)).put (kChanState t) csTarget
  let s := s.setChanState c csMigrating
  let s := { s with chan := Tbl.set s.chan c { s.chanU c with target := t } }
  (s.put (oStackState (c / 32)) 2).evictMode (c / 32) 3

/-- The physical index named by a site, or one of those that are not skipped where none was recorded. -/
def siteIndex (sk : List Nat) (at_ : Option Nat) (v : Nat) : Nat :=
  match at_ with
  | some i => i
  | none => let l := (List.range 34).filter fun i => !sk.contains i; l.getD (v % l.length) 0

/-- The row or column that the repair of an array's lasting site takes, none where the array has no such spare left (R121, R122): a row-bus site
takes a row, a column-path site a column, a single-cell site a column, or a row when none remains. Which of these a site is, and where it lies
when no parity error was recorded, is free (log entry 28). -/
def State.repairAxis (s : State) (a : Nat) : Option (Bool × Nat) :=
  let at_ := (Tbl.get ArrayU.reset s.arrays a).fault
  let v := (Config.arrayDefect a (s.ctr (oSite (a / 48) (a % 48)))).toNat
  let rs := s.skipped false a
  let cs := s.skipped true a
  let row := if rs.length < 2 then some (false, siteIndex rs (at_.map fun x => x.1) (bits 8 2 v)) else none
  let col := if cs.length < 2 then some (true, siteIndex cs (at_.map fun x => x.2) (bits 15 9 v)) else none
  if v % 4 = 1 then row else if v % 4 = 2 then col else if col.isSome then col else row

/-- Whether the action of a site's kind is permitted (R401): array spares by ARRAY_SOFT_REPAIR, the rest by RETIRE_ENABLE. -/
def State.permitted (s : State) (d x : Nat) : Bool :=
  let kind := siteKind x
  if kind = 0 && (s.repairAxis (48 * d + x)).isSome then s.nat oArraySoftRepair ≠ 0
  else (s.nat oRetireEnable).testBit kind

/-- The unit of a deferred action is free for it (R400). -/
def State.siteUnitFree (s : State) (d x : Nat) : Bool :=
  match siteKind x with
  | 0 => s.coreIdle (12 * d + x / 4) && s.ctr (oArrayState (48 * d + x)) ≠ 2
  | 1 => s.coreIdle (12 * d + (x - 48) / 4)
  | 5 => (s.ring (kCopyRing (4 * d + (x - 396)))).accepted.all fun c => !(c.op = 3 && c.begun && c.ended.isNone)
  | 7 => s.ctr (oPointLimit (3 * d + (x - 406))) < 3 || (List.range 4).all fun j => s.coreIdle (12 * d + 4 * (x - 406) + j)
  | _ => true

/-- The other half of a link. -/
def otherHalf (x : Nat) : Nat := if x % 2 = 0 then x + 1 else x - 1

/-- A repair of an array begins, with the soft skip that it puts in: its core pulls no shard (R121). -/
def State.startRepair (s : State) (a : Nat) (spare : Bool × Nat × Bool) : State :=
  let s := { s with arrays := Tbl.set s.arrays a { Tbl.get ArrayU.reset s.arrays a with spare := some spare } }
  (((s.put (oArrayState a) 2).recount).setCore (a / 4) { s.core (a / 4) with repairing := true })

/-- A soft skip that REPAIR_REQUEST asked for, when it can begin (R121, R124). -/
def State.wantsRepair (s : State) (a : Nat) : Option (Bool × Nat) :=
  if s.ctr (oArrayState a) < 2 && s.coreIdle (a / 4) then (Tbl.get ArrayU.reset s.arrays a).wants.head? else none

/-- A requested repair begins, where it can (R124). -/
def State.tryRequested (s : State) (a : Nat) : State :=
  match s.wantsRepair a with
  | some w => s.startRepair a (w.1, w.2, false)
  | none => s

/-- The action of a LASTING site begins (R399, R400). -/
def State.beginAction (s : State) (d x : Nat) : State :=
  if siteKind x = 0 && (s.wantsRepair (48 * d + x)).isSome then s.tryRequested (48 * d + x) else
  let u := Tbl.get SiteW.reset s.sites (512 * d + x)
  if s.siteState d x ≠ 2 || u.acting || !s.permitted d x || !s.siteUnitFree d x then s
  else
    let go := { s with sites := Tbl.set s.sites (512 * d + x) { u with acting := true } }
    match siteKind x with
    | 0 =>
      (match s.repairAxis (48 * d + x) with
        | some ax => go.startRepair (48 * d + x) (ax.1, ax.2, true)
        | none => go)
    | 2 =>
      let n := 6 * d + (x - 96) / 16
      let w := (x - 96) % 16
      (go.put (oWaysRetired n) (s.ctr (oWaysRetired n) ||| 2 ^ w)).reclaimWays d (2 ^ (n % 6)) (2 ^ w)
    | 3 =>
      let c := 192 * d + (x - 192)
      if s.chanBase c = csDegraded then s
      else
        (match s.spareChan d with
          | some t => go.migrateChan c (192 * d + t)
          | none => s.degradeChan c)
    | _ => go

/-- Whether an action begins at once, not when a unit's work has ended (R400). -/
def atOnce (x : Nat) : Bool := siteKind x ≠ 0 && siteKind x ≠ 1 && siteKind x ≠ 5

/-- The errors that the caches and the stacks count themselves (R227, R228, R249): corrected errors of a core's L1s, and both kinds of a slice's
and of a stack's. -/
def State.eccCount (s : State) (d x : Nat) (e : SiteEv) : State :=
  match siteKind x, e with
  | 1, .corrected => if (x - 48) % 4 = 3 then s.bump 4 (oL1EccCorrected (12 * d + (x - 48) / 4)) 1 else s
  | 2, .corrected => s.bump 4 (oEccCorrected (6 * d + (x - 96) / 16)) 1
  | 2, .uncorrectable => s.bump 4 (oEccUncorrected (6 * d + (x - 96) / 16)) 1
  | 3, .corrected => s.bump 4 (oCorrected (6 * d + (x - 192) / 32)) 1
  | 3, .uncorrectable => s.bump 4 (oUncorrected (6 * d + (x - 192) / 32)) 1
  | _, _ => s

/-- An uncorrectable error in sector `i` of an L1's line in a way of a set (R223): a clean sector is invalidated, and the duplicate tag follows;
a dirty one is poisoned. -/
def State.l1SectorError (s : State) (inst : Bool) (k set way i : Nat) : State :=
  match (s.l1Set inst k set).find? fun l => l.way = way && l.valid.testBit i with
  | none => s
  | some l =>
    if l.dirty.testBit i then s.l1Update inst k { l with poison := setBit l.poison i } false
    else (s.l1Update inst k { l with valid := clrBit l.valid i, poison := clrBit l.poison i } false).mirrorTag inst k l.line

/-- An uncorrectable error in sector `i` of a slice's line in a way of a set (R223). -/
def State.dcSectorError (s : State) (n set way i : Nat) : State :=
  let key := 8192 * n + set % 8192
  let hit (l : DcLine) : DcLine :=
    if l.way ≠ way || !l.valid.testBit i then l
    else if l.dirty.testBit i then { l with poison := putLane 4 i l.poison 15 }
    else { l with valid := clrBit l.valid i, poison := putLane 4 i l.poison 0 }
  { s with dc := Tbl.modify [] s.dc key fun ls => ls.map hit }

/-- What an uncorrectable error does to the data where it lies (R223, R242). Its place in a channel is the 32-byte word; in a slice's way the
sector in [1:0] and the set above it; in the L1 caches of a core the sector in [1:0], the way in [4:2], the set in [12:5], and bit [13] for the
instruction cache. -/
def State.eccHits (s : State) (d x : Nat) (e : SiteEv) (at_ : Nat) : State :=
  match siteKind x, e with
  | 1, .uncorrectable =>
    if (x - 48) % 4 = 3 then s.l1SectorError (at_.testBit 13) (12 * d + (x - 48) / 4) (bits 12 5 at_) (bits 4 2 at_) (at_ % 4) else s
  | 2, .uncorrectable => s.dcSectorError (6 * d + (x - 96) / 16) (at_ / 4) ((x - 96) % 16) (at_ % 4)
  | 3, .uncorrectable => s.chanPoisonOne (192 * d + (x - 192)) (32 * at_)
  | _, _ => s

/-- An error reported at a site (R396, R397, R399): its weight is counted, and a site that becomes LASTING has its action begun
when it need not wait. -/
def State.report (s : State) (d x : Nat) (e : SiteEv) : State :=
  let was := s.siteState d x
  let s := (s.eccCount d x e).siteError d x e
  if was ≠ 2 && s.siteState d x = 2 && atOnce x then s.beginAction d x else s

/-- The end of the action of a site (R399); `none` of it happens before it has begun. -/
def State.endAction (s : State) (d x : Nat) : State :=
  let u := Tbl.get SiteW.reset s.sites (512 * d + x)
  if !u.acting || s.siteState d x ≠ 2 then s
  else
    match siteKind x with
    | 0 =>
      let a := 48 * d + x
      if s.ctr (oArrayState a) = 2 then s else (s.retireCore (a / 4)).siteAfter d x 3 10
    | 1 =>
      let k := 12 * d + (x - 48) / 4
      if u.used < 4 then
        ({ s with sites := Tbl.set s.sites (512 * d + x) { u with used := u.used + 1 } }.staleCore k).siteAfter d x 0 3
      else (s.retireCore k).siteAfter d x 3 10
    | 2 => s.siteAfter d x 3 5
    | 3 => s
    | 4 =>
      let l := 6 * d + (x - 384) / 2
      let o := s.siteState d (otherHalf x)
      if o = 2 || o = 3 then
        ((((s.put (oLinkState l) 6).put (oLanes l) 0).linkLost l).siteAfter d x 3 6)
      else (s.put (oLanes l) 4).siteAfter d x 3 6
    | 5 =>
      let e := 4 * d + (x - 396)
      (((s.put (oCeState e) 4).breakMember (96 + e)).moveArcs e).siteAfter d x 3 7
    | 6 =>
      let p := Config.edgePeer (6 * d + (x - 400))
      let s := s.siteAfter d x 3 8
      if p < 48 then s.siteAfter (p / 6) (400 + p % 6) 3 8 else s
    | _ =>
      let c := 3 * d + (x - 406)
      if s.ctr (oPointLimit c) < 3 then (s.put (oPointLimit c) (s.ctr (oPointLimit c) + 1)).siteAfter d x 0 9
      else (forUpTo 4 s fun s j => s.retireCore (4 * c + j)).siteAfter d x 3 12

/-- The end of a repair of an array after 64 MATRIX cycles: the spare is in, and the array comes out STALE (R121). -/
def State.repairDone (s : State) (a : Nat) : State :=
  if s.ctr (oArrayState a) ≠ 2 then s
  else
    let u := Tbl.get ArrayU.reset s.arrays a
    match u.spare with
    | none => s
    | some (col, i, site) =>
      let s := (s.softSkip col a i).put (oArrayState a) 3
      let u := { u with wants := if site then u.wants else u.wants.drop 1, fault := none, spare := none }
      let s := { s with arrays := Tbl.set s.arrays a u }
      let more := (List.range 4).any fun j => s.ctr (oArrayState (a / 4 * 4 + j)) = 2
      let s := (s.setCore (a / 4) { s.core (a / 4) with repairing := more, freeAt := s.now }).recount
      if site then s.siteAfter (a / 48) (a % 48) 0 (if col then 2 else 1) else s

/-- The copied bytes count against the slice buckets of the partition that owns them, where they are read and where they are written (R239). -/
def State.chargeCopy (s : State) (c t : Nat) : State :=
  let p := s.chanOwner c
  if p < 16 then (s.bucketTake (sliceBucket (c / 32) p) (2 ^ 31)).bucketTake (sliceBucket (t / 32) p) (2 ^ 31) else s

/-- The bytes, poison marks and held writes of a channel copied to another; the writes that have waited go there too (R241, R244). -/
def State.copyChan (s : State) (c t : Nat) : State :=
  let m := Memory.clear s.hbm (t * 2 ^ 31) ((t + 1) * 2 ^ 31)
  let moved := (m.filter fun b => b.1 / 2 ^ 31 = c).foldl (fun m b => Memory.put m (t * 2 ^ 31 + b.1 % 2 ^ 31) b.2) m
  let pz := (s.poison.filter fun a => a / 2 ^ 26 = c).map fun a => t * 2 ^ 26 + a % 2 ^ 26
  let s := { s with hbm := moved, poison := pz ++ s.poison.filter fun a => a / 2 ^ 26 ≠ t }
  let s := ((s.chanU c).held ++ (s.chanU c).waiting).foldl (fun s h => s.chanWriteOne t (32 * h.1) 0 32 h.2) s
  { s with chan := Tbl.set s.chan c { s.chanU c with held := [], waiting := [], fails := [] } }

/-- A channel's copy ends (R244): it is RETIRED and every access goes to its target; the held writes go with it. -/
def State.migrationDone (s : State) (c : Nat) : State :=
  if s.chanState c ≠ csMigrating then s
  else
    let t := (s.chanU c).target
    let s := ((s.copyChan c t).chargeCopy c t)
    let s := ((s.put (kChanRemap c) (t % 192)).put (kChanState c) csRetired).bump 8 oMigrations 1
    let busy := (List.range 32).any fun i => s.chanBase (32 * (c / 32) + i) = csMigrating
    let s := if busy then s else (s.put (oStackState (c / 32)) 0).evictMode (c / 32) 0
    ((s.recount).siteAfter (c / 192) (192 + c % 192) 3 4).serveAll

/-- SITE_EVENT (R223, R242, R396, R397): the error found at a place of its site. -/
def execSiteEvent (d site : Nat) (e : SiteHit) (s : State) : Res :=
  onUnit s (isDie d && isSite site) ((s.eccHits d site e.ev e.place).report d site e.ev)

/-- SITE_ACTION_BEGIN (R400). -/
def execSiteActionBegin (d site : Nat) (s : State) : Res := onUnit s (isDie d && isSite site) (s.beginAction d site)

/-- ARRAY_REPAIR_DONE (R121). -/
def execArrayRepairDone (a : Nat) (s : State) : Res := onUnit s (isArray a) (s.repairDone a)

/-- CHANNEL_MIGRATION_DONE (R244). -/
def execChannelMigrationDone (ch : Nat) (s : State) : Res := onUnit s (isChan ch) (s.migrationDone ch)

/-- A bucket of a site's window ends (R397, R398): the oldest leaves, and a site whose count falls to 0 is CLEAN. -/
def State.bucketRoll (s : State) (d x : Nat) : State :=
  let u := Tbl.get SiteW.reset s.sites (512 * d + x)
  let bk := (0 :: u.buckets).take 16
  let cnt := bk.foldl (· + ·) 0
  let s := { s with sites := Tbl.set s.sites (512 * d + x) { u with buckets := bk, ver := s.winLog.length } }
  let word := s.ctr (oSite d x)
  let st := bits 63 61 word
  s.setSite d x (if st = 1 && cnt = 0 then 0 else st) (bits 60 56 word) cnt (bits 31 0 word)

/-- SITE_BUCKET_ROLL (R397). -/
def execSiteBucketRoll (d site : Nat) (s : State) : Res := onUnit s (isDie d && isSite site) (s.bucketRoll d site)

end Sys2Proof.Machine
end

