-- ==== Sys2Proof/Machine/Channels.lean ====
section
/-! DEFINITION. Owners of channels, interface errors, the patrol scrub and the rotating training slot (R236, R237, R241 to R243,
R245, R247). -/

namespace Sys2Proof.Machine

/-- A channel is cleared, and takes no access until CHANNEL_CLEAR_DONE (R237). -/
def State.startClear (s : State) (c p : Nat) : State :=
  let st := s.chanBase c
  let s := (s.put (kChanOwner c) p).chanClear c
  { s with chan := Tbl.set s.chan c { s.chanU c with was := st } }.put (kChanState c) csClearing

/-- One channel given a holder (R237): the present holder's channel is not cleared; any other is. A RETIRED channel's target, which holds its
data (R244), is cleared with it. -/
def State.giveChan (s : State) (c p : Nat) : State :=
  if s.chanOwner c = p then s
  else
    let t := s.served c
    (if t = c then s else s.startClear t p).startClear c p

/-- The layouts of regions all of whose channels have been cleared are in effect (R237). -/
def State.layoutSettle (s : State) : State :=
  let clearing (d p : Nat) : Bool := (List.range 192).any fun i =>
    s.chanOwner (192 * d + i) = p && (s.chanState (192 * d + i) = csClearing || s.chanState (s.served (192 * d + i)) = csClearing)
  { s with layout := s.layout.filter fun (e : Nat × Nat × List Nat) => clearing (e.1 / 32) (e.1 % 32) }

/-- The layouts that were in effect before a WRITE stay so for the regions that it changes and in which a channel is being cleared (R237). -/
def State.relayout (s : State) (old : List (Nat × Nat × List Nat)) : State :=
  { s with layout := old.foldl (fun (l : Tbl (Nat × List Nat)) (e : Nat × Nat × List Nat) => if s.layoutNow (e.1 / 32) (e.1 % 32) = e.2 then Tbl.erase l e.1 else Tbl.set l e.1 e.2) s.layout }.layoutSettle

/-- A channel's clear ends, and it returns to its state (R237). -/
def State.clearDone (s : State) (c : Nat) : State :=
  if s.chanState c = csClearing then (((s.put (kChanState c) (s.chanU c).was).layoutSettle).victimsEmpty (c / 192)).serveAll else s

/-- A write that still fails is kept in the held-write buffer of its channel, and waits at the controller behind a full one (R241). -/
def State.holdWrite (s : State) (c word v : Nat) : State :=
  let u := s.chanU c
  let upd (h : Nat × Nat) : Nat × Nat := if h.1 = word then (word, v) else h
  let u' := if (u.held ++ u.waiting).any (fun h => h.1 = word) then { u with held := u.held.map upd, waiting := u.waiting.map upd }
    else if u.held.length < 64 then { u with held := u.held ++ [(word, v)] }
    else { u with waiting := u.waiting ++ [(word, v)] }
  let s := { s with chan := Tbl.set s.chan c u' }
  if u'.held.length = 64 && u.held.length < 64 then s.report (c / 192) (192 + c % 192) .failedTest else s

/-- A pseudo-channel becomes SUSPECT and its exhausted retry counts at the site (R241). -/
def State.suspect (s : State) (c pc : Nat) : State :=
  let st := s.chanBase c
  let s := if st = csService || st = csSuspect then s.setChanState c csSuspect else s
  { s with chan := Tbl.set s.chan c { s.chanU c with suspect := Tbl.set (s.chanU c).suspect pc s.now } }.report (c / 192) (192 + c % 192) .exhausted

/-- The fourth retry of a transfer has failed, and the channel is retrained at once: a DEGRADED one's held writes are tried again (R241, R245). -/
def State.exhausted (s : State) (c pc n : Nat) : State :=
  let s := (s.bump 4 (oParityRetries (c / 32)) n).suspect c pc
  if s.chanBase c = csDegraded then s.heldRetry c true else s

/-- A parity error of a transfer on a pseudo-channel, and what came of its retries (R241, R245). -/
def State.parityNow (s : State) (c pc : Nat) (e : ParityCase) : State :=
  match e with
  | .recovered n => s.bump 4 (oParityRetries (c / 32)) n
  | .retrained => s.exhausted c pc 5
  | .readFails word =>
    let s := s.exhausted c pc 6
    { s with chan := Tbl.set s.chan c { s.chanU c with fails := (s.chanU c).fails ++ [word] } }
  | .writeFails word data =>
    let degraded := s.chanBase c = csDegraded
    let s := s.exhausted c pc 6
    if degraded then s.bump 4 (oUncorrected (c / 32)) 1 else s.holdWrite c word (leNat data)

/-- A parity error: its retries wait for the end of a training slot (R247). -/
def State.parityError (s : State) (c pc : Nat) (e : ParityCase) : State :=
  let u := s.chanU c
  if u.trainHeld then { s with chan := Tbl.set s.chan c { u with retries := u.retries ++ [(pc, e)] } } else s.parityNow c pc e

/-- A pseudo-channel has been SUSPECT for 24 h without an exhausted retry, the one for longest first (R241). -/
def State.suspectExpire (s : State) (c : Nat) : State :=
  let u := s.chanU c
  match u.suspect with
  | [] => s
  | a :: r =>
    let o := r.foldl (fun (m : Nat × Nat) x => if x.2 < m.2 then x else m) a
    let rest := Tbl.erase u.suspect o.1
    let s := { s.atTime (o.2 + 86400000000000) with chan := Tbl.set s.chan c { u with suspect := rest } }
    if rest.isEmpty && s.chanBase c = csSuspect then s.setChanState c csService else s

/-- What ECC makes of a word of a channel (R242). -/
def State.eccWord (s : State) (c word : Nat) (e : EccCase) : State :=
  match e with
  | .clean => s
  | .corrected => s.report (c / 192) (192 + c % 192) .corrected
  | .uncorrectable => (s.chanPoisonOne c (32 * word)).report (c / 192) (192 + c % 192) .uncorrectable

/-- The patrol passes that every channel of a stack has completed (R243, R249). -/
def State.scrubPasses (s : State) (st : Nat) : Nat :=
  (List.range 32).foldl (fun m i => min m ((s.chanU (32 * st + i)).patrol / 2 ^ 26)) ((s.chanU (32 * st)).patrol / 2 ^ 26)

/-- The patrol scrub reads a channel's next word (R243); it pauses while the channel is TRAINING, MIGRATING or CLEARING. -/
def State.patrolScrub (s : State) (c : Nat) (e : EccCase) : State :=
  let st := s.chanState c
  if st = csTraining || st = csMigrating || st = csClearing then s
  else
    let u := s.chanU c
    let before := s.scrubPasses (c / 32)
    let p := s.chanOwner c
    let s := s.eccWord c (u.patrol % 2 ^ 26) e
    let s := { s with chan := Tbl.set s.chan c { s.chanU c with patrol := u.patrol + 1 } }
    let s := if p < 16 then s.bucketTake (sliceBucket (c / 32) p) 32 else s
    s.bump 8 (oScrubPasses (c / 32)) (s.scrubPasses (c / 32) - before)

/-! ### Training slots (R247) -/

/-- Whether the rotation passes over a channel. -/
def State.trainSkips (s : State) (c : Nat) : Bool :=
  let st := s.chanState c
  !(st = csService || st = csDegraded) || s.objD 1 (oEvictMode (c / 32)) = 3

/-- A slot begins with the next channel of the rotation (R247): its new requests are held. -/
def State.trainSlot (s : State) (d : Nat) : State :=
  let t := Tbl.get TrainSlot.reset s.train d
  if s.nat oTrainSlotPeriod = 0 || t.chan.isSome then s
  else
    match ((List.range 192).map fun i => (t.next + i) % 192).find? fun i => !s.trainSkips (192 * d + i) with
    | none => s
    | some i =>
      let c := 192 * d + i
      let was := s.chanState c
      let s := { s with train := Tbl.set s.train d { next := (i + 1) % 192, chan := some c, was := was }
                        chan := Tbl.set s.chan c { s.chanU c with trainHeld := true, was := was } }
      s.put (kChanState c) csTraining

/-- The slot ends (R247): the channel is as before it, the parity retries that waited for its end are made, and the held requests are released in
order. -/
def State.trainRelease (s : State) (d : Nat) (c : Nat) : State :=
  let t := Tbl.get TrainSlot.reset s.train d
  let u := s.chanU c
  let s := { s with train := Tbl.set s.train d { t with chan := none }
                    chan := Tbl.set s.chan c { u with trainHeld := false, retries := [] } }
  let s := if s.chanState c = csTraining then s.put (kChanState c) t.was else s
  (((u.retries.foldl (fun s r => s.parityNow c r.1 r.2) s).victimsEmpty d).serveAll)

/-- A signed 32-bit minimum since the last daily record (R404). -/
def State.minI32 (s : State) (key : Nat) (v : Int) : State :=
  match s.val key with
  | none => s.put key (twos 32 v)
  | some o => s.put key (twos 32 (min (sext 32 o) v))

/-- A slot's retraining ends (R247, R404). -/
def State.trainEnd (s : State) (d : Nat) (margin : Int) : State :=
  match (Tbl.get TrainSlot.reset s.train d).chan with
  | none => s
  | some c =>
    let s := (s.minI32 (oHbmMargin d (c % 192)) margin).trainRelease d c
    if s.chanBase c = csDegraded then s.heldRetry c true else s

/-- A slot is abandoned after 20 µs (R247). -/
def State.trainAbandon (s : State) (d : Nat) : State :=
  match (Tbl.get TrainSlot.reset s.train d).chan with
  | none => s
  | some c => ((s.bump 4 oTrainSlotAbandoned 1).trainRelease d c).report d (192 + c % 192) .slotAbandoned

/-- CHANNEL_CLEAR_DONE (R237). -/
def execChannelClearDone (ch : Nat) (s : State) : Res := onUnit s (isChan ch) (s.clearDone ch)
/-- HBM_PARITY_ERROR (R241). -/
def execHbmParityError (ch pc : Nat) (e : ParityCase) (s : State) : Res :=
  onUnit s (isChan ch && isPseudo pc && e.onPseudo pc) (s.parityError ch pc e)
/-- SUSPECT_EXPIRE (R241). -/
def execSuspectExpire (ch : Nat) (s : State) : Res := onUnit s (isChan ch) (s.suspectExpire ch)
/-- PATROL_SCRUB (R243). -/
def execPatrolScrub (ch : Nat) (e : EccCase) (s : State) : Res := onUnit s (isChan ch) (s.patrolScrub ch e)
/-- TRAIN_SLOT (R247). -/
def execTrainSlot (d : Nat) (s : State) : Res := onUnit s (isDie d) (s.trainSlot d)
/-- TRAIN_SLOT_END (R247). -/
def execTrainSlotEnd (d : Nat) (marginPs : Int) (s : State) : Res := onUnit s (isDie d) (s.trainEnd d marginPs)
/-- TRAIN_SLOT_ABANDON (R247). -/
def execTrainSlotAbandon (d : Nat) (s : State) : Res := onUnit s (isDie d) (s.trainAbandon d)

end Sys2Proof.Machine
end

