-- ==== Sys2Proof/Machine/Power.lean ====
section
/-! DEFINITION. The power manager: the cap and its shares, operating points, tangent hints, droop and the other fast limits, and
margin samples (R327, R378 to R391, R404). -/

namespace Sys2Proof.Machine

/-! ### Reasons for throttling (R385, R390) -/

/-- A cluster's power state. -/
def State.cluster (s : State) (c : Nat) : ClusterU := Tbl.get ClusterU.reset s.clusters c
/-- The same replaced. -/
def State.setCluster (s : State) (c : Nat) (u : ClusterU) : State := { s with clusters := Tbl.set s.clusters c u }

/-- Reasons by number: 1 power cap, 2 thermal, 3 droop, 4 current limit, 5 under-voltage, 6 ramp limiter, 7 tangent pre-ramp,
8 external throttle pin (R390). -/
def State.reason (s : State) (c n : Nat) : Bool := (s.ctr (oThrActive c)).testBit (n - 1)

/-- Whether a reason holds any cluster. -/
def State.reasonAny (s : State) (n : Nat) : Bool := (List.range 24).any fun c => s.reason c n

/-- Issue duty of a partition's cores in sixteenths (R381). -/
def State.dutyOf (s : State) (p : Nat) : Nat := Tbl.get 16 s.duty p

/-- The time since the last account is added to the reasons that hold, and to the partitions that are duty-limited (R390). -/
def State.thrTick (s : State) : State :=
  let dt := s.now - s.powerAt
  let s := forUpTo 8 s fun s n => if s.reasonAny (n + 1) then s.bump 8 (oThrNs n) dt else s
  let s := forUpTo 16 s fun s p => if s.dutyOf p < 16 then s.bump 8 (oShareNs p) dt else s
  { s with powerAt := s.now }

/-- A reason begins or ends on a cluster (R390, R391). -/
def State.setReason (s : State) (c n : Nat) (on : Bool) : State :=
  if s.reason c n = on then s
  else
    let s := s.thrTick
    let s := if on && !s.reasonAny n then s.put (oThrLast (n - 1)) s.mtime else s
    let v := s.ctr (oThrActive c)
    s.put (oThrActive c) (if on then setBit v (n - 1) else clrBit v (n - 1))

/-- Stretching follows droop and the current limit (R385). -/
def State.restretch (s : State) (c : Nat) : State :=
  s.setCluster c { s.cluster c with stretched := s.reason c 3 || s.reason c 4 }

/-! ### Operating points (R380, R388) -/

/-- Nominal voltages of the points, mV (R380). -/
def nominalMv (n : Nat) : Nat := [800, 720, 660, 600].getD n 600

/-- The voltage a cluster runs a point at: its calibrated voltage with the guard band of a provisional point, or the nominal one
before its first calibration (R388). -/
def State.pointMv (s : State) (c n : Nat) : Nat :=
  if (s.cluster c).calibrated.testBit n then
    lane 16 n (s.nat (oCalVolt c)) + if (s.ctr (oProvisional c)).testBit n then 25 else 0
  else nominalMv n

/-- A point's calibrated voltage, provisional under a load below 30 % (R388). -/
def State.calibrate (s : State) (c n mv load : Nat) : State :=
  let u := s.cluster c
  let pv := s.ctr (oProvisional c)
  let s := s.setCluster c { u with calibrated := setBit u.calibrated n }
  (s.put (oCalVolt c) (putLane 16 n (s.nat (oCalVolt c)) mv)).put (oProvisional c) (if load < 30 then setBit pv n else clrBit pv n)

/-- A point that cannot be calibrated within 0.90 V is an event at the cluster's site (R388, R396). -/
def State.judgeCal (s : State) (c n : Nat) : State :=
  if 900 < s.pointMv c n then s.report (c / 3) (406 + c % 3) .failedTest else s

/-- A point is calibrated at its first use, at a voltage that the manual does not give (R388, log entry 5). -/
def State.firstUse (s : State) (c n : Nat) : State :=
  if (s.cluster c).calibrated.testBit n then s
  else ((s.calibrate c n (5 * ((Config.freeNat 2 s.free).toNat % 8192)) ((s.cluster c).draw / 2750)).drew).judgeCal c n

/-- A cluster runs at a calibrated point (R380). -/
def State.runAt (s : State) (c n : Nat) : State :=
  let s := s.setCluster c { s.cluster c with target := n, slewing := false }
  (s.put (oPoint c) n).put (oVoltage c) (s.pointMv c n)

/-- A cluster comes to a point, calibrated at its first use. A point above 0.90 V gives way to the next slower one, of which there are `f` at most
(R388). -/
def State.enterPoint (s : State) (c : Nat) : Nat → Nat → State
  | n, 0 => (s.firstUse c n).runAt c n
  | n, f + 1 =>
    let s := s.firstUse c n
    if 900 < s.pointMv c n && n < 3 then s.enterPoint c (n + 1) f else s.runAt c n

/-- A cluster is sent to a point (R380): going down it is there at once, going up its voltage rises first. -/
def State.goPoint (s : State) (c n : Nat) : State :=
  let cur := s.ctr (oPoint c)
  let u := s.cluster c
  if n = cur then s.setCluster c { u with target := n, slewing := false }
  else if cur < n then s.enterPoint c n 3
  else (s.setCluster c { u with target := n, slewing := true }).put (oVoltage c) (s.pointMv c n)

/-- The voltage has settled and the dividers change (R380). -/
def State.pointSettled (s : State) (c : Nat) : State :=
  let u := s.cluster c
  if u.slewing then s.enterPoint c (max u.target (s.ctr (oPointLimit c))) 3 else s

/-! ### Tangent hints (R383, R384) -/

/-- A partition's share headroom in mW for a cluster (R383): its share of the last grant, less what it draws and what it has reserved on others. -/
def State.headroom (s : State) (p c : Nat) : Nat :=
  let g := s.grants.getD 0 0 - s.grants.getD 3 0
  let held := ((List.range 24).filter fun x => x ≠ c && (s.cluster x).resvPart = p).foldl (fun n x => n + (s.cluster x).resv) 0
  s.objD (if p = 0 then 1000 else 0) (oShare p) * g - 1000 * s.ctr (oPartPower p) - held

/-- A hint for a cluster that covers `n` of its cores, for partition `p`: level `l`, lead `t` µs (R383, R384). -/
def State.hint (s : State) (c n l t p : Nat) : State :=
  let u := s.cluster c
  if l = 0 then s.setCluster c { u with resv := 0, goal := 0, raiseAt := 0 }
  else
    let per := l * 68750 / 15
    let r := min (n * (per - u.draw / 4)) (s.headroom p c)
    let slew := (s.pointMv c (s.ctr (oPointLimit c)) - s.nat (oVoltage c)) * 100
    s.setCluster c { u with
      resv := r, goal := n * per, resvPart := p
      resvEnd := s.now + 1000 * t + s.objD 200000 oTangentHold
      raiseAt := max 1 (s.now + 1000 * t - slew - 10000) }

/-- The reservation lapses (R384). -/
def State.lapse (s : State) (c : Nat) : State :=
  s.setCluster c { s.cluster c with resv := 0, goal := 0, raiseAt := 0 }

/-- TANGENT_LAPSE (R384): the timer of a cluster that holds a reservation has run out. -/
def State.tangentLapse (s : State) (c : Nat) : State :=
  let u := s.cluster c
  if u.goal = 0 then s else (s.atTime u.resvEnd).lapse c

/-! ### Fast limits (R378, R385) -/

/-- The current limit begins or ends on every cluster. -/
def State.setLimit (s : State) (on : Bool) : State :=
  forUpTo 24 { s with currentLimit := on } fun s c => (s.setReason c 4 on).restretch c

/-- Input power against the cap and 12 kW. -/
def State.limitCurrent (s : State) (watts : Nat) : State :=
  let cap := s.objD 9600 oPowerCap
  if 12000 < watts || (cap < watts && 10000000 ≤ s.overCap) then s.setLimit true
  else if watts ≤ cap then { s with overCap := 0 }.setLimit false
  else s

/-- A supply voltage of VIN48 (R385). -/
def State.supply (s : State) (mv : Nat) : State :=
  let s := s.put oVin48Mv mv
  if mv < 42000 then forUpTo 24 s fun s c => s.setReason c 5 true
  else if 43000 < mv then forUpTo 24 s fun s c => s.setReason c 5 false
  else s

/-- THROTTLE_N asserted (R385). -/
def State.throttleOn (s : State) : State :=
  forUpTo 24 { s with throttle := true } fun s c =>
    let s := s.setReason c 8 true
    s.setCluster c { s.cluster c with stretched := true }

/-- THROTTLE_N deasserted (R385). -/
def State.throttleOff (s : State) : State :=
  forUpTo 24 { s with throttle := false } fun s c => (s.setReason c 8 false).restretch c

/-- A droop begins (R385, R391). -/
def State.droopOn (s : State) (c : Nat) : State := ((s.setReason c 3 true).restretch c).bump 4 (oDroopEvents c) 1
/-- A droop ends (R385). -/
def State.droopOff (s : State) (c : Nat) : State := (s.setReason c 3 false).restretch c

/-! ### The loop (R379, R381, R384, R387) -/

/-- The bin of a cluster's voltage and temperature (R409). -/
def vtBin (mv : Nat) (t : Int) : Nat :=
  let v := if mv < 625 then 0 else min 5 (1 + (mv - 625) / 50)
  let x := if t < 45000 then 0 else min 7 (1 + ((t - 45000) / 10000).toNat)
  8 * v + x

/-- The seconds of the clock that have passed since the last account, in each cluster's bin (R409). -/
def State.vtTick (s : State) (temps : List Int) : State :=
  let n := s.now / 10 ^ 9 - s.powerAt / 10 ^ 9
  if n = 0 then s
  else forUpTo 24 s fun s c => s.bump 8 (oVtSeconds (c / 3) (vtBin (s.nat (oVoltage c)) (temps.getD c 0))) n

/-- The measurements of a loop (R390, R391). -/
def State.measure (s : State) (m : PowerSample) : State :=
  let s := ((s.put oPowerNow m.input).peak 4 oPowerPeak m.input).put oAuxMv m.aux
  let s := s.put oOutletTemp (twos 32 m.outlet)
  let s := forUpTo 16 s fun s p => s.put (oPartPower p) (m.parts.getD p 0)
  let s := forUpTo 48 s fun s i => s.put (oStackTemp i) (twos 32 (m.stackTemps.getD i 0))
  let s := forUpTo 24 s fun s c =>
    (s.put (oClTemp c) (twos 32 (m.temps.getD c 0))).setCluster c { s.cluster c with draw := 1000 * m.clusters.getD c 0 }
  let thr := sext 32 (s.objD 100000 oThermThrottle)
  { s with hot := m.temps.any (thr ≤ ·) || m.stackTemps.any (thr ≤ ·) }

/-- The cap divided among the domains (R379): what compute, memory and links are granted. -/
def State.divideCap (s : State) (m : PowerSample) (demand : Nat) : List Nat :=
  let want (d : Nat) : Nat := if d = 0 then demand else if d = 1 then m.mem else m.link
  let top (d : Nat) : Nat :=
    if d = 0 then s.objD 6600 oComputeMax else if d = 1 then s.objD 1540 oMemMax else s.objD 480 oLinkMax
  let o := s.objD 6 oDomainOrder
  let left := s.objD 9600 oPowerCap - m.fixed
  let a := bits 1 0 o
  let b := bits 3 2 o
  let c := bits 5 4 o
  let ga := min left (min (want a) (top a))
  let gb := min (left - ga) (min (want b) (top b))
  let gc := min (left - ga - gb) (top c)
  let give (d : Nat) : Nat := if d = a then ga else if d = b then gb else if d = c then gc else 0
  [give 0, give 1, give 2, m.idle]

/-- Partitions above their share are held down by issue duty, in ascending order, until the excess is gone (R381 step 1); the
duty itself is open (log entry 5). Answers the excess that is left. -/
def State.dutyStep (s : State) (m : PowerSample) (grant excess : Nat) : State × Nat :=
  forUpTo 16 (s, excess) fun (a : State × Nat) p =>
    let resv := ((List.range 24).filter fun c => (a.1.cluster c).resvPart = p).foldl (fun n c => n + (a.1.cluster c).resv / 1000) 0
    let draw := m.parts.getD p 0 + resv
    let share := a.1.objD (if p = 0 then 1000 else 0) (oShare p) * (grant - m.idle) / 1000
    let cut := min (draw - share) a.2
    if cut = 0 then ({ a.1 with duty := Tbl.erase a.1.duty p }, a.2)
    else ({ a.1 with duty := Tbl.set a.1.duty p (1 + (Config.freeNat 3 a.1.free).toNat % 16) }.drew, a.2 - cut)

/-- The cluster that draws the most among those that can still step down (R381 step 2). -/
def State.heaviest (s : State) (m : PowerSample) : Option Nat :=
  (List.range 24).foldl (fun (b : Option Nat) c =>
    if (s.cluster c).gated || 3 ≤ s.ctr (oPoint c) then b
    else match b with
      | none => some c
      | some x => if m.clusters.getD x 0 < m.clusters.getD c 0 then some c else b) none

/-- A cluster's point in a loop (R381, R384, R385, R387): `down` for the cap, `free` when compute demand is within its grant. A point at which the
cluster runs for the first time is calibrated (R388). -/
def State.clusterLoop (s : State) (c : Nat) (temp : Int) (down free : Bool) : State :=
  let u := s.cluster c
  if u.gated then s
  else
    let cur := if u.slewing then u.target else s.ctr (oPoint c)
    let lim := s.ctr (oPointLimit c)
    let thr := sext 32 (s.objD 100000 oThermThrottle)
    let hot := thr ≤ temp
    let s := if hot then s.setReason c 2 true else s
    let warm := s.reason c 2
    let cool := warm && temp < thr - 2000
    let up := cool && !down && u.upAt + 100000 ≤ s.now
    let held := s.reason c 1 || s.reason c 5 || s.reason c 7 || s.reason c 8
    let raise := u.raiseAt ≠ 0 && u.raiseAt ≤ s.now && !warm && !held
    let w := cur + (if hot then 1 else 0) + (if down then 1 else 0)
    let w := if up then w - 1 else if raise then lim else if free && !warm && !held then w - 1 else w
    let w := if s.reason c 5 then 3 else if s.reason c 8 then max w (s.objD 2 oExtPoint) else w
    let w := min 3 (max w lim)
    let s := s.setCluster c { s.cluster c with
      upAt := if up then s.now else u.upAt
      raiseAt := if raise then 0 else u.raiseAt }
    let s := if cool && (w ≤ lim || s.reason c 5 || s.reason c 8) then s.setReason c 2 false else s
    let s := if w ≠ cur then s.goPoint c w
      else if !u.slewing && !u.calibrated.testBit cur then s.enterPoint c cur 3 else s
    if u.goal ≠ 0 && u.goal ≤ (s.cluster c).draw then (s.restretch c).lapse c else s.restretch c

/-- One loop of the power manager (R379). -/
def State.powerLoop (s : State) (m : PowerSample) : State :=
  let s := (s.vtTick m.temps).thrTick
  let s := (s.measure m).supply m.vin48
  let cap := s.objD 9600 oPowerCap
  let s := { s with overCap := if cap < m.input then s.overCap + 10000 else 0 }.limitCurrent m.input
  let resv := (List.range 24).foldl (fun n c => n + (s.cluster c).resv) 0 / 1000
  let demand := m.compute + resv
  let s := { s with grants := s.divideCap m demand }
  let g := s.grants.getD 0 0
  let d : State × Nat := s.dutyStep m g (demand - g)
  let s := d.1
  let worst := if d.2 = 0 then none else s.heaviest m
  let why := if g < m.compute then 1 else 7
  forUpTo 24 s fun s c =>
    let down : Bool := worst = some c
    let dutied := (List.range 4).any fun i => s.dutyOf (s.corePart (4 * c + i)) < 16
    let on := dutied || down || (g < demand && (s.reason c 1 || s.reason c 7))
    let s := (s.setReason c 1 (on && why = 1)).setReason c 7 (on && why = 7)
    s.clusterLoop c (m.temps.getD c 0) down (demand ≤ g)

/-! ### Margins and energy (R327, R388, R404) -/

/-- The worst SRAM minimum voltage since the last daily record (R404, R409). -/
def State.sramWorst (s : State) (key v : Nat) : State :=
  match s.val key with
  | none => s.put key v
  | some x => s.put key (max x v)

/-- A margin sampled (R388, R404): of a timing sample, `load` in percent and `mv` the lowest voltage in 5 mV steps at which the
margin is 15 ps or more. -/
def State.margin (s : State) (m : MarginSample) : State :=
  match m with
  | .timing c ps load mv =>
    let n := s.ctr (oPoint c)
    let s := (s.put (oMarginPs c) (twos 32 ps)).minI32 (oTimingMin (c / 3) (c % 3)) ps
    if ps < 15 then ((s.calibrate c n mv load).judgeCal c n).enterPoint c n 3
    else if (s.ctr (oProvisional c)).testBit n && 80 ≤ load then
      (s.put (oProvisional c) (clrBit (s.ctr (oProvisional c)) n)).enterPoint c n 3
    else s
  | .sram k mv => s.sramWorst (oSramVmin (k / 12) (k % 12)) mv
  | .lane l n mv =>
    let s := s.minI32 (oLaneEye (l / 6) (8 * (l % 6) + n)) mv
    let x := Tbl.get Link.reset s.links l
    let es := Tbl.set x.eyes n mv
    { s with links := Tbl.set s.links l { x with eyes := es } }.put (oEyeMargin l)
      (twos 32 (es.foldl (fun (a : Int) (e : Nat × Int) => min a e.2) mv))

/-- The energy of a recalibration period joins the totals (R327, R328, R390). -/
def State.energy (s : State) (e : EnergySample) : State :=
  let s := forUpTo 16 s fun s p => s.bump 8 (oEnergyMj p) (e.parts.getD p 0)
  (s.bump 8 oIdleEnergy e.idle).bump 8 oEnergyTotal e.total

/-! ### Meanings -/

/-- POWER_LOOP (R379). -/
def execPowerLoop (m : PowerSample) (s : State) : Res := .next (s.powerLoop m)
/-- POINT_SETTLED (R380). -/
def execPointSettled (c : Nat) (s : State) : Res := onUnit s (isCluster c) (s.pointSettled c)
/-- TANGENT_LAPSE (R384). -/
def execTangentLapse (c : Nat) (s : State) : Res := onUnit s (isCluster c) (s.tangentLapse c)
/-- DROOP (R385). -/
def execDroop (c : Nat) (s : State) : Res := onUnit s (isCluster c) (s.droopOn c)
/-- DROOP_END (R385). -/
def execDroopEnd (c : Nat) (s : State) : Res := onUnit s (isCluster c) (s.droopOff c)
/-- CURRENT_LIMIT (R385). -/
def execCurrentLimit (watts : Nat) (s : State) : Res := .next (s.limitCurrent watts)
/-- VIN48_UNDERVOLTAGE (R385). -/
def execVin48Undervoltage (mv : Nat) (s : State) : Res := .next (s.supply mv)
/-- THROTTLE_N_ASSERT (R385). -/
def execThrottleAssert (s : State) : Res := .next s.throttleOn
/-- THROTTLE_N_DEASSERT (R385). -/
def execThrottleDeassert (s : State) : Res := .next s.throttleOff
/-- MARGIN_SAMPLE (R404). -/
def execMarginSample (m : MarginSample) (s : State) : Res := onUnit s (marginOk m) (s.margin m)
/-- ENERGY_RECALIBRATE (R327). -/
def execEnergyRecalibrate (e : EnergySample) (s : State) : Res := .next (s.energy e)

end Sys2Proof.Machine
end

