-- ==== Sys2Proof/Machine/Signals.lean ====
section
/-! DEFINITION. Signals, the watch tables and additions (R329 to R333, R336), messages put on an arc (R363 to R365), and chord
instances (R337 to R343). -/

namespace Sys2Proof.Machine

/-! ### Arcs, as far as a sender is concerned (R363 to R365) -/

/-- An arc end by slot. -/
def State.arc (s : State) (slot : Nat) : Arc := Tbl.get Arc.reset s.arcs slot
/-- The same replaced. -/
def State.setArc (s : State) (slot : Nat) (a : Arc) : State := { s with arcs := Tbl.set s.arcs slot a }

/-- A context's carrier arc to a vertex (R363, R367). -/
def State.carrier (s : State) (h vertex : Nat) : Option Nat :=
  (s.arcs.find? fun e => e.2.live && e.2.kind = 1 && e.2.ctx = h && e.2.vertex = vertex).map fun e => e.1

/-- The module's vertex (R357). -/
def State.vertex (s : State) : Nat := s.nat oVertexId

/-- A message with nothing in it but its arc's addressing. -/
def blankMsg : PMsg :=
  { dv := 0, sv := 0, hops := 0, mtype := 0, sig := none, addrk := 0, darc := 0, depoch := 0, sarc := 0, mseq := 0, sdie := 0,
    kctr := 0, addr := 0, opx := 0, name := 0, len := 0, cls := 0, data := [], key := 0, intact := true }

/-- A message numbered and kept for sending on an arc (R365): none while 256 are unacknowledged, or the arc is BROKEN. The
command that sent it is given by ring and ASEQ, 0 for none. -/
def State.arcSend (s : State) (slot mtype addrk addr opx len : Nat) (data : List Byte) (sig : Option (Nat × Nat)) (ring aseq : Nat) :
    Option State :=
  let a := s.arc slot
  if !a.live || a.state = 3 || 256 ≤ a.unacked.length then none
  else
    let n := (a.next + 1) % 2 ^ 32
    let m : PMsg := { blankMsg with
      dv := a.vertex, sv := s.vertex, mtype := mtype, sig := sig, addrk := addrk, darc := a.darc, depoch := a.depoch, sarc := slot
      mseq := n, sdie := a.ce / 4, addr := addr, opx := opx, len := max len data.length, data := data }
    let t : TxMsg := { m := m, ring := ring, aseq := aseq, sent := false, lastTx := 0, link := 0, resends := 0, nacks := 0 }
    let s := s.setArc slot { a with next := n, unacked := a.unacked ++ [t] }
    some (if ring = 0 then s else s.setCmd ring aseq fun c => { c with arcWait := c.arcWait + 1 })

/-- An addition to a peer word (R333): on the last data message that the same command sent on the arc, if it waits still, or alone. None while the arc takes no message. -/
def State.arcSignal (s : State) (slot va v ring aseq : Nat) : Option State :=
  let a := s.arc slot
  let alone := s.arcSend slot 0 1 0 0 0 [] (some (va, v)) ring aseq
  let mine (t : TxMsg) : Bool := t.ring = ring && t.aseq = aseq && t.m.mtype ≤ 1 && !t.m.data.isEmpty
  match (List.range a.unacked.length).reverse.find? fun i => (a.unacked[i]?).any mine with
  | some i =>
    (match a.unacked[i]? with
    | some t =>
      if !t.sent && t.m.sig.isNone then
        some (s.setArc slot { a with unacked := setNth a.unacked i { t with m := { t.m with sig := some (va, v) } } })
      else alone
    | none => alone)
  | none => alone

/-! ### Waiters (R331, R332) -/

/-- A waiter takes an entry, is counted where the table is full, or is released at once where its word already holds the value
(R331). -/
def State.watchFor (s : State) (who : Waiter) (h va v : Nat) : State :=
  if s.watch.any fun w => w.who = who then s
  else if s.sigReached h va v then s.release who
  else
    let d := homeDie ((s.sigPa h va).getD 0)
    let free := (s.watch.filter fun w => w.die = d && w.entry).length < 512
    let s := if free then s else s.bump 4 oWatchOverflows 1
    { s with watch := s.watch ++ [{ who := who, ctx := h, va := va, value := v, die := d, entry := free }] }

/-- A waiter leaves the tables without being released. -/
def State.unwatch (s : State) (who : Waiter) : State := { s with watch := s.watch.filter fun w => w.who ≠ who }

/-! ### Additions (R330, R333, R336) -/

/-- An addition that no arc carries (R367, R373): the shard that makes it ends with the code, or the command whose shards have ended. -/
def State.lostAdd (s : State) (x : SigAdd) (code : Nat) : State :=
  let cmd := s.setCmd x.ring x.aseq fun c =>
    match c.ended with
    | none => { c with code := if c.code = 0 then code else c.code }
    | some (2, _) => { c with ended := some (4, code) }
    | some _ => c
  if x.ring = 0 then s
  else
    match x.who with
    | .core k =>
      if (s.core k).shard.any (fun h => h.ring = x.ring && h.aseq = x.aseq) && s.running k then s.failShard k code else cmd
    | _ => cmd

/-- An addition to a signal (R330, R333): performed at the home of its word, or sent on the arc to its peer. It stays with those not yet performed
while its word has no translation, its home or its buckets hold it up, or the arc takes no message; with no carrier arc, or one that is BROKEN, it is
lost (log entry 92). -/
def State.addSignal (s : State) (x : SigAdd) : State :=
  let later (s : State) : State := { s with sigAdds := s.sigAdds ++ [x] }
  match s.xlate x.ctx x.va with
  | none => if (s.ctxOf x.ctx).isSome then later s else s
  | some (.mem pa _) =>
    if s.rangeShut pa 8 then later s
    else
      match s.letIn x.who pa 8 true with
      | (t, false) => later t
      | (t, true) =>
        let fn := ((t.ctxOf x.ctx).map fun c => c.fn).getD 0
        let t := ((t.admitDone x.who pa 8).agentAtomFor x.who fn .add pa 8 x.value 0).1
        let p := (t.ring x.ring).part
        if x.ring = 0 then t
        else if pa < 8 * octantBytes then (t.setCmd x.ring x.aseq fun c => { c with memBytes := c.memBytes + 8 }).bump 8 (oMemBytes p) 8
        else (t.setCmd x.ring x.aseq fun c => { c with hostBytes := c.hostBytes + 8 }).bump 8 (oHostBytes p) 8
  | some (.peer vertex addr) =>
    match s.carrier x.ctx vertex with
    | some slot =>
      match s.arcSignal slot addr x.value x.ring x.aseq with
      | some t => t
      | none =>
        if (s.arc slot).state ≠ 3 then later s else s.lostAdd x 0x0C02
    | none => s.lostAdd x 0x0C04

/-- The live signal of a handle. -/
def State.sigOf (s : State) (h : Nat) : Option SigObj :=
  let x := Tbl.get SigObj.reset s.sigs (hSlot h)
  if hKind h = 4 && s.fresh h && x.live then some x else none

/-- An addition to the signal of a handle. -/
def State.addHandleSig (s : State) (h v : Nat) : State :=
  match s.sigOf h with
  | some x => s.addSignal ⟨x.ctx, x.va, v, .link 0, 0, 0⟩
  | none => s

/-- SIGNAL_ADD (R330): the addition is taken from those that wait, if it is one of them, and performed. A sequencer's waits in
its core until the effects of earlier words are complete (R141). -/
def State.signalAdd (s : State) (h va v : Nat) : State :=
  let mine (a : SigAdd) : Bool := a.ctx = h && a.va = va && a.value = v
  let x := (s.sigAdds.find? mine).getD ⟨h, va, v, .link 0, 0, 0⟩
  { s with sigAdds := dropFirst mine s.sigAdds }.addSignal x

/-- SIG_POLL (R331): every waiter is examined again. -/
def State.sigPoll (s : State) : State := s.examine fun _ => true

/-! ### Chord instances (R337 to R343) -/

/-- An instance beyond its objects. -/
def State.chordU (s : State) (i : Nat) : Chord := Tbl.get Chord.reset s.chords i
/-- The same replaced. -/
def State.setChord (s : State) (i : Nat) (c : Chord) : State := { s with chords := Tbl.set s.chords i c }

/-- The remote arcs of an instance: the handles of REMOTE that are not 0 (R343, R347). -/
def State.remotes (s : State) (i : Nat) : List Nat := ((List.range 8).map fun j => lane 32 j (s.ctr (oRemote i))).filter (· ≠ 0)

/-- Host ports and management cores leave a round at its release (R340). -/
def leavesAtOnce : Nat := (2 ^ 10 - 1) * 2 ^ 128

/-- CHORD_STATE brought up to date: IDLE or GATHERING (R347). -/
def State.chordState (s : State) (i : Nat) : State :=
  let st := s.ctr (oChordState i)
  if st = 3 then s
  else s.put (oChordState i) (if s.ctr (oMembers i) = 0 || s.objD 0xFF (oOwner i) = 0xFF then 0
    else if s.ctr (oArrived i) = 0 then 1 else 2)

/-- Whether an arc end takes no message now, for 256 are unacknowledged (R365). -/
def State.arcFull (s : State) (slot : Nat) : Bool := (s.arc slot).live && (s.arc slot).state ≠ 3 && 256 ≤ (s.arc slot).unacked.length

/-- A round is released when every member and every remote arc has arrived for it (R338, R343): latches are set, ROUND counts
it, and RELEASE_SIG is added to. ARRIVE goes out when every remote arc can take it. -/
def State.tryRelease (s : State) (i : Nat) : State :=
  let m := s.ctr (oMembers i)
  let u := s.chordU i
  let rs := s.remotes i
  if m = 0 || s.ctr (oArrived i) ≠ m || s.ctr (oChordState i) = 3 || (!u.sent && rs.any fun h => s.arcFull (hSlot h)) then s
  else
    let round := s.ctr (oRound i) + 1
    let s := if u.sent then s else
      (rs.foldl (fun (s : State) h => if hKind h = 3 && s.fresh h then (s.arcSend (hSlot h) 12 0 round 0 0 [] none 0 0).getD s else s) s)
    let u := { u with sent := true }
    if (List.range rs.length).all fun j => u.remote.testBit j then
      let s := s.setChord i { next := 0, unleft := m - (m &&& leavesAtOnce), unleftPrev := u.unleft, relTime := s.now,
                              remote := u.remoteNext, remoteNext := 0, sent := false }
      let s := (s.put (oRound i) round).put (oArrived i) u.next
      let s := forUpTo 96 s fun s k =>
        if m.testBit k && isSync (s.curWord k) 0 && syncChordOf (s.curWord k) = i && (s.seq k).waiting then s.release (.seq k) else s
      (s.addHandleSig (s.ctr (oReleaseSig i)) 1).chordState i
    else (s.setChord i u).chordState i

/-- Whether a member still waits at an instance (R340): a core's SYNC word is pending, or a copy engine's WAIT holds its ring. -/
def State.stays (s : State) (i b : Nat) : Bool :=
  if b < 96 then (s.core b).shard.isSome && (s.seq b).waiting && isSync (s.curWord b) 0 && syncChordOf (s.curWord b) = i
  else (s.ring (kCopyRing (b - 96))).accepted.any fun c => c.op = 4 && c.begun && c.ended.isNone

/-- The members that have not left round ROUND (R340). The model's choice: one whose word or WAIT ended otherwise has left (log entry 34). -/
def State.unleft (s : State) (i : Nat) : Nat :=
  let m := (s.chordU i).unleft
  (bitsOf 128 m).foldl (fun m b => if s.stays i b then m else clrBit m b) m

/-- Whether a member's next arrival is registered now (R341): false for the round ROUND + 1, true for ROUND + 2. -/
def State.arrivalFor (s : State) (i b : Nat) : Option Bool :=
  let u := s.chordU i
  if !(s.ctr (oArrived i)).testBit b then
    if u.unleftPrev = 0 && !(s.unleft i).testBit b then some false else none
  else if s.unleft i = 0 && !u.next.testBit b then some true else none

/-- A member's arrival (R338, R341): none where it is not registered. -/
def State.arriveChord (s : State) (i b : Nat) : Option State :=
  (s.arrivalFor i b).map fun later =>
    if later then (s.setChord i { s.chordU i with next := setBit (s.chordU i).next b }).chordState i
    else
      let u := s.chordU i
      (((s.setChord i { u with unleft := clrBit u.unleft b }).put (oArrived i) (setBit (s.ctr (oArrived i)) b)).chordState i).tryRelease i |>.tryRelease i

/-- A member leaves a released round (R340, R341): the longest stay is kept. -/
def State.leaveChord (s : State) (i b : Nat) : State :=
  let u := s.chordU i
  let f (m : Nat) : Nat := clrBit m b
  (s.setChord i { u with unleft := f u.unleft, unleftPrev := f u.unleftPrev }).peak 8 (oLagNs i) (s.now - u.relTime)

/-- MEMBERS written (R337): ROUND is 0 and every arrival and latch is clear. -/
def State.setMembers (s : State) (i m : Nat) : State :=
  let s := ((((s.put (oMembers i) m).put (oRound i) 0).put (oArrived i) 0).put (oChordState i) 1).setChord i Chord.reset
  s.chordState i

/-- An ARRIVE from the peer over a remote arc (R343): counted for ROUND + 1, held for ROUND + 2, discarded otherwise. -/
def State.remoteArrive (s : State) (i arcSlot round : Nat) : State :=
  let r := s.ctr (oRound i)
  let u := s.chordU i
  match (List.range (s.remotes i).length).find? fun j => hSlot ((s.remotes i).getD j 0) = arcSlot with
  | none => s.bump 4 oRemoteErrors 1
  | some j =>
    if round = r + 1 then ((s.setChord i { u with remote := setBit u.remote j }).tryRelease i).tryRelease i
    else if round = r + 2 then s.setChord i { u with remoteNext := setBit u.remoteNext j }
    else s.bump 4 oRemoteErrors 1

/-- SIG_POLL (R331). -/
def execSigPoll (s : State) : Res := .next s.sigPoll

end Sys2Proof.Machine
end

