-- ==== Sys2Proof/Machine/Reach.lean ====
section
/-! DEFINITION. What a unit does with a virtual range: its translation page by page (R158, R251, R258), its reads and writes at the homes
without a cache (R218, R219), and the same on a peer over the carrier arc (R255, R365, R367). -/

namespace Sys2Proof.Machine

/-! ### Requests to peers -/

/-- The engine number under which a request whose unit has gone is kept until its answer comes. -/
def nobody : Nat := 0xFFFF

/-- Requests to peers that a test picks are wanted no more: the answered ones go, and the others only await their answers. -/
def State.peerForget (s : State) (f : PeerReq → Bool) : State :=
  { s with peers := (s.peers.filter fun (q : PeerReq) => !(f q && q.data.isSome)).map fun (q : PeerReq) => if f q then { q with engine := nobody } else q }

/-- The answer of a peer's read or atomic: the oldest request on its arc that has none (R365). -/
def State.peerAnswer (s : State) (slot v : Nat) (bad : Bool) : State :=
  { s with peers := ((s.peers.foldl (fun (a : List PeerReq × Bool) (q : PeerReq) =>
      if !a.2 && q.arc = slot && q.data.isNone then
        (if q.engine = nobody then a.1 else a.1 ++ [{ q with data := some v, bad := bad }], true)
      else (a.1 ++ [q], a.2)) ([], false)).1) }

/-- What came of an access. -/
inductive Got where
  | wait
  | fail (code : Nat)
  | data (v : Nat) (bad : Bool)

/-- The carrier arc of an access to a vertex, or the code that the access ends with (R366, R367, R373). -/
def State.peerArc (s : State) (h vertex : Nat) : Except Nat Nat :=
  match s.carrier h vertex with
  | none => .error 0x0C04
  | some slot =>
    match (s.arc slot).state with
    | 2 => .error 0x0C01
    | 3 => .error 0x0C02
    | _ => .ok slot

/-- A request to a peer, sent once, and its answer when it has come. -/
def State.peerAsk (s : State) (a : Access) (vertex mtype addr opx len : Nat) (data : List Byte) (ring aseq : Nat) : State × Got :=
  match s.peers.find? fun q => q.engine = a.engine && q.source = a.source && q.va = a.va with
  | some q =>
    (match q.data with
      | some v => (s, .data v q.bad)
      | none => (s, .wait))
  | none =>
    match s.peerArc a.ctx vertex with
    | .error c => (s, .fail c)
    | .ok slot =>
      match s.arcSend slot mtype 1 addr opx len data none ring aseq with
      | none => (s, .wait)
      | some t =>
        let q : PeerReq := { engine := a.engine, source := a.source, va := a.va, arc := slot, ring := ring, aseq := aseq, data := none, bad := false }
        ({ t with peers := t.peers ++ [q] }, .wait)

/-! ### Ranges -/

/-- Where a virtual range lies, by pieces that cross no 4 KiB boundary (R354): none while a translation is awaited. -/
def State.targets (s : State) (a : Access) : Nat → Nat → State × Option (List (Nat × Target × Nat))
  | 0, _ => (s, some [])
  | f + 1, n =>
    if n = 0 then (s, some [])
    else
      let m := min n (4096 - a.va % 4096)
      match s.translate a with
      | (t, none) => (t, none)
      | (t, some x) =>
        match t.targets { a with va := (a.va + m) % 2 ^ 56 } f (n - m) with
        | (u, none) => (u, none)
        | (u, some l) => (u, some ((a.va, x, m) :: l))

/-- The peers' parts of a range asked for: none when all answers have come. -/
def State.askPeers (s : State) (a : Access) (l : List (Nat × Target × Nat)) (ring aseq : Nat) : State × Option Got :=
  l.foldl (fun (r : State × Option Got) p =>
    match p.2.1 with
    | .mem _ _ => r
    | .peer v x =>
      match r.1.peerAsk { a with va := p.1 } v 2 x 0 p.2.2 [] ring aseq with
      | (t, .data _ _) => (t, r.2)
      | (t, g) => (t, match r.2 with | some (.fail c) => some (.fail c) | _ => some g)) (s, none)

/-- Whether a home cannot take part of a range now, to be written or only read (R194, R213, R237, R241). -/
def State.homesBusy (s : State) (write : Bool) (l : List (Nat × Target × Nat)) : Bool :=
  l.any fun p => match p.2.1 with
    | .mem pa _ => if write then s.rangeShut pa p.2.2 else s.rangeBusy pa p.2.2
    | .peer _ _ => false

/-- The parts of a range at homes pass their buckets (R238): whether all may go on now. -/
def State.homesAdmit (s : State) (r : Agent) (write : Bool) (l : List (Nat × Target × Nat)) : State × Bool :=
  l.foldl (fun (x : State × Bool) p => match p.2.1 with
    | .mem pa _ => let t := x.1.letIn r pa p.2.2 write; (t.1, x.2 && t.2)
    | .peer _ _ => x) (s, true)

/-- A range read at its homes, and from peers once they have answered: its bytes as a number, and whether any was poisoned. -/
def State.unitRead (s : State) (r : Agent) (a : Access) (n ring aseq : Nat) : State × Got :=
  match s.targets a (n / 4096 + 2) n with
  | (t, none) => (t, .wait)
  | (t, some l) =>
    match t.askPeers a l ring aseq with
    | (t, some g) => (t, g)
    | (t, none) =>
      if t.homesBusy false l then (t, .wait)
      else
      match t.homesAdmit r false l with
      | (t, false) => (t, .wait)
      | (t, true) =>
        let z := l.foldl (fun (y : State × Nat × Nat × Bool) p =>
          match p.2.1 with
          | .mem pa _ =>
            let x := (y.1.admitDone r pa p.2.2).agentRead r pa p.2.2
            (x.1, y.2.1 + p.2.2, y.2.2.1 + x.2.1 * 2 ^ (8 * y.2.1), y.2.2.2 || x.2.2)
          | .peer v x =>
            (match y.1.peerAsk { a with va := p.1 } v 2 x 0 p.2.2 [] ring aseq with
              | (t, .data d b) => (t, y.2.1 + p.2.2, y.2.2.1 + d * 2 ^ (8 * y.2.1), y.2.2.2 || b)
              | (t, _) => (t, y.2))) (t, 0, 0, false)
        (z.1.peerForget fun q => q.engine = a.engine && q.source = a.source, .data z.2.2.1 z.2.2.2)

/-- Whether the peers' parts of a range can be sent now, or the code that the access ends with. -/
def State.peersTake (s : State) (h : Nat) (l : List (Nat × Target × Nat)) : Option Got :=
  l.foldl (fun (r : Option Got) p =>
    match p.2.1 with
    | .mem _ _ => r
    | .peer v _ =>
      match s.peerArc h v with
      | .error c => some (.fail c)
      | .ok slot => if (s.arc slot).unacked.length + l.length ≤ 256 then r else (match r with | some (.fail c) => some (.fail c) | _ => some .wait)) none

/-- A range written at its homes and to peers. Answers how many writes the homes have to acknowledge as the value. -/
def State.unitWrite (s : State) (r : Agent) (a : Access) (n v ring aseq : Nat) : State × Got :=
  match s.targets a (n / 4096 + 2) n with
  | (t, none) => (t, .wait)
  | (t, some l) =>
    match (if t.homesBusy true l then some Got.wait else t.peersTake a.ctx l) with
    | some g => (t, g)
    | none =>
    match t.homesAdmit r true l with
    | (t, false) => (t, .wait)
    | (t, true) =>
      let z := l.foldl (fun (y : State × Nat × Nat) p =>
        let d := v / 2 ^ (8 * y.2.1) % 2 ^ (8 * p.2.2)
        match p.2.1 with
        | .mem pa _ =>
          let t := ((y.1.admitDone r pa p.2.2).agentWrite r pa p.2.2 d).post "COMP" (homeNode (pa / 128)) (agentNode r) (pa / 128) 0 0
          (t, y.2.1 + p.2.2, y.2.2 + 1)
        | .peer x pa =>
          let t := match y.1.peerArc a.ctx x with
            | .ok slot => (y.1.arcSend slot 0 1 pa 0 0 (leBytes p.2.2 d) none ring aseq).getD y.1
            | .error _ => y.1
          (t, y.2.1 + p.2.2, y.2.2)) (t, 0, 0)
      (z.1, .data z.2.2 false)

end Sys2Proof.Machine
end

