-- ==== Sys2Proof/Machine/Convert.lean ====
section
/-! DEFINITION. Conversions between the formats (R84 to R86) and the carry form (R74). -/

namespace Sys2Proof.Machine

/-- A carry-form value (R72, R74): its special state (0 finite, 1 +∞, 2 -∞, 4 NaN), SIG and X. -/
structure Carry where
  special : Nat
  sig : Int
  x : Int
  deriving DecidableEq, Repr

/-- The value that enters the top of a column (R72). -/
def Carry.zero : Carry := ⟨0, 0, -32768⟩

/-- A carry form read from its 16 bytes: any other SPECIAL is read as NaN, reserved bits are ignored (R74). -/
def Carry.read (v : Nat) : Carry :=
  let sp := bits 127 125 v
  ⟨if sp = 0 ∨ sp = 1 ∨ sp = 2 then sp else 4, sext 56 (bits 55 0 v), sext 16 (bits 71 56 v)⟩

/-- The 16 bytes of a carry form (R74). A special state overrides SIG and X, whose bits are then `rest`. An exponent that leaves I16 is
kept whole in the column and is written modulo 2^16, where the manual is silent (log entry 15). -/
def Carry.write (c : Carry) (rest : Nat) : Nat :=
  if c.special = 0 then twos 16 c.x * 2 ^ 56 + twos 56 c.sig else c.special * 2 ^ 125 + rest % 2 ^ 72

/-- The value of a carry form (R73, R75). -/
def Carry.value (c : Carry) : FNum :=
  match c.special with
  | 0 => .fin (c.sig < 0) c.sig.natAbs c.x
  | 1 => .inf false
  | 2 => .inf true
  | _ => .nan

/-- The value of a source operand of CVT (R84). -/
def cvtSource (f v : Nat) : FNum := if f = 9 then (Carry.read v).value else decodeFmt f v

/-- Whether a format is one of IEEE 754 (R53). -/
def isIeee (f : Nat) : Bool := f == 5 || f == 6 || f == 10

/-- A NaN's conversion: canonical, except that a quiet NaN between IEEE formats keeps the leading bits of its payload (R86;
log entry 14). -/
def cvtNan (d f v : Nat) : Nat × Nat :=
  if isIeee f && isIeee d then
    let p := ieee f
    let q := ieee d
    if p.isSnan v then (canonNan d, flInvalid)
    else
      let fr := v % 2 ^ p.fbits
      let fr := if p.fbits ≤ q.fbits then fr * 2 ^ (q.fbits - p.fbits) else fr / 2 ^ (p.fbits - q.fbits)
      (q.sign (v.testBit (p.width - 1)) ((2 ^ q.ebits - 1) * 2 ^ q.fbits + fr), 0)
  else if d = 7 ∨ d = 8 then (2 ^ (fmtBits d - 1), flInvalid)
  else (canonNan d, if isIeee f && (ieee f).isSnan v then flInvalid else 0)

/-- L8 to L4 by code (R85): the nearest L4 code, ties to the even one, and whether it saturated. -/
def l8to4 (c : Nat) : Nat × Bool :=
  let t : Int := (c : Int) - 48
  let q := t / 4
  let r := t % 4
  let n := if r < 2 then q else if r > 2 then q + 1 else if q % 2 = 0 then q else q + 1
  if n ≤ 0 then (0, false) else if 7 < n then (7, true) else (n.toNat, false)

/-- The flags of a conversion of a finite value to one of exact value `r` (R86). -/
def cvtFlags (src r : FNum) (sat : Bool) : Nat :=
  let nz := match src with | .fin _ m _ => m != 0 | _ => false
  let z := match r with | .fin _ m _ => m == 0 | _ => false
  (if FNum.cmp src r = some 0 then 0 else flInexact) + (if nz && z then flUnder else 0) + (if sat then flOver else 0)

/-- CVT from format `f` to format `d` (R84 to R86): the destination's pattern and the flags raised. A carry form whose SPECIAL is infinite
gives the infinity in binary64 with no flag, where R84 states a finite SPECIAL only (log entry 14). -/
def convert (d f : Nat) (rm : Rnd) (v : Nat) : Nat × Nat :=
  let src := cvtSource f v
  match src with
  | .nan => cvtNan d f v
  | .inf s =>
    if d = 0 ∨ d = 1 ∨ d = 2 then (canonNan d, flInvalid)
    else if d = 7 ∨ d = 8 then (2 ^ (fmtBits d - 1), flInvalid + flInexact)
    else
      match linFmt d with
      | some p => (p.sign s (p.maxCode + 1), 0)
      | none => (0, 0)
  | .fin s m e =>
    match linFmt d with
    | some p => let r := p.round rm s m e; (r.code, r.convFlags (m != 0))
    | none =>
      if d = 7 ∨ d = 8 then
        let w := fmtBits d
        let n := (quantize rm s m e 0).1
        let i : Int := if s then -(n : Int) else n
        if i < -(2 ^ (w - 1) : Nat) ∨ (2 ^ (w - 1) : Nat) ≤ i then (2 ^ (w - 1), flInvalid + flInexact)
        else (twos w i, cvtFlags src (.fin (i < 0) i.natAbs 0) false)
      else if d = 0 && f = 1 then
        match lOperand 1 v with
        | none => (8, 0)
        | some (neg, c) =>
          let q := if c = 0 then (0, false) else l8to4 c
          let r := if q.1 = 0 then 0 else if neg then 8 + q.1 else q.1
          (r, cvtFlags src (decodeFmt 0 r) q.2)
      else
        let q := lRound d s m e
        (q.1, cvtFlags src (decodeFmt d q.1) q.2)

end Sys2Proof.Machine
end

