-- ==== Sys2Proof/Machine/Cell.lean ====
section
/-! DEFINITION. The arithmetic of the arrays: products (R65, R66, R68, R80, R81, R114), cell sums (R69 to R71), column sums
(R72, R73), and the conversion at the bottom of a column (R75 to R77, R116). -/

namespace Sys2Proof.Machine

/-- The products that a cell forms for an operand pair, 0 where the arrays do not accept it (R64, R79, R88). `xmode` is 0
none, 1 table, 2 affine; `t` is the table's target format. -/
def pairProducts (a w xmode t : Nat) : Nat :=
  let isF8 (f : Nat) : Bool := f == 2 || f == 3
  let isH (f : Nat) : Bool := f == 4 || f == 5
  let isInt := w == 7 || w == 8
  let plain (a w : Nat) : Nat :=
    if a = 0 && w = 0 then 64
    else if (a == 0 || a == 1) && (w == 0 || w == 1) then 32
    else if isF8 a && isF8 w then 32
    else if isH a && isH w then 16
    else if a == 6 && w == 6 then 16
    else 0
  match xmode with
  | 0 => if isInt then 0 else plain a w
  | 1 =>
    if !isInt || (t == 0 && w != 7) then 0
    else if t == 0 then (if a == 0 then 64 else 0)
    else if t == 1 || t == 2 || t == 3 || t == 4 then plain a t else 0
  | 2 => if isInt && isH a then 16 else 0
  | _ => 0

/-- Bytes of an activation entry per vector (R90, R91). -/
def actBytes (a n : Nat) : Nat := if a = 6 then 2048 else 32 * n * fmtBits a / 8

/-- Source bytes of one row-load (R91). -/
def rowBytes (w n : Nat) : Nat := 32 * n * fmtBits w / 8

/-- A piece of a binary32 value (R81): 1 hi, 2 mid, 3 lo. Infinite and NaN operands have zero mid and lo pieces (R114). -/
def piece (k : Nat) (v : FNum) : FNum :=
  match v with
  | .fin s m e =>
    match k with
    | 1 => .fin s (m / 2 ^ 16) (e + 16)
    | 2 => .fin s (m / 2 ^ 8 % 2 ^ 8) (e + 8)
    | _ => .fin s (m % 2 ^ 8) e
  | x => if k = 1 then x else .fin false 0 0

/-- Whether a value is infinite or NaN. -/
def FNum.special : FNum → Bool
  | .fin _ _ _ => false
  | _ => true

/-- The product of two binary32 pieces (R113, R114): special states arise only in hi·hi, from the original operands. -/
def pieceProduct (ap wp a w : Nat) : FNum :=
  let x := (ieee 6).decode a
  let y := (ieee 6).decode w
  if x.special || y.special then (if ap = 1 && wp = 1 then FNum.mul x y else .fin false 0 0)
  else FNum.mul (piece ap x) (piece wp y)

/-- The product of two L operands by addition of codes (R65, R66). -/
def lProduct (a w : Option (Bool × Nat)) : FNum :=
  match a, w with
  | some (s, c), some (t, d) =>
    if c = 0 ∨ d = 0 then .fin false 0 0
    else
      let p := l8Mag ((c : Int) + d - 64)
      .fin (s != t) p.1 p.2
  | _, _ => .nan

/-- One product of a cell. `wf` is the format of the operand held in the weight register; an affine operand (format 16) is
the 9-bit difference q - z, held as 16 bits (R80, R89). -/
def product (af wf ap wp a w : Nat) : FNum :=
  if af = 0 ∨ af = 1 then lProduct (lOperand af a) (lOperand wf w)
  else if af = 6 then pieceProduct ap wp a w
  else
    let y : FNum := if wf = 16 then let i := sext 16 w; .fin (i < 0) i.natAbs 0 else decodeFmt wf w
    FNum.mul (decodeFmt af a) y

/-- How special states combine (R73). -/
def joinSpecial (a b : Nat) : Nat :=
  if a = 4 ∨ b = 4 then 4 else if a = 0 then b else if b = 0 then a else if a = b then a else 4

/-- The special state of a value. -/
def FNum.state : FNum → Nat
  | .fin _ _ _ => 0
  | .inf s => if s then 2 else 1
  | .nan => 4

/-- The sum of a cell's products (R69 to R71, R73). `sa` and `sw` are the block scales, 127 where there are none; a scale of
255 makes the block NaN (R63, R66). -/
def cellSum (ps : List FNum) (sa sw : Nat) : Carry :=
  let sp := ps.foldl (fun a p => joinSpecial a p.state) (if sa = 255 ∨ sw = 255 then 4 else 0)
  if sp ≠ 0 then ⟨sp, 0, -32768⟩
  else
    let top : Option Int := ps.foldl (fun a p =>
      match p with
      | .fin _ m e => if m = 0 then a else
        let t : Int := (Nat.log2 m : Int) + e
        some (match a with | none => t | some b => max b t)
      | _ => a) none
    match top with
    | none => Carry.zero
    | some t =>
      let x := t - 47
      let sig := ps.foldl (fun (a : Int) p =>
        match p with
        | .fin s m e =>
          let v : Int := if x ≤ e then (m * 2 ^ (e - x).toNat : Nat) else (m / 2 ^ (x - e).toNat : Nat)
          a + (if s then -v else v)
        | _ => a) 0
      ⟨0, sig, x + ((sa : Int) - 127) + ((sw : Int) - 127)⟩

/-- The magnitude shifted right, the sign restored (R72). -/
def truncInt (v : Int) (n : Nat) : Int :=
  if v = 0 ∨ Nat.log2 v.natAbs < n then 0
  else
    let m : Int := (v.natAbs / 2 ^ n : Nat)
    if v < 0 then -m else m

/-- Whether a significand fits in 56-bit two's complement (R72). -/
def fits56 (v : Int) : Bool := -(2 ^ 55 : Nat) ≤ v && v < (2 ^ 55 : Nat)

/-- A cell's result added to the value from above (R72, R73). -/
def columnAdd (above cell : Carry) : Carry :=
  let sp := joinSpecial above.special cell.special
  if sp ≠ 0 then ⟨sp, 0, -32768⟩
  else
    let xa := max above.x cell.x
    let t := truncInt above.sig (xa - above.x).toNat + truncInt cell.sig (xa - cell.x).toNat
    if fits56 t then ⟨0, t, xa⟩ else ⟨0, truncInt t 1, xa + 1⟩

/-- A scaled column value fitted into the carry form by the fewest right shifts (R75). -/
def fitCarry (neg : Bool) (m : Nat) (e : Int) : Carry :=
  if m = 0 then Carry.zero
  else
    let sh := (List.range 64).find? fun n => fits56 (truncInt (if neg then -(m : Int) else m) n)
    let n := sh.getD 64
    ⟨0, truncInt (if neg then -(m : Int) else m) n, e + n⟩

/-- A value in an output format (R76, R77): roundTiesToEven, an exact zero gives +0. -/
def outCode (f : Nat) (v : FNum) : Nat :=
  match v with
  | .nan => canonNan f
  | .inf s =>
    match linFmt f with
    | some p => if p.hasInf then p.sign s (p.maxCode + 1) else canonNan f
    | none => canonNan f
  | .fin s m e =>
    if m = 0 then 0
    else
      match linFmt f with
      | some p => (p.round .tiesEven s m e).code
      | none => (lRound f s m e).1

/-- The bottom of a column (R75 to R77): the column value, times the W16 scale `sigma` where one is given, in the output
format; `rest` fills the bits that a special carry form leaves open. -/
def columnOut (c : Carry) (ofmt : Nat) (sigma : Option Nat) (rest : Nat) : Nat :=
  match sigma with
  | none => if ofmt = 9 then c.write rest else outCode ofmt c.value
  | some g =>
    let v := FNum.mul c.value (decodeFmt 4 g)
    if ofmt = 9 then
      (match v with
        | .fin s m e => (fitCarry s m e).write rest
        | x => Carry.write ⟨x.state, 0, 0⟩ rest)
    else outCode ofmt v

/-- What a masked column delivers: +0, and a carry-form zero (R116). -/
def maskedOut (ofmt : Nat) : Nat := if ofmt = 9 then Carry.zero.write 0 else 0

/-- One column from the top, over its ungated rows in order (R72, R115). -/
def columnSum (inj : Carry) (cells : List Carry) : Carry := cells.foldl columnAdd inj

end Sys2Proof.Machine
end

