-- ==== Sys2Proof/Machine/Rings.lean ====
section
/-! DEFINITION. Rings in host memory, their doorbells, completion and fault records, the fetching and checking of commands, and
acceptance (R274 to R296, R305 to R308, R315 to R318). -/

namespace Sys2Proof.Machine

/-! ### Whether rings are served -/

/-- Whether the module is READY or DEGRADED (R441, R446). -/
def State.up (s : State) : Bool := s.ctr oModuleState = 2 || s.ctr oModuleState = 3

/-- Whether the module fetches from rings (R441). -/
def State.serves (s : State) : Bool := s.up && !s.fetchStop

/-- The free space of a ring from its indexes (R274, R276). -/
def ringUsed (prod cons : Nat) : Nat := (prod + 2 ^ 32 - cons) % 2 ^ 32

/-- Whether an index may move to a value through at most `n` records (R276). -/
def moves (old new n : Nat) : Bool := (new % 2 ^ 32 + 2 ^ 32 - old) % 2 ^ 32 ≤ n

/-- The ring whose doorbell page a function's page is (R275). -/
def State.ringAt (s : State) (fn page : Nat) : Option Nat :=
  (s.rings.find? fun e => e.2.live && e.2.fn = fn && e.2.page = page).map fun e => e.1

/-- The key of a ring by its handle, if it is live. -/
def State.ringOf (s : State) (h : Nat) : Option Nat :=
  let key := 65536 * hKind h + hSlot h
  if 5 ≤ hKind h && hKind h ≤ 8 && s.fresh h && (s.ring key).live then some key else none

/-- A control ring. -/
def State.ctl (s : State) (fn : Nat) : CtlRing := Tbl.get CtlRing.reset s.ctls fn
/-- The same replaced. -/
def State.setCtl (s : State) (fn : Nat) (c : CtlRing) : State := { s with ctls := Tbl.set s.ctls fn c }
/-- Slots of a control ring (R304). -/
def State.ctlSize (s : State) (fn : Nat) : Nat := 2 ^ s.objD 6 (oCtlLog2 fn)

/-! ### Completion records (R305, R306, R316) -/

/-- The completion ring of a submitting ring. -/
def compKey (r : Ring) : Nat := 65536 * 7 + hSlot r.comp

/-- SIGNALLED_ASEQ (R317): the last DONE, but for the additions that are not yet performed. -/
def State.signalledUpTo (s : State) (key : Nat) : Nat :=
  let r := s.ring key
  let core (x : SigAdd) : Bool := match x.who with | .core _ => true | _ => false
  match s.sigAdds.find? fun x => x.ring = key && !core x && !r.accepted.any fun c => c.aseq = x.aseq with
  | some x => (x.aseq + 2 ^ 32 - 1) % 2 ^ 32
  | none => r.signalled

/-- The completion state persisted (R316). -/
def State.persist (s : State) (key : Nat) : State :=
  let r := s.ring key
  s.setRing key { r with
    pRseq := (s.ring (compKey r)).rseq, pOwed := r.accepted.map fun (c : Cmd) => c.aseq
    pAseq := r.aseq, pSig := s.signalledUpTo key, since := 0 }

/-- A record into a submitting ring's completion ring: one 64-byte write, then PROD, then the vector (R277, R306). The
completion state is persisted after every 256 records, or once a lap of a smaller ring (R316). -/
def State.putComp (s : State) (key v : Nat) : State :=
  let r := s.ring key
  let c := s.ring (compKey r)
  let rseq := (c.rseq + 1) % 2 ^ 32
  let at_ := hostKey (c.fn / 16) (c.base + 64 * (c.rseq % 2 ^ c.log2))
  let s := { s with host := Memory.putNum s.host at_ 64 (v + s.mtime % 2 ^ 64 * 2 ^ 256 + rseq) }
  let s := (s.setRing (compKey r) { c with rseq := rseq, prod := (c.prod + 1) % 2 ^ 32 }).msix c.fn c.vector
  let s := s.setRing key { s.ring key with since := r.since + 1 }
  if min 256 (2 ^ c.log2) ≤ r.since + 1 then s.persist key else s

/-- A completion record's common part (R305). -/
def compRec (ty flags reason : Nat) (c : Cmd) : Nat :=
  ty * 2 ^ 504 + flags * 2 ^ 496 + reason * 2 ^ 480 + c.tag * 2 ^ 448 + c.ctx * 2 ^ 416 + c.aseq * 2 ^ 384 +
    c.seqno * 2 ^ 320 + c.index * 2 ^ 224

/-- A field that saturates (R305). -/
def saturate (w v : Nat) : Nat := min v (2 ^ w - 1)

/-- The accounting fields of a terminal record and whether one saturated (R305, R326). -/
def accountRec (c : Cmd) : Nat × Bool :=
  (saturate 48 c.engineNs * 2 ^ 160 + saturate 48 c.memBytes * 2 ^ 112 + saturate 40 c.linkBytes * 2 ^ 72 +
      saturate 40 c.hostBytes * 2 ^ 32,
    2 ^ 48 ≤ c.engineNs || 2 ^ 48 ≤ c.memBytes || 2 ^ 40 ≤ c.linkBytes || 2 ^ 40 ≤ c.hostBytes)

/-- A terminal record (R305, R309, R310); `lost` when a start intervened (R305). -/
def terminalRec (c : Cmd) (ty reason : Nat) (lost : Bool) : Nat :=
  let a := accountRec c
  let flags := (if c.capSlot.isSome then 1 else 0) + (if a.2 || lost then 2 else 0) + (if c.rerun = 0 then 0 else 4)
  compRec ty flags reason c + c.capSlot.getD 0 * 2 ^ 212 + a.1

/-- Whether a submitting ring's completion ring still exists. -/
def State.compLive (s : State) (key : Nat) : Bool :=
  let r := s.ring key
  s.fresh r.comp && (s.ring (compKey r)).live

/-- Free slots of a submitting ring's completion ring: none once that ring has been destroyed. -/
def State.compFree (s : State) (key : Nat) : Nat :=
  let c := s.ring (compKey (s.ring key))
  if s.compLive key then 2 ^ c.log2 - ringUsed c.prod c.cons else 0

/-! ### Reconciliation after a start (R316, R317) -/

/-- The records of a completion ring from the persisted RSEQ onward, as long as each slot holds the next (R316 step 2). -/
def State.scanComp (s : State) (c : Ring) (rseq : Nat) : Nat → List Nat
  | 0 => []
  | n + 1 =>
    let v := Memory.num s.host (hostKey (c.fn / 16) (c.base + 64 * (rseq % 2 ^ c.log2))) 64
    if bits 31 0 v = (rseq + 1) % 2 ^ 32 then v :: s.scanComp c ((rseq + 1) % 2 ^ 32) n else []

/-- A command known to the module by its ASEQ, or by its ACCEPT record alone. -/
def State.owedCmd (s : State) (key : Nat) (found : List Nat) (a : Nat) : Cmd :=
  match (s.ring key).accepted.find? fun c => c.aseq = a with
  | some c => c
  | none =>
    let v := (found.find? fun v => bits 511 504 v = 1 && bits 415 384 v = a).getD 0
    { Cmd.reset with aseq := a, tag := bits 479 448 v, ctx := bits 447 416 v, seqno := bits 383 320 v, index := bits 255 224 v }

/-- A ring reconciled (R316): RESYNC, then RETURNED with RESET for every accepted command without a terminal record. It waits
while the completion ring lacks room. -/
def State.reconcile (s : State) (key : Nat) : State :=
  let r := s.ring key
  let c := s.ring (compKey r)
  let found := s.scanComp c r.pRseq (2 ^ c.log2)
  let rseq := (r.pRseq + found.length) % 2 ^ 32
  let acc := (found.filter fun v => bits 511 504 v = 1).map fun v => bits 415 384 v
  let gone := (found.filter fun v => 2 ≤ bits 511 504 v && bits 511 504 v ≤ 4).map fun v => bits 415 384 v
  let owed := (r.pOwed ++ acc).filter fun a => !gone.contains a
  let last := acc.getLast?.getD r.pAseq
  let cmds := owed.map fun a => s.owedCmd key found a
  let since := if r.recon then r.reconAt else s.now
  let s := s.setRing (compKey r) { c with rseq := rseq, prod := rseq }
  if s.compFree key < 1 + owed.length then s.setRing key { r with recon := true, reconAt := since }
  else
    let s := (s.setRing key { r with accepted := [], fetched := none, aseq := last, recon := false, resumed := false }).peak 8 oReconcileMax (s.now - since)
    let s := s.putComp key (5 * 2 ^ 504 + last * 2 ^ 384 + r.pSig * 2 ^ 320 + r.cons * 2 ^ 224)
    let s := cmds.foldl (fun s c => (s.putComp key (terminalRec { c with capSlot := none } 3 0x0A03 true)).bump 8 oReturnedTotal 1) s
    (s.setRing key { s.ring key with signalled := last }).persist key

/-! ### Doorbells (R275, R276, R318) -/

/-- PROD written (R276): fetching begins, and a ring that a start stopped resumes (R318). -/
def State.writeProd (s : State) (fn page v : Nat) : State :=
  if !s.up then s
  else if page = 0 then
    let c := s.ctl fn
    if s.ctr (oCtlEnable fn) = 0 then s
    else if moves c.prod v (s.ctlSize fn - ringUsed c.prod c.cons) then s.setCtl fn { c with prod := v % 2 ^ 32 }
    else s.bump 4 oDoorbellErrors 1
  else
    match s.ringAt fn page with
    | none => s
    | some key =>
      let r := s.ring key
      if 4 ≤ r.kind then s
      else if moves r.prod v (2 ^ r.log2 - ringUsed r.prod r.cons) then s.setRing key { r with prod := v % 2 ^ 32, resumed := true }
      else s.bump 4 oDoorbellErrors 1

/-- CONS written (R276): the module has the space again, and a reconciliation that waited for it goes on (R316). -/
def State.writeCons (s : State) (fn page v : Nat) : State :=
  if !s.up then s
  else
    match s.ringAt fn page with
    | none => s
    | some key =>
      let r := s.ring key
      if r.kind < 4 then s
      else if moves r.cons v (ringUsed r.prod r.cons) then
        let s := s.setRing key { r with cons := v % 2 ^ 32 }
        if r.kind = 4 then
          match s.rings.find? fun e => e.2.live && e.2.kind < 4 && compKey e.2 = key && e.2.recon with
          | some e => s.reconcile e.1
          | none => s
        else s
      else s.bump 4 oDoorbellErrors 1

/-! ### Checks of a command (R281 to R292) -/

/-- A record of a ring. -/
def State.ringRec (s : State) (r : Ring) (i : Nat) : Nat :=
  Memory.num s.host (hostKey (r.fn / 16) (r.base + 64 * (i % 2 ^ r.log2))) 64

/-- The header's fields (R281). -/
def hOp (v : Nat) : Nat := bits 127 120 v
def hFlags (v : Nat) : Nat := bits 119 112 v
def hLength (v : Nat) : Nat := bits 103 96 v
def hCtx (v : Nat) : Nat := bits 95 64 v
def hTag (v : Nat) : Nat := bits 63 32 v

/-- Whether all the listed bit ranges of a record are 0. -/
def zeros (v : Nat) (l : List (Nat × Nat)) : Bool := l.all fun x => bits x.1 x.2 v = 0

/-- Whether an opcode is one of a ring kind's (R282). -/
def opOfRing (kind op : Nat) : Bool :=
  op = 0 || op = 4 || op = 5 || (op = 1 && kind < 2) || (op = 2 && kind = 2) || (op = 3 && kind = 3)

/-- The check code of a shard record (R287, R288), 0 for none; the block shape is checked where threads are launched. -/
def shardCheck (v : Nat) : Nat :=
  let pc := bits 447 392 v
  let groups := bits 287 281 v
  let regs := bits 280 273 v
  if !zeros v [(455, 448), (391, 384), (327, 320), (262, 0)] then 0x0903
  else if bits 511 456 v % 64 ≠ 0 || pc % 8 ≠ 0 || (bits 511 456 v = 0 && pc = 0) then 0x0903
  else if (if pc = 0 then bits 319 304 v ≠ 0 else bits 319 304 v = 0) then 0x0903
  else if groups = 0 || 64 < groups || regs = 0 || 512 < bits 272 263 v then 0x0903
  else if pc = 0 then 0
  else if 2048 < 8 * ((regs + 7) / 8) * ((groups + 3) / 4) then 0x0904
  else 0

/-- The ranges of a STEP or RUN (R285 to R288). -/
def stepCheck (kind : Nat) (v : Nat) (shards : List Nat) : Nat :=
  let n := bits 447 441 v
  if bits 1 0 (hFlags v) = 0 || 4 ≤ hFlags v || !zeros v [(395, 384), (327, 320), (199, 192)] then 0x0903
  else if n = 0 || 96 < n || (kind = 2 && n ≠ 1) || hLength v ≠ 1 + n || (kind < 2 && bits 440 440 v ≠ kind) then 0x0903
  else if bits 383 328 v % 8 ≠ 0 || bits 255 200 v % 8 ≠ 0 then 0x0903
  else ((shards.map shardCheck).find? (· ≠ 0)).getD 0

/-- The ranges of a COPY (R285, R291, R292). -/
def copyCheck (v : Nat) : Nat :=
  if bits 1 0 (hFlags v) = 0 || 4 ≤ hFlags v || hLength v ≠ 1 then 0x0903
  else if !zeros v [(455, 448), (391, 384), (307, 256), (199, 192)] then 0x0903
  else if bits 383 344 v = 0 || 3 < bits 343 340 v || bits 255 200 v % 8 ≠ 0 then 0x0903
  else if bits 343 340 v ≠ 0 && (bits 511 456 v % 128 ≠ 0 || bits 447 392 v % 128 ≠ 0 || bits 383 344 v % 128 ≠ 0) then 0x0905
  else 0

/-- The ranges of a WAIT or SIGNAL (R285, R290). -/
def waitCheck (v : Nat) : Nat :=
  if hFlags v ≠ 0 || hLength v ≠ 1 || !zeros v [(455, 448), (383, 128)] || bits 511 456 v % 8 ≠ 0 then 0x0903 else 0

/-- The check of what is not a handle, in the order of R283. -/
def formCheck (kind : Nat) (rs : List Nat) : Nat :=
  let v := rs.headD 0
  if !opOfRing kind (hOp v) || !zeros v [(111, 104), (31, 0)] then 0x0903
  else if hOp v = 0 then (if hFlags v ≠ 0 || hLength v ≠ 1 then 0x0903 else 0)
  else if hOp v ≤ 2 then stepCheck kind v rs.tail
  else if hOp v = 3 then copyCheck v
  else waitCheck v

/-- The check of a handle of a kind for a partition (R271, R273). -/
def State.handleCheck (s : State) (kind part h : Nat) : Nat :=
  if hKind h ≠ kind then 0x0902
  else if !s.fresh h then 0x0901
  else if kind = 1 then
    (if !(s.ctx (hSlot h)).live then 0x0901 else if (s.ctx (hSlot h)).part ≠ part then 0x0902 else 0)
  else if kind = 3 then
    (if !(s.arc (hSlot h)).live then 0x0901 else if (s.arc (hSlot h)).part ≠ part then 0x0902 else 0)
  else 0

/-- The arc that a COPY names, 0 for none (R291). -/
def copyArc (v : Nat) : Nat := if hOp v = 3 then bits 339 308 v else 0

/-- The check code of a command, 0 for none (R283). A NOP uses no context. -/
def State.checkCmd (s : State) (r : Ring) (rs : List Nat) : Nat :=
  let v := rs.headD 0
  let f := formCheck r.kind rs
  if f ≠ 0 then f
  else if hOp v = 0 then 0
  else
    let c := s.handleCheck 1 r.part (hCtx v)
    if c ≠ 0 then c else if copyArc v = 0 then 0 else s.handleCheck 3 r.part (copyArc v)

/-! ### Fetching (R276, R282, R283, R296) -/

/-- Records that the command at a ring's head takes; a LENGTH of 0 is taken as one record (log entry 20). -/
def headLength (v : Nat) : Nat := max 1 (hLength v)

/-- The command at a ring's head read from host memory, when its records all lie below PROD (R276). -/
def State.readHead (s : State) (key : Nat) : Option Cmd :=
  let r := s.ring key
  let n := ringUsed r.prod r.cons
  let v := s.ringRec r r.cons
  if n = 0 || n < headLength v then none
  else
    let rs := (List.range (headLength v)).map fun i => s.ringRec r (r.cons + i)
    some { Cmd.reset with
      op := hOp v, flags := hFlags v, tag := hTag v, ctx := hCtx v, index := r.cons, recs := rs
      seqno := if hOp v = 1 || hOp v = 2 then bits 511 448 v else 0, bad := s.checkCmd r rs }

/-- Whether a ring is one from which commands can be taken. -/
def State.submits (s : State) (key : Nat) : Bool :=
  let r := s.ring key
  s.serves && r.live && r.kind < 4 && r.resumed && !r.recon

/-- Whether a command is a NOP that nothing is wrong with: it is consumed and never accepted (R282, R307). -/
def Cmd.nop (c : Cmd) : Bool := c.op = 0 && c.bad = 0

/-- A context that a command at a ring's head waits for (R296): its slot where it is parked. -/
def State.parkedCtx (s : State) (c : Cmd) : Option Nat :=
  if c.op = 0 then none else (s.ctxOf c.ctx).bind fun x => if x.hw.isNone then some (hSlot c.ctx) else none

/-- The next command fetched and checked (R283); a parked context's joins those that wait (R296). -/
def State.fetch (s : State) (key : Nat) : State :=
  if !s.submits key || (s.ring key).fetched.isSome then s
  else
    match s.readHead key with
    | none => s
    | some c =>
      let s := s.setRing key { s.ring key with fetched := some c }
      match s.parkedCtx c with
      | some slot => if s.parkq.contains slot then s else { s with parkq := s.parkq ++ [slot] }
      | none => s

/-! ### Acceptance (R277, R305, R307, R383) -/

/-- The hardware slot of a context used (R302). -/
def State.useCtx (s : State) (h : Nat) : State :=
  match (s.ctxOf h).bind fun c => c.hw with
  | some hw => s.put (oSlotLastUse hw) s.mtime
  | none => s

/-- SLOT_LAST_USE of the slot that a context holds (R302). -/
def State.lastUse (s : State) (slot : Nat) : Nat := ((s.ctx slot).hw.map fun hw => s.ctr (oSlotLastUse hw)).getD 0

/-- Whether a core can take a shard (R319). -/
def State.coreFree (s : State) (k : Nat) : Bool :=
  (s.core k).shard.isNone && s.ctr (oCoreState k) = 0 && !s.coreHalted k && !(s.core k).repairing && !(s.core k).pendStale &&
    !((List.range 4).any fun j => s.ctr (oArrayState (4 * k + j)) = 3)

/-- The tangent hint of an accepted STEP or RUN (R383). -/
def State.stepHint (s : State) (r : Ring) (v : Nat) : State :=
  let l := bits 439 436 v
  let t := bits 435 428 v
  if hOp v = 2 then s.hint (r.engine / 4) 1 l t r.part
  else forUpTo 24 s fun s c =>
    let n := ((List.range 4).filter fun i => s.corePart (4 * c + i) = r.part && s.coreFree (4 * c + i)).length
    if (List.range 4).any fun i => s.corePart (4 * c + i) = r.part then s.hint c n l t r.part else s

/-- Whether the fetched command of a ring may be accepted (R307). -/
def State.acceptable (s : State) (key : Nat) (c : Cmd) : Bool :=
  s.submits key && !c.nop && (s.parkedCtx c).isNone && (s.ring key).accepted.length < 64 &&
    (s.ring key).accepted.length + 2 ≤ s.compFree key

/-- A fetched command accepted (R307): its ACCEPT record is written; one that fails a check is ready to end (R283). Its handles
are checked as they now stand (R297). -/
def State.acceptCmd (s : State) (key : Nat) : State :=
  match (s.ring key).fetched with
  | none => s
  | some c =>
    if !s.acceptable key c then s
    else
      let r := s.ring key
      let bad := s.checkCmd r c.recs
      let aseq := (r.aseq + 1) % 2 ^ 32
      let c := { c with aseq := aseq, bad := bad, ended := if bad = 0 then none else some (4, bad) }
      let s := s.setRing key { r with
        fetched := none, aseq := aseq, cons := (r.cons + c.recs.length) % 2 ^ 32, accepted := r.accepted ++ [c] }
      let s := ((s.useCtx c.ctx).bump 8 oAccepted 1).putComp key (compRec 1 0 0 c)
      if bad ≠ 0 then s.bump 8 oCheckFailures 1
      else if c.op = 1 || c.op = 2 then s.stepHint r (c.recs.headD 0)
      else s

/-- A NOP consumed without acceptance or records (R282). -/
def State.takeNop (s : State) (key : Nat) : State :=
  match (s.ring key).fetched with
  | none => s
  | some c =>
    if !s.submits key || !c.nop then s
    else
      let r := s.ring key
      s.setRing key { r with fetched := none, cons := (r.cons + c.recs.length) % 2 ^ 32 }

/-! ### Translation faults (R258, R261 to R264) -/

/-- A fault record (R261). -/
def faultRec (f : TFault) (seq : Nat) : Nat :=
  seq * 2 ^ 480 + f.acc.ctx * 2 ^ 448 + f.acc.tag * 2 ^ 416 + f.acc.engine * 2 ^ 400 + f.acc.source % 256 * 2 ^ 392 + f.kind * 2 ^ 388 +
    f.acc.kind * 2 ^ 384 + f.level * 2 ^ 382 + min f.acc.rep 65535 * 2 ^ 360 + f.acc.va % 2 ^ 56 * 2 ^ 304 +
    (if f.kind = 3 then 0 else f.entry) * 2 ^ 240 + f.time % 2 ^ 64 * 2 ^ 176

/-- The fault ring of a context, if it is live and has room. -/
def State.faultRing (s : State) (h : Nat) : Option Nat :=
  (s.ctxOf h).bind fun c => (s.ringOf c.fring).bind fun key =>
    if (s.ring key).kind = 5 && ringUsed (s.ring key).prod (s.ring key).cons < 2 ^ (s.ring key).log2 then some key else none

/-- The first outstanding fault of a die without a record whose ring has room has its record written (R261). -/
def State.writeFault (s : State) (d : Nat) : State :=
  let due (f : TFault) : Bool := f.die = d && f.outstanding && !f.recorded && (s.faultRing f.acc.ctx).isSome
  match s.faults.find? due with
  | none => s
  | some f =>
    match s.faultRing f.acc.ctx with
    | none => s
    | some key =>
      let r := s.ring key
      let seq := (r.fseq + 1) % 2 ^ 32
      let at_ := hostKey (r.fn / 16) (r.base + 64 * (r.prod % 2 ^ r.log2))
      let s := { s with
        host := Memory.putNum s.host at_ 64 (faultRec { f with time := f.time - s.timeZero } seq)
        faults := (s.faults.foldl (fun (a : List TFault × Bool) x =>
          if !a.2 && due x then (a.1 ++ [{ x with recorded := true, seq := seq }], true) else (a.1 ++ [x], a.2)) ([], false)).1 }
      ((s.setRing key { r with fseq := seq, prod := (r.prod + 1) % 2 ^ 32 }).msix r.fn r.vector).bump 8 oPageFaults 1

/-- Whether a fault is among those that a SEQ written to a ring's replay doorbell covers (R262). -/
def State.replayed (s : State) (h seq : Nat) (f : TFault) : Bool :=
  f.outstanding && f.recorded && (seq + 2 ^ 32 - f.seq) % 2 ^ 32 < 2 ^ 31 &&
    ((s.ctxOf f.acc.ctx).map fun c => c.fring) = some h

/-- TLB_SETMASK (R257): the entries of groups that a partition loses are invalidated. -/
def State.setTlbMasks (s : State) (d : Nat) (ms : List (Nat × Nat)) : State :=
  let lost := ms.foldl (fun a m =>
    let old := s.objD (if m.1 = 0 then 0xFFFF else 0) (oTlbSetmask d m.1); a ||| (old - (old &&& m.2))) 0
  let s := ms.foldl (fun s m => s.put (oTlbSetmask d m.1) m.2) s
  s.tlbDrop fun t => t.unit = tlbDie d && lost.testBit (t.set / 128)

/-! ### Parking (R295, R296) -/

/-- Whether a resident context is idle (R295). -/
def State.ctxIdle (s : State) (slot : Nat) : Bool :=
  let h := s.handle 1 slot
  !(s.rings.any fun e => (e.2.accepted.any fun c => c.ctx = h) || (e.2.fetched.map fun c => c.ctx) = some h) &&
    !(s.faults.any fun f => f.acc.ctx = h)

/-- The lowest number that a list does not hold. -/
def lowestFree (l : List Nat) : Nat := ((List.range (l.length + 1)).find? fun i => !l.contains i).getD l.length

/-- The hardware slots in use (R295). -/
def State.hwUsed (s : State) : List Nat := s.ctxs.filterMap fun e => if e.2.live then e.2.hw else none

/-- A context made resident in a hardware slot: no entry of an earlier one is left (R267). -/
def State.makeResident (s : State) (slot hw : Nat) : State :=
  (s.tlbDrop fun t => t.slot = hw).setCtx slot { s.ctx slot with hw := some hw }

/-! ### Host object tables (R272) -/

/-- The key of the host object table that a port's physical function names. -/
def State.tableKey (s : State) (port : Nat) : Nat := hostKey port (s.ctr (oObjTable port))
/-- The table there: one that the module has not written is zeroed. -/
def State.hostTable (s : State) (port : Nat) : HostTable := Tbl.get HostTable.reset s.hostTables (s.tableKey port)

/-- An entry listed, or not. -/
def listed {α : Type} (t : Tbl α) (k : Nat) : Bool := t.any fun e => e.1 = k

/-- An object written through to a table where it is one of the port's, and taken out of it where it is no more. -/
def throughOne {α : Type} (t cur : Tbl α) (k : Nat) (mine : α → Bool) : Tbl α :=
  match cur.find? fun e => e.1 = k with
  | some e => if mine e.2 then Tbl.set t k e.2 else Tbl.erase t k
  | none => Tbl.erase t k

/-- The object of a handle kind and slot, with the generation of its slot, written through to the tables (R272). -/
def State.writeThrough (s : State) (kind slot : Nat) : State :=
  forUpTo 2 s fun s p =>
    let t := s.hostTable p
    let key := 65536 * kind + slot
    let u : HostTable := match kind with
      | 1 => { t with ctxs := throughOne t.ctxs s.ctxs slot fun x => x.live && !x.destroying && x.fn / 16 = p }
      | 2 => { t with mems := throughOne t.mems s.mems slot fun x => x.live && x.fn / 16 = p }
      | 3 => { t with arcs := throughOne t.arcs s.arcs slot fun x => x.live && x.fn / 16 = p }
      | 4 => { t with sigs := throughOne t.sigs s.sigs slot fun x => x.live && x.fn / 16 = p }
      | _ => { t with rings := throughOne t.rings s.rings key fun x => x.live && x.fn / 16 = p }
    let here := listed u.ctxs slot && kind = 1 || listed u.mems slot && kind = 2 || listed u.arcs slot && kind = 3 ||
      listed u.sigs slot && kind = 4 || listed u.rings key && 5 ≤ kind
    if here || listed t.gens key then
      { s with hostTables := Tbl.set s.hostTables (s.tableKey p) { u with gens := Tbl.set u.gens key (s.gen kind slot) } }
    else s

/-- Objects after a rebuilding: those of a port that its table lists, with the others'. -/
def rebuilt {α : Type} (cur tab : Tbl α) (mine : α → Bool) : Tbl α :=
  tab.foldl (fun t e => if listed t e.1 then t else Tbl.set t e.1 e.2) (cur.filter fun e => !mine e.2 || listed tab e.1)

/-- Every object rebuilt from the host object tables (R272): what a table does not list is there no more. -/
def State.rebuildObjects (s : State) : State :=
  let gs := (s.hostTable 0).gens ++ (s.hostTable 1).gens
  let s := forUpTo 2 s fun s p =>
    let t := s.hostTable p
    { s with
      ctxs := rebuilt s.ctxs t.ctxs fun x => x.fn / 16 = p
      mems := rebuilt s.mems t.mems fun x => x.fn / 16 = p
      arcs := rebuilt s.arcs t.arcs fun x => x.live && x.fn / 16 = p
      sigs := rebuilt s.sigs t.sigs fun x => x.fn / 16 = p
      rings := rebuilt s.rings t.rings fun x => x.fn / 16 = p }
  { s with gens := gs.foldl (fun t e => if listed t e.1 then t else Tbl.set t e.1 e.2) (s.gens.filter fun e => listed gs e.1) }

/-- The idle resident context that was used longest ago (R296). -/
def State.oldestIdle (s : State) : Option Nat :=
  (s.ctxs.filter fun e => e.2.live && e.2.hw.isSome && !e.2.destroying && s.ctxIdle e.1).foldl
    (fun (b : Option Nat) e => match b with
      | none => some e.1
      | some x => if s.lastUse e.1 < s.lastUse x then some e.1 else b) none

/-- The context that has waited longest is made resident, in a free slot or in that of the idle context used longest ago
(R296). -/
def State.parkEvict (s : State) : State :=
  match s.parkq with
  | [] => s
  | slot :: rest =>
    if !(s.ctx slot).live || (s.ctx slot).hw.isSome then { s with parkq := rest }
    else if lowestFree s.hwUsed < 4096 then ({ s with parkq := rest }.makeResident slot (lowestFree s.hwUsed)).writeThrough 1 slot
    else
      match s.oldestIdle with
      | none => s
      | some old =>
        let hw := (s.ctx old).hw.getD 0
        let s := ((s.setCtx old { s.ctx old with hw := none }).bump 8 oParkEvictions 1).writeThrough 1 old
        ({ s with parkq := rest }.makeResident slot hw).writeThrough 1 slot

/-! ### Meanings -/

/-- WALK_COMPLETE (R258). -/
def execWalkComplete (d : Nat) (s : State) : Res := onUnit s (isDie d) (s.finishWalk d)
/-- FAULT_RECORD_WRITE (R261). -/
def execFaultRecordWrite (d : Nat) (s : State) : Res := onUnit s (isDie d) (s.writeFault d)
/-- PROD_WRITE (R276). -/
def execProdWrite (fn page v : Nat) (s : State) : Res := onUnit s (isFn fn) (s.writeProd fn page v)
/-- CONS_WRITE (R276). -/
def execConsWrite (fn page v : Nat) (s : State) : Res := onUnit s (isFn fn) (s.writeCons fn page v)
/-- ACCEPT (R307). -/
def execAccept (r : Nat) (s : State) : Res := .next (s.acceptCmd r)
/-- NOP (R282). -/
def execNop (r : Nat) (s : State) : Res := .next (s.takeNop r)
/-- PARK_EVICTION (R296). -/
def execParkEviction (s : State) : Res := .next s.parkEvict

end Sys2Proof.Machine
end

