-- ==== Sys2Proof/Machine/Watch.lean ====
section
/-! DEFINITION. Tensor watch: what a watch point makes of the entries pushed into its queue (R417 to R419). -/

namespace Sys2Proof.Machine

/-- A watch point by 4 × core + point. -/
def State.watchU (s : State) (u : Nat) : WatchU := Tbl.get WatchU.reset s.watches u
/-- The same replaced. -/
def State.setWatchU (s : State) (u : Nat) (w : WatchU) : State := { s with watches := Tbl.set s.watches u w }

/-- The histogram bin of a nonzero finite value (R418). -/
def watchBin (m : Nat) (e explo : Int) : Nat := (max 0 (min 15 ((Nat.log2 m : Int) + e - explo))).toNat

/-- One element seen (R418). Squares are rounded to binary64 before they are added. -/
def WatchU.see (w : WatchU) (explo : Int) (v : FNum) : WatchU :=
  let w := { w with count := saturate 64 (w.count + 1) }
  let d := (deliver 10 .tiesEven v).1
  let mm (w : WatchU) : WatchU :=
    { w with
      any := true
      min := if w.any then (fMinMax 10 false w.min d).1 else d
      max := if w.any then (fMinMax 10 true w.max d).1 else d }
  match v with
  | .nan => { w with nan := saturate 64 (w.nan + 1) }
  | .inf _ => mm { w with inf := saturate 64 (w.inf + 1) }
  | .fin _ m e =>
    let w := mm w
    let w := { w with
      sum := (fAdd 10 .tiesEven w.sum d).1
      sumsq := (fAdd 10 .tiesEven w.sumsq (fMul 10 .tiesEven d d).1).1 }
    if m = 0 then { w with zeros := saturate 64 (w.zeros + 1) }
    else { w with hist := Tbl.modify 0 w.hist (watchBin m e explo) fun n => saturate 32 (n + 1) }

/-- The elements of an entry in a format (R418): a carry form is one element of a column. -/
def watchElems (f data width : Nat) : List FNum :=
  if fmtBits f = 0 then []
  else (List.range (8 * width / fmtBits f)).map fun i =>
    let e := lane (fmtBits f) i data
    if f = 9 then (Carry.read e).value else decodeFmt f e

/-- An entry taken into an open window (R418). -/
def WatchU.take (w : WatchU) (cfg data width : Nat) : WatchU :=
  let w := (watchElems (bits 57 54 cfg) data width).foldl (fun (w : WatchU) v => w.see (sext 8 (bits 53 46 cfg)) v) w
  { w with crc := (crc32cFrom (BitVec.ofNat 32 w.crc) (leBytes width data)).toNat }

/-- The window of a watch point closes (R417): the results are frozen, a WATCH record is written (R419), and the point re-arms. MIN
and MAX of a window in which every element was NaN are stated nowhere. -/
def State.watchClose (s : State) (u : Nat) : State :=
  let w := s.watchU u
  if !w.open_ then s
  else
    let lo := if w.any then w.min else (Config.freeNat 5 s.free).toNat
    let hi := if w.any then w.max else (Config.freeNat 6 s.free).toNat
    let s := if w.any then s else s.drew
    let s := s.setWatchU u { w with open_ := false }
    let s := (s.put (oWatchState u) 1).put (oWatchCounts u) (packLanes 64 [w.count, w.nan, w.inf, w.zeros])
    let s := (s.put (oWatchStats u) (packLanes 64 [lo, hi, w.sum, w.sumsq])).put (oWatchHist u)
      (packLanes 32 ((List.range 16).map fun i => Tbl.get 0 w.hist i))
    let s := s.put (oWatchCrc u) w.crc
    let f (x : Nat) : Nat := (convert 6 10 .tiesEven x).1
    s.trace 0x20 (u / 4) w.tag w.ctx (u % 4 * 2 ^ 318 + w.crc * 2 ^ 256 + saturate 32 w.count * 2 ^ 224 + saturate 32 (w.nan + w.inf) * 2 ^ 192 +
      saturate 32 w.zeros * 2 ^ 160 + f lo * 2 ^ 128 + f hi * 2 ^ 96 + w.sum * 2 ^ 32)

/-- One watch point and an entry pushed into queue `q` of its core (R417). -/
def State.watchOne (s : State) (u q data width : Nat) (last : Bool) : State :=
  let cfg := s.ctr (oWatchCfg u)
  if !cfg.testBit 63 || bits 62 58 cfg ≠ q then s
  else
    let w := s.watchU u
    let h := (s.core (u / 4)).shard.getD Shard.reset
    let opens := (h.tag ^^^ s.ctr (oWatchTag u)) &&& s.ctr (oWatchMask u) = 0
    if !w.open_ && !opens then s
    else
      let w := if w.open_ then w else { WatchU.reset with open_ := true, tag := h.tag, ctx := h.ctx }
      let s := (s.setWatchU u (w.take cfg data width)).put (oWatchState u) 2
      if last then s.watchClose u else s

/-- An entry pushed into a queue of core `k`, as its watch points see it (R417). -/
def State.watchPush (s : State) (k q data width : Nat) (last : Bool) : State :=
  forUpTo 4 s fun s i => s.watchOne (4 * k + i) q data width last

/-- The end of a program closes its windows (R417). -/
def State.watchEnd (s : State) (k : Nat) : State := forUpTo 4 s fun s i => s.watchClose (4 * k + i)

end Sys2Proof.Machine
end

