-- ==== Sys2Proof/Machine/Cores.lean ====
section
/-! DEFINITION. A core as a whole: its shard's end, its locks, its halts, and the counters of its context (R142, R163, R165, R194 to R201,
R294, R412). -/

namespace Sys2Proof.Machine

/-! ### Groups and blocks of a core -/

/-- A group. -/
def State.group (s : State) (k g : Nat) : Group := Tbl.get Group.reset s.groups (64 * k + g)
/-- Whether GRP_REGS of two groups differ (R201). -/
def Group.regsDiffer (x y : Group) : Bool :=
  x.live != y.live || (x.regs ++ y.regs).any fun e => Tbl.get 0 x.regs e.1 != Tbl.get 0 y.regs e.1
/-- Changes of GRP_REGS where a group is replaced: it is the selected one's registers that the object shows (R26, R201). -/
def State.versWith (s : State) (k g : Nat) (x : Group) : Tbl Nat :=
  if g = s.ctr (oGrpSel k) && (s.group k g).regsDiffer x then Tbl.modify 0 s.vers (oGrpRegs k) (fun n => n + 1) else s.vers
/-- The same replaced. -/
def State.setGroup (s : State) (k g : Nat) (x : Group) : State :=
  { s with groups := Tbl.set s.groups (64 * k + g) x, vers := s.versWith k g x }
/-- A block by its core and slot. -/
def State.block (s : State) (k b : Nat) : Block := Tbl.get Block.reset s.blocks (16 * k + b)
/-- The same replaced. -/
def State.setBlock (s : State) (k b : Nat) (x : Block) : State := { s with blocks := Tbl.set s.blocks (16 * k + b) x }
/-- An array. -/
def State.array (s : State) (a : Nat) : ArrayU := Tbl.get ArrayU.reset s.arrays a
/-- The same replaced. -/
def State.setArray (s : State) (a : Nat) (x : ArrayU) : State := { s with arrays := Tbl.set s.arrays a x }

/-- The resident groups of a core. -/
def State.groupsOf (s : State) (k : Nat) : List Nat := (List.range 64).filter fun g => (s.group k g).live

/-- Cycles in which a vector is in flight and the next one is not yet, at most 70 and up to a cycle (R92, R125). -/
def Vec.busy (v : Vec) (rest : List Vec) (upto : Nat) : Nat :=
  min 70 ((match rest with | x :: _ => min upto x.cycle | [] => upto) - v.cycle)

/-- The same of all vectors of an array. -/
def busyCycles (upto : Nat) : List Vec → Nat
  | [] => 0
  | v :: r => v.busy r upto + busyCycles upto r

/-- Whether a core has vectors in flight. -/
def State.vectorsOut (s : State) (k : Nat) : Bool := (List.range 4).any fun j => !(s.array (4 * k + j)).vecs.isEmpty

/-- Whether a core's stores have not all been acknowledged (R309). -/
def State.storesOut (s : State) (k : Nat) : Bool :=
  !(s.core k).stores.isEmpty || s.lattice.any fun m => m.src = k && m.changes || m.dst = k && m.kind = "COMP"

/-! ### Reconvergence (R182) -/

/-- The stack brought up to date: a path whose lanes have all exited or reached the rejoining point gives way to the path beneath, and a group at
its rejoining point takes the mask it had there. -/
def Group.reconverge (x : Group) : Nat → Group
  | 0 => x
  | n + 1 =>
    match x.stack with
    | [] => x
    | e :: r =>
      if x.active = 0 then { x with pc := e.pc, active := e.mask, stack := r }.reconverge n
      else if e.kind = 0 && x.pc = e.pc then { x with active := e.mask, stack := r }.reconverge n
      else
        match r with
        | u :: _ =>
          if e.kind = 1 && u.kind = 0 && x.pc = u.pc then { x with pc := e.pc, active := e.mask, stack := r }.reconverge n
          else x
        | [] => x

/-- The lanes of a group that have not left it. -/
def Group.alive (x : Group) : Nat := x.stack.foldl (fun m (e : SEnt) => m ||| e.mask) x.active

/-! ### Locks (R194 to R196) -/

/-- A group's locked sequence ended without effect: the home's lock and any request for one are gone. -/
def State.unlock (s : State) (k g : Nat) : State :=
  ({ s with
    hlocks := s.hlocks.filter fun h => !(h.core = k && h.group = g)
    lattice := s.lattice.filter fun m => !(m.src = k && m.atom.any fun (a : AtomMsg) => a.op = AtomOp.lock && a.group = g)
    txq := s.txq.filter fun w => w.2 ≠ HomeReq.lock k g }).serveAll

/-- A group as a failed locked sequence leaves it (R196): P`pd` is cleared in the lanes that executed LOCK.BEGIN, and every lane that was active there
and has not exited resumes at `fail`, on the paths that LOCK.BEGIN found. -/
def Group.lockFailed (x : Group) (l : LockSt) : Group :=
  let m := x.alive
  let y : Group := { x with
    lock := none, pc := l.fail, wait := .none, step := false, active := l.active &&& m
    preds := (bitsOf 32 l.lanes).foldl (fun t i => Tbl.modify 0 t i fun p => clrBit p l.pd) x.preds
    stack := l.stack.map fun (e : SEnt) => { e with mask := e.mask &&& m } }
  y.reconverge 34

/-- A locked sequence fails (R196): the buffered stores are discarded, and the group resumes at `fail`. -/
def State.lockFail (s : State) (k g : Nat) : State :=
  let x := s.group k g
  match x.lock with
  | none => s
  | some l => ((s.setGroup k g (x.lockFailed l)).unlock k g).bump 4 (oLockFails k) 1

/-- Every locked sequence of a core fails; `forced` by a forced halt (R198). -/
def State.dropLocks (s : State) (k : Nat) (forced : Bool) : State :=
  (s.groupsOf k).foldl (fun s g =>
    if (s.group k g).lock.isSome then (if forced then s.bump 4 oLockForced 1 else s).lockFail k g else s) s

/-! ### Halted time (R165, R198, R263, R293) -/

/-- A halt of a core begins to count. -/
def State.haltClock (s : State) (k : Nat) : State :=
  let c := s.core k
  if c.stood.isSome || !s.coreHalted k then s
  else s.setCore k { c with stood := some s.now, shard := c.shard.map fun h => { h with haltAt := some (h.haltAt.getD s.now) } }

/-- A moment since which something is timed, moved by the part of a halt that fell after it. -/
def movedPast (halt now t : Nat) : Nat := t + (now - max halt t)

/-- The waits of a core's own ring, moved by the time the core stood still (R165). -/
def State.moveWaits (s : State) (k halt : Nat) : State :=
  let key := 65536 * 6 + k
  let r := s.ring key
  if r.live then s.setRing key { r with accepted := r.accepted.map fun (c : Cmd) => { c with waitSince := c.waitSince.map (movedPast halt s.now) } } else s

/-- A core has become free (R319). -/
def State.freed (s : State) (k : Nat) : State := s.setCore k { s.core k with freeAt := s.now }

/-- A core runs again: its shard's start, the detection of its faults and the waits of its ring move by the time it stood still. -/
def State.runClock (s : State) (k : Nat) : State :=
  let c := s.core k
  match c.stood with
  | none => s
  | some t =>
    if s.coreHalted k then s
    else
      let late (a : Access) : Access := if a.engine = k then { a with since := a.since.map (movedPast t s.now) } else a
      let s := s.setCore k { c with
        stood := none
        freeAt := s.now
        shard := c.shard.map fun h => { h with haltAt := none, start := movedPast (h.haltAt.getD s.now) s.now h.start } }
      { s with
        faults := s.faults.map fun (f : TFault) => { f with acc := late f.acc, joined := f.joined.map late }
        walks := s.walks.map fun (w : Walk) => { w with acc := late w.acc } }.moveWaits k t

/-! ### Counters of a context (R412) -/

/-- The counts that a core's running shard has made, added to its context's counters. -/
def State.flushCounts (s : State) (k : Nat) : State :=
  let c := s.core k
  match c.shard with
  | none => s
  | some h =>
    let s := s.setCore k { c with cnts := [] }
    match s.ctxOf h.ctx with
    | none => s
    | some x =>
      let add : Tbl Nat := (List.range 16).foldl (fun (t : Tbl Nat) i =>
        let sel := lane 32 i x.cntCfg
        if sel.testBit 31 then
          Tbl.modify 0 t i fun v => (v + Tbl.get 0 c.cnts (bits 15 0 sel)) % 2 ^ 64
        else t) x.cnt
      s.setCtx (hSlot h.ctx) { x with cnt := add }

/-! ### The end of what runs on a core -/

/-- The engine time of a core's shard, charged to its command, its partition and its ring (R322, R325, R326). -/
def State.chargeShard (s : State) (k : Nat) : State :=
  match (s.core k).shard with
  | none => s
  | some h =>
    let ns := h.haltAt.getD s.now - h.start
    let s := s.setCmd h.ring h.aseq fun c => { c with engineNs := c.engineNs + ns }
    let r := s.ring h.ring
    (s.setRing h.ring { r with virt := r.virt + ns }).bump 8 (oEngineNs r.part) ns

/-- Nothing of a shard is left on a core: its watch windows close (R417), its sequencer is idle, its groups and blocks are gone, its vectors in flight and its
waits are dropped, its queues are empty, and its accesses stall nowhere (R142, R163, R200, R260). -/
def State.clearCore (s : State) (k : Nat) : State :=
  let s := (((s.watchEnd k).dropLocks k false).flushCounts k).dropUnit fun a => a.engine = k
  let s := (s.groupsOf k).foldl (fun s g => s.unwatch (.group k g)) (s.unwatch (.seq k))
  let s := forUpTo 4 s fun s j =>
    let a := s.array (4 * k + j)
    if a.vecs.isEmpty && !a.starting then s
    else (s.setArray (4 * k + j) { a with vecs := [], starting := false }).bump 8 (oBusyCycles (4 * k + j)) (busyCycles (s.seq k).cycle a.vecs)
  let s := { s with
    vers := s.versWith k (s.ctr (oGrpSel k)) Group.reset
    seqs := if s.seqs.any fun e => e.1 = k then Tbl.set s.seqs k Seq.reset else s.seqs
    groups := s.groups.filter fun e => e.1 / 64 ≠ k
    blocks := s.blocks.filter fun e => e.1 / 16 ≠ k }
  let c := s.core k
  let s := s.setCore k { c with shard := none, acps := [], cnts := [], pendStale := false, freeAt := s.now }
  let s := (((s.put (oSeqState k) 0).put (oHaltCause k) 0).runClock k).peerForget fun q => q.engine = k
  if c.pendStale then s.staleCore k else s

/-- A core's shard stopped without an end of its own (R290, R297, R441): its engine time is charged, and its stores that reached no home are
discarded. -/
def State.stopShard (s : State) (k : Nat) (forced : Bool) : State :=
  let s := (s.chargeShard k).dropLocks k forced
  (s.setCore k { s.core k with stores := [], upgs := [] }).clearCore k

/-! ### Capture records (R294) -/

/-- Loop indexes of a stream, five-and-a-half of them packed in 120 bits: i0 first (R155, R294). -/
def genIndexes (g : Gen) (pos : Nat) : Nat :=
  ((List.range 6).foldl (fun (a : Nat × Nat) j =>
    let b := max 1 (g.bounds.getD j 1)
    if j < g.levels then (a.1 + a.2 % b * 2 ^ (20 * j), a.2 / b) else a) (0, pos)).1

/-- The group entries of a capture (R200, R294): the faulting group, then others in ascending number, eight at most. -/
def State.captureGroups (s : State) (k first : Nat) (faulted : Bool) : Nat × Nat :=
  let gs := s.groupsOf k
  let l := ((if faulted && gs.contains first then [first] else []) ++ gs.filter fun g => !(faulted && g = first)).take 8
  let ent (g : Nat) : Nat := g * 2 ^ 26 + twos 26 (((s.group k g).pc - (s.group k g).entry) / 8)
  (l.length, packLanes 32 (l.map ent))

/-- The word, queue occupancies, loop indexes and groups of a core's capture. -/
def State.captureCore (s : State) (k : Nat) (h : Shard) : Nat :=
  let q := s.seq k
  let occ := packLanes 16 ((List.range 32).map fun i =>
    let x := Tbl.get Queue.reset q.queues i
    min 65535 (x.entries.length + x.reserved))
  let ag := packLanes 120 ((List.range 8).map fun i =>
    match q.streams.find? fun e => e.1 = i with
    | some e => genIndexes (Tbl.get Gen.reset q.gens i) e.2.pos
    | none => 0)
  let gp := s.captureGroups k h.faultGroup h.byGroup
  q.pc % 2048 * 2 ^ 1813 + h.index * 2 ^ 1806 + gp.1 * 2 ^ 1802 + occ * 2 ^ 1280 + ag * 2 ^ 320 + gp.2 * 2 ^ 64

/-- A capture record written (R294): `body` holds the engine's own fields. Answers the slot. -/
def State.capture (s : State) (key : Nat) (c : Cmd) (code engine body : Nat) : State × Nat :=
  let r := s.ring key
  let slot := r.captures % 2 ^ r.capLog2
  let v := code * 2 ^ 2032 + engine * 2 ^ 2016 + c.tag * 2 ^ 1984 + c.ctx * 2 ^ 1952 +
    (r.base + 64 * (c.index % 2 ^ r.log2)) % 2 ^ 64 * 2 ^ 1888 + s.mtime % 2 ^ 64 * 2 ^ 1824 + body
  ({ s with host := Memory.putNum s.host (hostKey (r.fn / 16) (r.capBase + 256 * slot)) 256 v }.setRing key
    { r with captures := r.captures + 1 }, slot)

/-- CTX_COUNTER_UPDATE (R412). -/
def execCtxCounterUpdate (k : Nat) (s : State) : Res := onUnit s (isCore k) (s.flushCounts k)

end Sys2Proof.Machine
end

