-- ==== Sys2Proof/Machine/Control.lean ====
section
/-! DEFINITION. The control ring (R278 to R280): contexts, rings, memory objects, signals and invalidations. Arcs are in Arcs.lean, and the
destruction of a context in Endings.lean. -/

namespace Sys2Proof.Machine

/-! ### Results (R278, R280) -/

/-- What a control command answers: STATUS, HANDLE, RESULT2. -/
abbrev CtlRes := Nat × Nat × Nat

/-- The record at the head of a control ring, if the module serves it (R278, R446). -/
def State.ctlHead (s : State) (fn : Nat) : Option Nat :=
  let c := s.ctl fn
  if !s.serves || s.ctr (oCtlEnable fn) = 0 || ringUsed c.prod c.cons = 0 then none
  else some (Memory.num s.host (hostKey (fn / 16) (s.ctr (oCtlRingBase fn) + 64 * (c.cons % s.ctlSize fn))) 64)

/-- The result of the head command written, CONS past it, and vector 0 raised (R278, R280). -/
def State.ctlDone (s : State) (fn v : Nat) (r : CtlRes) : State :=
  let c := s.ctl fn
  let rec64 := s.mtime % 2 ^ 64 * 2 ^ 192 + r.2.2 * 2 ^ 128 + r.2.1 * 2 ^ 64 + r.1 * 2 ^ 32 + hTag v
  let at_ := hostKey (fn / 16) (s.ctr (oCtlResultBase fn) + 64 * (c.cons % s.ctlSize fn))
  ({ s with host := Memory.putNum s.host at_ 64 rec64 }.setCtl fn { c with cons := (c.cons + 1) % 2 ^ 32, stale := 0 }).msix fn 0

/-- Operand word W`i` of a control record (R279). -/
def ctlW (v i : Nat) : Nat := bits (128 + 64 * i + 63) (128 + 64 * i) v

/-- The header of a control command is one record without flags or context (R279, R281). -/
def ctlHeadOk (v : Nat) : Bool := hFlags v = 0 && hLength v = 1 && hCtx v = 0 && zeros v [(111, 104), (31, 0)]

/-- The handle that a successful control command has created or destroyed (R279): the result's, or the operand's. -/
def ctlHandleOf (v : Nat) (r : CtlRes) : Nat := if r.2.1 = 0 then bits 31 0 (ctlW v 0) else r.2.1

/-- A control command of an opcode at the head of a function's ring: checked, performed by `f` and answered. What it has created or destroyed is
written through to the host object tables (R272). `zero` lists the reserved operand bits, as word, high bit, low bit (R279). -/
def State.control (s : State) (fn op : Nat) (zero : List (Nat × Nat × Nat)) (f : State → Nat → State × CtlRes) : State :=
  match s.ctlHead fn with
  | none => s
  | some v =>
    if hOp v ≠ op || (s.ctl fn).stale ≠ 0 then s
    else if !ctlHeadOk v then s.ctlDone fn v (0x0903, 0, 0)
    else if zero.any fun z => bits z.2.1 z.2.2 (ctlW v z.1) ≠ 0 then s.ctlDone fn v (0x0912, 0, 0)
    else
      let r := f s v
      let h := ctlHandleOf v r.2
      (if r.2.1 = 0 then r.1.writeThrough (hKind h) (hSlot h) else r.1).ctlDone fn v r.2

/-- The partition that a command of a function acts for: the operand's on a physical function, its own on a virtual one
(R273). -/
def State.fnPart (s : State) (fn p : Nat) : Nat := if fn % 16 = 0 then p else s.ctr (oFuncPartition fn)

/-- Whether a function may name a handle's object (R271, R273): its code, 0 for yes. -/
def State.ctlHandle (s : State) (fn kind h : Nat) (live : Bool) (part : Nat) : Nat :=
  if hKind h ≠ kind then 0x0902
  else if !s.fresh h || !live then 0x0901
  else if fn % 16 ≠ 0 && part ≠ s.ctr (oFuncPartition fn) then 0x0902
  else 0

/-- The same for a context. -/
def State.ctlCtx (s : State) (fn h : Nat) : Nat := s.ctlHandle fn 1 h (s.ctx (hSlot h)).live (s.ctx (hSlot h)).part

/-- The same for a ring of any kind. -/
def State.ctlRing (s : State) (fn h : Nat) : Nat :=
  if hKind h < 5 || 8 < hKind h then 0x0902
  else s.ctlHandle fn (hKind h) h (s.ring (65536 * hKind h + hSlot h)).live (s.ring (65536 * hKind h + hSlot h)).part

/-- A failing answer. -/
def State.refuse (s : State) (code : Nat) : State × CtlRes := (s, code, 0, 0)

/-- Entries of an MSI-X table: the manual gives no size (log entry 21). -/
def msixSize : Nat := 2048

/-- A timeout of 1 µs to 1 h (R279). -/
def timeoutOk (us : Nat) : Bool := 1 ≤ us && us ≤ 3600000000

/-! ### Contexts (R250, R279, R295) -/

/-- Whether an address may be a ROOT (R250). -/
def rootOk (a : Nat) : Bool := a % 8192 = 0 && (a < 8 * octantBytes || (0x40000000000 ≤ a && a < 0xC0000000000))

/-- CTX-CREATE (R279, R295). -/
def State.ctxCreate (s : State) (fn v : Nat) : State × CtlRes :=
  let p := s.fnPart fn (bits 3 0 (ctlW v 1))
  let fr := bits 63 32 (ctlW v 1)
  let us := bits 31 0 (ctlW v 2)
  let frBad := if fr = 0 then 0 else
    let c := s.ctlHandle fn 8 fr (s.ring (65536 * 8 + hSlot fr)).live (s.ring (65536 * 8 + hSlot fr)).part
    if c ≠ 0 then c else if (s.ring (65536 * 8 + hSlot fr)).part ≠ p then 0x0902 else 0
  if s.ctr (oPartState p) = 2 then s.refuse 0x0911
  else if !rootOk (ctlW v 0) || !(us = 0 || timeoutOk us) then s.refuse 0x0912
  else if frBad ≠ 0 then s.refuse frBad
  else
    let slot := lowestFree ((s.ctxs.filter fun e => e.2.live).map fun e => e.1)
    let hw := lowestFree s.hwUsed
    if 65536 ≤ slot then s.refuse 0x0910
    else
      let t := if us = 0 then s.objD 100000000 oFaultTimeoutDefault else 1000 * us
      let s := s.setCtx slot { Ctx.reset with live := true, root := ctlW v 0, part := p, fring := fr, timeout := t, fn := fn }
      let s := if hw < 4096 then s.makeResident slot hw else s
      (s, 0, s.handle 1 slot, if hw < 4096 then 0 else 1)

/-! ### Rings (R270, R275, R279) -/

/-- The handle kind of a ring kind (R270). -/
def ringHandleKind (kind : Nat) : Nat := if kind < 2 then 5 else if kind < 4 then 6 else if kind = 4 then 7 else 8

/-- Whether a ring kind's slot is fixed, and where (R270; log entry 22). -/
def fixedSlot (kind part engine : Nat) : Option Nat :=
  if kind < 2 then some (2 * part + kind) else if kind = 2 then some engine else if kind = 3 then some (96 + engine) else none

/-- Slots of a kind of ring that takes any (R270). -/
def ringSlots (kind : Nat) : Nat := if kind = 4 then 160 else 256

/-- The check of a submitting ring's own operands (R279), 0 for none. -/
def State.submitCheck (s : State) (fn v kind p : Nat) : Nat :=
  let comp := bits 31 0 (ctlW v 2)
  let ck := 65536 * 7 + hSlot comp
  let e := bits 23 16 (ctlW v 1)
  let c := s.ctlHandle fn 7 comp (s.ring ck).live (s.ring ck).part
  if c ≠ 0 then c
  else if (s.ring ck).part ≠ p || s.rings.any (fun x => x.2.live && x.2.kind < 4 && compKey x.2 = ck) then 0x0912
  else if !timeoutOk (bits 63 32 (ctlW v 2)) || !timeoutOk (bits 31 0 (ctlW v 3)) then 0x0912
  else if 12 < bits 35 32 (ctlW v 3) || ctlW v 4 % 256 ≠ 0 then 0x0912
  else if kind = 2 && (95 < e || s.corePart e ≠ p) then 0x0912
  else if kind = 3 && (31 < e || s.ctr (oCePartition e) ≠ p) then 0x0912
  else 0

/-- RING-CREATE (R279). -/
def State.ringCreate (s : State) (fn v : Nat) : State × CtlRes :=
  let w1 := ctlW v 1
  let kind := bits 3 0 w1
  let log2 := bits 8 4 w1
  let p := s.fnPart fn (bits 63 60 w1)
  let bad := if kind < 4 then s.submitCheck fn v kind p else 0
  if 5 < kind || log2 < 6 || 20 < log2 || ctlW v 0 % 4096 ≠ 0 || msixSize ≤ bits 47 32 w1 then s.refuse 0x0912
  else if bad ≠ 0 then s.refuse bad
  else
    let hk := ringHandleKind kind
    let used := (s.rings.filter fun e => e.2.live && e.1 / 65536 = hk).map fun e => e.1 % 65536
    let slot := (fixedSlot kind p (bits 23 16 w1)).getD (lowestFree used)
    let pages := (s.rings.filter fun e => e.2.live && e.2.fn = fn).map fun e => e.2.page
    let page := lowestFree (0 :: pages)
    if used.contains slot || (4 ≤ kind && ringSlots kind ≤ slot) || 3839 < page then s.refuse 0x0910
    else
      let sub := kind < 4
      let comp := bits 31 0 (ctlW v 2)
      let r : Ring := { Ring.reset with
        live := true, kind := kind, part := p, fn := fn, base := ctlW v 0, log2 := log2, page := page
        vector := bits 47 32 w1, engine := bits 23 16 w1, comp := if sub then comp else 0
        runTo := 1000 * bits 63 32 (ctlW v 2), waitTo := 1000 * bits 31 0 (ctlW v 3)
        capBase := ctlW v 4, capLog2 := bits 35 32 (ctlW v 3), resumed := true
        pRseq := if sub then (s.ring (65536 * 7 + hSlot comp)).rseq else 0 }
      let s := s.setRing (65536 * hk + slot) r
      (s, 0, s.handle hk slot, page)

/-- Whether a ring may not be destroyed (R279): it is not empty, or a command accepted from it lacks its terminal record. -/
def State.ringBusy (s : State) (key : Nat) : Bool := (s.ring key).prod ≠ (s.ring key).cons || !(s.ring key).accepted.isEmpty

/-- RING-DESTROY (R279). -/
def State.ringDestroy (s : State) (fn v : Nat) : State × CtlRes :=
  let h := bits 31 0 (ctlW v 0)
  let key := 65536 * hKind h + hSlot h
  let c := s.ctlRing fn h
  if c ≠ 0 then s.refuse c
  else if s.ringBusy key then s.refuse 0x0911
  else ({ s with rings := Tbl.erase s.rings key }.nextGen (hKind h) (hSlot h), 0, 0, 0)

/-! ### Memory objects (R270, R279) -/

/-- Whether a range lies in a partition's region of one octant (R232). -/
def State.inRegion (s : State) (p a n : Nat) : Bool :=
  match s.place a, s.place (a + n - 1) with
  | .chan _ _ o, .chan _ _ o' => o = p && o' = p && a / octantBytes = (a + n - 1) / octantBytes
  | _, _ => false

/-- MEM-CREATE (R279). -/
def State.memCreate (s : State) (fn v : Nat) : State × CtlRes :=
  let a := ctlW v 0
  let n := ctlW v 1
  let p := s.fnPart fn (bits 3 0 (ctlW v 2))
  if a % 65536 ≠ 0 || n % 65536 ≠ 0 || n = 0 || !s.inRegion p a n then s.refuse 0x0912
  else if s.mems.any fun e => e.2.live && a < e.2.pa + e.2.len && e.2.pa < a + n then s.refuse 0x0912
  else
    let slot := lowestFree ((s.mems.filter fun e => e.2.live).map fun e => e.1)
    if 65536 ≤ slot then s.refuse 0x0910
    else
      let s := { s with mems := Tbl.set s.mems slot { live := true, pa := a, len := n, part := p, fn := fn } }
      (s, 0, s.handle 2 slot, 0)

/-- MEM-DESTROY (R279). -/
def State.memDestroy (s : State) (fn v : Nat) : State × CtlRes :=
  let h := bits 31 0 (ctlW v 0)
  let m := Tbl.get MemObj.reset s.mems (hSlot h)
  let c := s.ctlHandle fn 2 h m.live m.part
  if c ≠ 0 then s.refuse c
  else ({ s with mems := Tbl.erase s.mems (hSlot h) }.nextGen 2 (hSlot h), 0, 0, 0)

/-! ### Signals (R279, R336) -/

/-- SIG-CREATE (R279). -/
def State.sigCreate (s : State) (fn v : Nat) : State × CtlRes :=
  let h := bits 31 0 (ctlW v 0)
  let va := ctlW v 1
  let w2 := ctlW v 2
  let c := s.ctlCtx fn h
  if c ≠ 0 then s.refuse c
  else if va % 8 ≠ 0 || 2 ^ 56 ≤ va || msixSize ≤ bits 15 0 w2 then s.refuse 0x0912
  else
    let slot := lowestFree ((s.sigs.filter fun e => e.2.live).map fun e => e.1)
    if 65536 ≤ slot then s.refuse 0x0910
    else
      let x : SigObj := { live := true, ctx := h, part := (s.ctx (hSlot h)).part, va := va, vector := bits 15 0 w2, msix := bit 16 w2, fn := fn }
      let s := { s with sigs := Tbl.set s.sigs slot x }
      (s, 0, s.handle 4 slot, 0)

/-- SIG-DESTROY (R279). -/
def State.sigDestroy (s : State) (fn v : Nat) : State × CtlRes :=
  let h := bits 31 0 (ctlW v 0)
  let x := Tbl.get SigObj.reset s.sigs (hSlot h)
  let c := s.ctlHandle fn 4 h x.live x.part
  if c ≠ 0 then s.refuse c
  else ({ s with sigs := Tbl.erase s.sigs (hSlot h) }.nextGen 4 (hSlot h), 0, 0, 0)

/-! ### Invalidation (R265, R266) -/

/-- Whether a TLB entry overlaps a range of `pages` units of 64 KiB, 0 for the whole address space (R265). -/
def overlaps (t : TlbE) (va pages : Nat) : Bool :=
  let lo := t.vpn * 2 ^ pageShift t.size
  pages = 0 || (lo < va + 65536 * pages && va < lo + 2 ^ pageShift t.size)

/-- The signal of an invalidation added to, and its count (R266, R268). -/
def State.invalidated (s : State) (fn v : Nat) : State :=
  (s.bump 8 oInvalidations 1).addSignal ⟨bits 31 0 (ctlW v 0), ctlW v 3, ctlW v 4, .host (fn / 16), 0, 0⟩

/-- INVALIDATE (R265, R266): its entries leave every TLB at once, and the context's walks start again; its result waits for INVALIDATE_COMPLETE,
but for a context that is parked or in ERROR. -/
def State.invalidate (s : State) (fn : Nat) : State :=
  match s.ctlHead fn with
  | none => s
  | some v =>
    let h := bits 31 0 (ctlW v 0)
    let c := s.ctlCtx fn h
    if hOp v ≠ 0x4B || (s.ctl fn).stale ≠ 0 then s
    else if !ctlHeadOk v then s.ctlDone fn v (0x0903, 0, 0)
    else if bits 63 32 (ctlW v 0) ≠ 0 || ctlW v 5 ≠ 0 then s.ctlDone fn v (0x0912, 0, 0)
    else if c ≠ 0 then s.ctlDone fn v (c, 0, 0)
    else if ctlW v 1 % 65536 ≠ 0 || ctlW v 3 % 8 ≠ 0 then s.ctlDone fn v (0x0912, 0, 0)
    else
      let x := s.ctx (hSlot h)
      match x.hw with
      | none => (s.invalidated fn v).ctlDone fn v (0, 0, 0)
      | some hw =>
        if x.error then (s.invalidated fn v).ctlDone fn v (0, 0, 0)
        else
          let s := s.tlbDrop fun t => t.slot = hw && overlaps t (ctlW v 1) (ctlW v 2)
          { s with walks := s.walks.map fun (w : Walk) => if w.acc.ctx = h then { w with at_ := none } else w }.setCtl fn
            { s.ctl fn with stale := hSlot h + 1 }

/-- Whether accesses of a context are still on their way to their homes or to peers (R266 step 3). -/
def State.ctxInFlight (s : State) (h : Nat) : Bool :=
  s.arcs.any (fun e => e.2.live && e.2.ctx = h && e.2.unacked.any fun t => t.m.addrk = 1 && t.m.sig.isNone) ||
  s.peers.any (fun q => (s.arc q.arc).ctx = h && q.data.isNone) ||
  (List.range 96).any (fun k => ((s.core k).shard.map fun x => x.ctx) = some h &&
    (s.storesOut k || (s.seq k).streams.any fun e => e.2.acks ≠ 0)) ||
  (List.range 32).any (fun e => (s.ring (kCopyRing e)).accepted.any (fun c => c.ctx = h && c.op = 3 && c.begun && c.ended.isNone) &&
    s.lattice.any fun m => m.dst = 512 + e && m.kind = "COMP")

/-- INVALIDATE_COMPLETE (R266): every access through a removed entry has been performed. -/
def State.invalidateDone (s : State) (fn : Nat) : State :=
  match s.ctlHead fn with
  | none => s
  | some v =>
    let h := bits 31 0 (ctlW v 0)
    if hOp v ≠ 0x4B || (s.ctl fn).stale ≠ hSlot h + 1 || s.ctxInFlight h then s
    else (s.invalidated fn v).ctlDone fn v (0, 0, 0)

/-! ### Enabling, and commands that no opcode names -/

/-- CTL_ENABLE written (R278, R304): a ring that is turned on starts at index 0 (log entry 23). -/
def State.setCtlEnable (s : State) (fn v : Nat) : State :=
  if s.ctr (oCtlEnable fn) = v then s else (s.put (oCtlEnable fn) v).setCtl fn CtlRing.reset

/-- The opcodes of R279. -/
def isControlOp (op : Nat) : Bool := 0x41 ≤ op && op ≤ 0x4B

/-- COMMAND_FETCH of a ring, or of the control ring of function `r`: a command there whose opcode R279 does not give is answered
with COMMAND-INVALID. -/
def State.commandFetch (s : State) (r : Nat) : State :=
  if r < 32 then
    match s.ctlHead r with
    | none => s
    | some v => if isControlOp (hOp v) then s else s.ctlDone r v (0x0903, 0, 0)
  else s.fetch r

/-- COMMAND_FETCH (R283). -/
def execCommandFetch (r : Nat) (s : State) : Res := .next (s.commandFetch r)
/-- CTX_CREATE (R279). -/
def execCtxCreate (fn : Nat) (s : State) : Res :=
  onUnit s (isFn fn) (s.control fn 0x41 [(1, 31, 4), (2, 63, 32), (3, 63, 0), (4, 63, 0), (5, 63, 0)] fun s v => s.ctxCreate fn v)
/-- RING_CREATE (R279). -/
def execRingCreate (fn : Nat) (s : State) : Res :=
  onUnit s (isFn fn)
    (s.control fn 0x43 [(1, 15, 9), (1, 31, 24), (1, 59, 48), (3, 63, 36), (5, 63, 0)] fun s v => s.ringCreate fn v)
/-- RING_DESTROY (R279). -/
def execRingDestroy (fn : Nat) (s : State) : Res :=
  onUnit s (isFn fn)
    (s.control fn 0x44 [(0, 63, 32), (1, 63, 0), (2, 63, 0), (3, 63, 0), (4, 63, 0), (5, 63, 0)] fun s v => s.ringDestroy fn v)
/-- MEM_CREATE (R279). -/
def execMemCreate (fn : Nat) (s : State) : Res :=
  onUnit s (isFn fn) (s.control fn 0x45 [(2, 63, 4), (3, 63, 0), (4, 63, 0), (5, 63, 0)] fun s v => s.memCreate fn v)
/-- MEM_DESTROY (R279). -/
def execMemDestroy (fn : Nat) (s : State) : Res :=
  onUnit s (isFn fn)
    (s.control fn 0x46 [(0, 63, 32), (1, 63, 0), (2, 63, 0), (3, 63, 0), (4, 63, 0), (5, 63, 0)] fun s v => s.memDestroy fn v)
/-- SIG_CREATE (R279). -/
def execSigCreate (fn : Nat) (s : State) : Res :=
  onUnit s (isFn fn)
    (s.control fn 0x49 [(0, 63, 32), (2, 63, 17), (3, 63, 0), (4, 63, 0), (5, 63, 0)] fun s v => s.sigCreate fn v)
/-- SIG_DESTROY (R279). -/
def execSigDestroy (fn : Nat) (s : State) : Res :=
  onUnit s (isFn fn)
    (s.control fn 0x4A [(0, 63, 32), (1, 63, 0), (2, 63, 0), (3, 63, 0), (4, 63, 0), (5, 63, 0)] fun s v => s.sigDestroy fn v)
/-- INVALIDATE (R265). -/
def execInvalidate (fn : Nat) (s : State) : Res := onUnit s (isFn fn) (s.invalidate fn)
/-- INVALIDATE_COMPLETE (R266). -/
def execInvalidateComplete (fn : Nat) (s : State) : Res := onUnit s (isFn fn) (s.invalidateDone fn)

end Sys2Proof.Machine
end

