-- ==== Sys2Proof/Machine/Work.lean ====
section
/-! DEFINITION. Accepted work: the beginning of commands, the placement of shards, their ends, timeouts and terminal records (R286 to
R296, R308 to R313, R319 to R326, R340). -/

namespace Sys2Proof.Machine

/-! ### A ring's commands in order (R289) -/

/-- First record of a command. -/
def Cmd.head (c : Cmd) : Nat := c.recs.headD 0
/-- Shards of a STEP or RUN (R286). -/
def Cmd.shards (c : Cmd) : Nat := bits 447 441 c.head
/-- Fence signal and value of a STEP or RUN (R286). -/
def Cmd.fence (c : Cmd) : Nat × Nat := (bits 255 200 c.head, bits 191 128 c.head)
/-- Signal and value of a WAIT or SIGNAL (R290). -/
def Cmd.word (c : Cmd) : Nat × Nat := (bits 511 456 c.head, bits 447 384 c.head)
/-- Completion signal and value of a STEP, RUN or COPY (R286, R291). -/
def Cmd.csig (c : Cmd) : Nat × Nat :=
  if c.op = 3 then (bits 255 200 c.head, bits 191 128 c.head) else (bits 383 328 c.head, bits 319 256 c.head)

/-- Whether a command no longer holds back the ones after it (R289): it has begun whole, or ended; a step that a code has hit holds them until it is
settled (R312), and a SIGNAL holds back none. -/
def Cmd.past (c : Cmd) : Bool :=
  c.ended.isSome || c.op = 5 ||
    ((c.op = 1 || c.op = 2) && c.begun && c.code = 0 && c.shards ≤ c.shardsBegun) || (c.op = 3 && c.begun)

/-- The command of a ring that begins next. -/
def Ring.next (r : Ring) : Option Cmd := r.accepted.find? fun c => !c.past

/-- Whether a command's fence is reached (R289). -/
def State.fenceOk (s : State) (c : Cmd) : Bool := c.fence.1 = 0 || c.reached || s.sigReached c.ctx c.fence.1 c.fence.2

/-- Whether a ring's engines are all out of service (R310): the cores of the partition's mask, or the ring's own engine. -/
def State.noEngine (s : State) (r : Ring) : Bool :=
  if r.kind < 2 then !(List.range 96).any fun k => s.corePart k = r.part && s.ctr (oCoreState k) ≠ 2
  else if r.kind = 2 then s.ctr (oCoreState r.engine) = 2
  else s.ctr (oCeState r.engine) = 4

/-- Whether a core still holds a shard of a command. -/
def State.shardsOn (s : State) (key aseq : Nat) : Bool :=
  s.cores.any fun e => (e.2.shard.map fun h => h.ring = key && h.aseq = aseq) = some true

/-- A command ready to end. -/
def State.endCmd (s : State) (key aseq ty reason : Nat) : State :=
  (s.unwatch (.cmd key aseq)).setCmd key aseq fun c => { c with ended := some (ty, reason), waitSince := none, code := if c.code = 0 then (if ty = 2 then 0 else reason) else c.code }

/-- The command waits at the head of its ring (R289, R293). -/
def State.holdCmd (s : State) (key : Nat) (c : Cmd) : State :=
  s.setCmd key c.aseq fun c => { c with waitSince := some (c.waitSince.getD s.now) }

/-- The other step ring of a partition. -/
def otherRing (key : Nat) : Nat := if key % 2 = 0 then key + 1 else key - 1

/-- Weight of a step ring (R322). -/
def State.ringWeight (s : State) (key : Nat) : Nat :=
  if key % 2 = 0 then s.objD 4 (oLcWeight (s.ring key).part) else s.objD 1 (oBeWeight (s.ring key).part)

/-- A ring gains a shard able to begin: its virtual time is raised to the other ring's (R322), and the wait of R324 begins. -/
def State.gainShard (s : State) (key : Nat) : State :=
  let r := s.ring key
  if 2 ≤ r.kind then s
  else
    let o := s.ring (otherRing key)
    let v : Rat := if r.able || !o.live then r.virt else max r.virt (o.virt / (s.ringWeight (otherRing key) : Rat) * (s.ringWeight key : Rat))
    s.setRing key { r with virt := v, able := true, ableAt := s.now }

/-- STEP or RUN at the head of its ring (R289): it begins once its fence is reached; in ERROR it ends without beginning (R264), and with no engine
left it returns, also where some of its shards have ended (R310, R311). -/
def State.beginStep (s : State) (key op : Nat) : State :=
  let r := s.ring key
  match r.next with
  | none => s
  | some c =>
    if c.op ≠ op || !s.serves then s
    else if c.begun then (if s.noEngine r && !s.shardsOn key c.aseq && c.code = 0 then s.endCmd key c.aseq 3 0x0A02 else s)
    else if (s.ctxOf c.ctx).any fun x => x.error then s.endCmd key c.aseq 4 0x0803
    else if s.noEngine r then s.endCmd key c.aseq 3 0x0A02
    else if s.fenceOk c then
      ((s.unwatch (.cmd key c.aseq)).setCmd key c.aseq fun c => { c with begun := true, waitSince := none }).gainShard key
    else if s.sigPeer c.ctx c.fence.1 then s.endCmd key c.aseq 4 0x0B01
    else (s.holdCmd key c).watchFor (.cmd key c.aseq) c.ctx c.fence.1 c.fence.2

/-! ### WAIT and SIGNAL (R290, R340) -/

/-- The chord instance at which a WAIT of a copy ring arrives: its word is that of the instance's RELEASE_SIG (R340). -/
def State.waitChord (s : State) (r : Ring) (c : Cmd) : Option Nat :=
  if r.kind ≠ 3 then none
  else (List.range 64).find? fun i =>
    (s.ctr (oMembers i)).testBit (96 + r.engine) &&
      (match s.sigOf (s.ctr (oReleaseSig i)) with
      | some x => (s.sigPa x.ctx x.va).isSome && s.sigPa x.ctx x.va = s.sigPa c.ctx c.word.1
      | none => false)

/-- A WAIT at the head of its ring. -/
def State.waitCmd (s : State) (key : Nat) : State :=
  let r := s.ring key
  match r.next with
  | none => s
  | some c =>
    if c.op ≠ 4 || !s.serves then s
    else if s.sigPeer c.ctx c.word.1 then s.endCmd key c.aseq 4 0x0B01
    else
      let i := s.waitChord r c
      let broken := match i with | some i => s.ctr (oChordState i) = 3 && !c.begun | none => false
      if broken then s.endCmd key c.aseq 4 0x0B03
      else
        let s := match i with
          | some i =>
            if c.begun then s
            else (match s.arriveChord i (96 + r.engine) with
              | some t => t.setCmd key c.aseq fun c => { c with begun := true }
              | none => s)
          | none => s
        let reached := s.sigReached c.ctx c.word.1 c.word.2 || (((s.ring key).accepted.find? fun x => x.aseq = c.aseq).map fun x => x.reached) = some true
        if reached then
          let s := match i with
            | some i => if c.begun || ((s.ring key).accepted.any fun x => x.aseq = c.aseq && x.begun) then s.leaveChord i (96 + r.engine) else s
            | none => s
          s.endCmd key c.aseq 2 0
        else (s.holdCmd key c).watchFor (.cmd key c.aseq) c.ctx c.word.1 c.word.2

/-- A SIGNAL once every earlier command of its ring has its terminal record: its addition is made, and it ends DONE; one that no arc will carry fails
(R366, R367, R373). Its record waits for an addition that is not yet performed (R309). -/
def State.signalCmd (s : State) (key : Nat) : State :=
  match (s.ring key).accepted with
  | [] => s
  | c :: _ =>
    if c.op ≠ 5 || c.ended.isSome || !s.serves then s
    else
      let lost := match s.xlate c.ctx c.word.1 with
        | some (.peer v _) => (match s.peerArc c.ctx v with | .error code => some code | .ok _ => none)
        | _ => none
      match lost with
      | some code => s.endCmd key c.aseq 4 code
      | none => (s.addSignal ⟨c.ctx, c.word.1, c.word.2, .host ((s.ring key).fn / 16), key, c.aseq⟩).endCmd key c.aseq 2 0

/-! ### Placement (R319 to R323) -/

/-- The command of a ring that has a shard able to begin. A shard that a breakpoint holds back has not begun (R164, R289). -/
def State.ableCmd (s : State) (key : Nat) : Option Cmd :=
  let r := s.ring key
  if !r.live || !s.serves then none
  else r.next.bind fun c =>
    let before := s.cores.any fun e => (e.2.shard.map fun h => h.ring = key && h.aseq ≠ c.aseq && !h.begun) = some true
    if (c.op = 1 || c.op = 2) && c.begun && c.code = 0 && !before then some c else none

/-- The ring whose shard a free core takes next (R320 to R323). -/
def State.pickRing (s : State) (k : Nat) : Option Nat :=
  let p := s.corePart k
  let own := 65536 * 6 + k
  let lc := 65536 * 5 + 2 * p
  let be := lc + 1
  if 16 ≤ p then none
  else if (s.ring own).kind = 2 && (s.ring own).part = p && (s.ableCmd own).isSome then some own
  else
    let l := (s.ableCmd lc).isSome
    let b := (s.ableCmd be).isSome && !(s.ctr (oReservedCores p)).testBit k
    let lFirst : Bool := s.ctr (oPrioMode p) = 0 ||
      (s.ring lc).virt / (s.ringWeight lc : Rat) ≤ (s.ring be).virt / (s.ringWeight be : Rat)
    if l && (lFirst || !b) then some lc else if b then some be else none

/-- Whether a core is the one to which the next shard of a ring goes: of the free cores that would take it, the first to become free, and of several at
once the lowest-numbered (R319). -/
def State.firstFree (s : State) (k key : Nat) : Bool :=
  let t := (s.core k).freeAt
  !(List.range 96).any fun j =>
    ((s.core j).freeAt < t || ((s.core j).freeAt = t && j < k)) && s.corePart j = s.corePart k && s.coreFree j && s.pickRing j = some key

/-! ### The beginning of a shard (R102, R127, R164, R293) -/

/-- The run bound of a command's shards in ns (R286, R293). -/
def runBound (r : Ring) (c : Cmd) : Nat :=
  let t := 1000 * bits 427 396 c.head
  if t ≠ 0 && t < r.runTo then t else r.runTo

/-- The shard that a core holds begins: its program load, or its first block (R288, R293). -/
def State.startShard (s : State) (k : Nat) : State :=
  let c := s.core k
  match c.shard with
  | none => s
  | some h =>
    let image := bits 511 456 h.recd
    let s := s.setCore k { c with cnts := [], clk := 0, shard := some { h with begun := true, start := s.now, seqDone := image = 0, haltAt := if s.thrHalt k = 0 then none else some s.now } }
    let s := forUpTo 4 s fun s j =>
      let a := s.array (4 * k + j)
      s.setArray (4 * k + j) { a with ops := [], vecs := [], zeros := 0, starting := false, idle := 0 }
    let s := { s with tables := Tbl.erase (Tbl.erase s.tables (2 * k)) (2 * k + 1) }
    let s := (s.setSeq k { Seq.reset with loading := image ≠ 0 }).put (oSeqState k) (if image = 0 then 0 else 1)
    ((s.put (oHaltCause k) 0).bump 8 (oCommandCount k) 1).trace 0x01 k h.tag h.ctx 0

/-- The breakpoint that matches the command a core is about to begin (R164): its HALT_CAUSE, 0 for none. -/
def State.breakpoint (s : State) (k tag : Nat) : Nat :=
  let b := s.ctr (oBrkCtrl k)
  if b.testBit 0 && s.ctr (oCommandCount k) + 1 = s.ctr (oBrkCount k) then 1
  else if b.testBit 1 && (tag ^^^ s.ctr (oBrkTag k)) &&& s.ctr (oBrkMask k) = 0 then 2
  else 0

/-- A core halted by its debugger, with a trace record (R165, R415). -/
def State.haltCore (s : State) (k cause : Nat) : State :=
  let h := (s.core k).shard
  (((s.put (oSeqState k) 3).put (oHaltCause k) cause).haltClock k).trace 0x03 k ((h.map fun h => h.tag).getD 0)
    ((h.map fun h => h.ctx).getD 0) (cause * 2 ^ 312 + (s.seq k).pc * 2 ^ 296)

/-- SHARD_BEGIN (R319): a free core to which the next shard goes takes it and begins it, or halts before it at a breakpoint. -/
def State.shardBegin (s : State) (k : Nat) : State :=
  if !s.coreFree k then s
  else
    match s.pickRing k with
    | none => s
    | some key =>
      match (if s.firstFree k key then s.ableCmd key else none) with
      | none => s
      | some c =>
        let r := s.ring key
        if (s.ctxOf c.ctx).any fun x => x.error then
          if c.shardsBegun = c.shardsEnded then s.endCmd key c.aseq 4 0x0803 else s.setCmd key c.aseq fun c => { c with code := 0x0803 }
        else
          let h : Shard := { Shard.reset with
            ring := key, aseq := c.aseq, index := c.shardsBegun, tag := c.tag, ctx := c.ctx
            recd := c.recs.getD (c.shardsBegun + 1) 0, bound := runBound r c, start := s.now }
          let s := s.setCmd key c.aseq fun c => { c with shardsBegun := c.shardsBegun + 1, start := if c.shardsBegun = 0 then s.now else c.start }
          let s := if r.kind = 0 then s.peak 8 (oLcWaitMax r.part) (s.now - r.ableAt) else s
          let more := match (s.ring key).next with
            | some n => (n.op = 1 || n.op = 2) && (n.begun || s.fenceOk n)
            | none => false
          let s := s.setRing key { s.ring key with able := more }
          let b := s.breakpoint k c.tag
          let s := s.setCore k { s.core k with shard := some h }
          if b = 0 then s.startShard k else s.haltCore k b

/-! ### The end of a shard and of its command (R288, R290, R294, R310 to R312) -/

/-- How a command that was hit by a code ends (R310, R311): none for a re-run in place. -/
def State.outcome (s : State) (c : Cmd) (code : Nat) : Option (Nat × Nat) :=
  if code = 0 then some (2, 0)
  else if code = 0x0506 || code = 0x040B || code = 0x0A01 then some (4, 0x0A01)
  else if code = cPartFault || code = cArrayParity then
    (if !c.flags.testBit 0 then some (3, cPartFault)
      else if s.objD 2 oRerunLimit ≤ c.rerun then some (3, 0x0A05) else none)
  else if code = 0x0A02 then some (3, code)
  else some (4, code)

/-- A command whose shards have all ended, or that a code has ended, is settled (R311, R312). -/
def State.settleCmd (s : State) (key aseq : Nat) : State :=
  match (s.ring key).accepted.find? fun c => c.aseq = aseq with
  | none => s
  | some c =>
    if c.ended.isSome || s.shardsOn key aseq || (c.code = 0 && c.shardsEnded < c.shards) then s
    else
      match s.outcome c c.code with
      | some e => s.endCmd key aseq e.1 e.2
      | none =>
        (s.setCmd key aseq fun c =>
          { c with begun := false, reached := true, shardsBegun := 0, shardsEnded := 0, code := 0, rerun := c.rerun + 1, done := 0 }).bump 8 oReruns 1

/-- The other shards of a command are stopped (R290). -/
def State.stopOthers (s : State) (key aseq : Nat) : State :=
  forUpTo 96 s fun s k =>
    match (s.core k).shard with
    | some h =>
      if h.ring = key && h.aseq = aseq && h.code = 0 then
        (if h.begun then s.setCore k { s.core k with shard := some { h with stopped := true } } else s.clearCore k)
      else s
    | none => s

/-- Whether a core's shard has come to its end (R142, R163, R200, R288, R309). -/
def State.shardOver (s : State) (k : Nat) (h : Shard) : Bool :=
  h.begun && !s.vectorsOut k &&
    (h.code ≠ 0 || h.stopped ||
      (h.seqDone && h.endedBlocks = (if bits 447 392 h.recd = 0 then 0 else bits 319 304 h.recd) && !s.storesOut k &&
        (s.core k).acps.isEmpty))

/-- SHARD_END (R288): engine time and counts are charged, an error is captured, and the command is settled. -/
def State.shardEnd (s : State) (k : Nat) : State :=
  match (s.core k).shard with
  | none => s
  | some h =>
    if !s.shardOver k h then s
    else
      let s := s.chargeShard k
      let cmd := ((s.ring h.ring).accepted.find? fun c => c.aseq = h.aseq).getD Cmd.reset
      let data := h.code * 2 ^ 304 + h.index * 2 ^ 288
      let s := if h.code = 0 then s else s.trace 0x05 k h.tag h.ctx data
      let cap := if h.code = 0 then (s, none) else
        let x := s.capture h.ring cmd h.code k (s.captureCore k h)
        (x.1, some x.2)
      let s := ((cap.1.trace 0x06 k h.tag h.ctx data).clearCore k)
      let s := s.setCmd h.ring h.aseq fun c => { c with
        shardsEnded := c.shardsEnded + 1
        code := if c.code = 0 then h.code else c.code
        capSlot := if c.capSlot.isNone then cap.2 else c.capSlot }
      let s := if h.code = 0 then s else s.stopOthers h.ring h.aseq
      s.settleCmd h.ring h.aseq

/-- A shard that a core holds and that has not begun ends without beginning, with a code (R264). -/
def State.dropHeld (s : State) (k code : Nat) : State :=
  match (s.core k).shard with
  | none => s
  | some h => ((s.setCmd h.ring h.aseq fun c => { c with code := if c.code = 0 then code else c.code }).clearCore k).settleCmd h.ring h.aseq

/-! ### The state of a ring (R275, R289, R296) -/

/-- Whether a command at the head of its ring waits for a signal (R289). -/
def State.waits (s : State) (c : Cmd) : Bool :=
  c.waitSince.isSome || ((c.op = 1 || c.op = 2) && !c.begun && !s.fenceOk c) || (c.op = 4 && !(c.reached || s.sigReached c.ctx c.word.1 c.word.2))

/-- STATE of a ring: 2 DESTROYING while a control ring has come to its RING-DESTROY, 1 WAITING where its head waits, else 0 ACTIVE. -/
def State.ringState (s : State) (key : Nat) : Nat :=
  let h := s.handle (key / 65536) (key % 65536)
  let going (fn : Nat) : Bool := (s.ctlHead fn).any fun v => hOp v = 0x44 && bits 31 0 (ctlW v 0) = h
  let r := s.ring key
  if (List.range 32).any going then 2
  else if r.next.any s.waits || r.fetched.any (fun c => (s.parkedCtx c).isSome) then 1
  else 0

/-! ### Timeouts (R293) -/

/-- An engine that runs no other copy is reset after the error of one, and is STALE, or is not, as is free (R402; log entry 90). -/
def State.resetCe (s : State) (e : Nat) (c : Cmd) : State :=
  if ((s.ring (kCopyRing e)).accepted.all fun x => !(x.op = 3 && x.begun && x.ended.isNone) || x.aseq = c.aseq) then
    (if (Config.freeNat 14 s.free).toNat % 2 = 1 then s.staleCe e else s).drew
  else s

/-- A copy that ends with a code: its capture is written (R294), and it is settled. -/
def State.failCopy (s : State) (e : Nat) (c : Cmd) (code : Nat) : State :=
  let key := kCopyRing e
  let x := s.capture key c code (0x100 + e) (c.done % 2 ^ 40 * 2 ^ 24)
  let s := (x.1.dropUnit fun a => a.engine = 0x100 + e && a.tag = c.tag && a.ctx = c.ctx).peerForget fun q =>
    q.engine = 0x100 + e
  let ns := s.now - c.start
  let s := (s.setCmd key c.aseq fun c => { c with code := code, capSlot := some x.2, engineNs := c.engineNs + ns }).bump 8
    (oEngineNs (s.ring key).part) ns
  let s := s.resetCe e c
  match s.outcome c code with
  | some o => s.endCmd key c.aseq o.1 o.2
  | none => (s.setCmd key c.aseq fun c => { c with begun := false, reached := true, code := 0, rerun := c.rerun + 1, done := 0 }).bump 8 oReruns 1

/-- RUN_TIMEOUT (R293) of an engine: its shard, or the first of its copies, has reached its run bound. -/
def State.runTimeout (s : State) (e : Nat) : State :=
  if e < 96 then
    match (s.core e).shard with
    | none => s
    | some h => if !s.running e || s.coreHalted e then s else (s.atTime (h.start + h.bound)).failShard e 0x0906
  else
    let key := kCopyRing (e - 256)
    match (s.ring key).accepted.find? fun c => c.op = 3 && c.begun && c.ended.isNone with
    | none => s
    | some c => (s.atTime (c.start + (s.ring key).runTo)).failCopy (e - 256) c 0x0906

/-- WAIT_TIMEOUT (R293): the command that waits at the head of a ring ends without beginning. -/
def State.waitTimeout (s : State) (key : Nat) : State :=
  let r := s.ring key
  match r.next with
  | none => s
  | some c =>
    match c.waitSince with
    | none => s
    | some t =>
      if r.kind = 2 && s.coreHalted r.engine then s
      else (s.atTime (t + r.waitTo)).endCmd key c.aseq 4 0x0907

/-! ### Terminal records (R308, R309) -/

/-- Whether every effect of a command that has ended is performed (R309): its messages are acknowledged, and its addition is made. -/
def State.performed (s : State) (key : Nat) (c : Cmd) : Bool :=
  c.arcWait = 0 && !s.sigAdds.any fun x => x.ring = key && x.aseq = c.aseq

/-- The terminal record of a ring's first command, and after a DONE its completion signal (R290, R308, R317). -/
def State.terminal (s : State) (key : Nat) : State :=
  match (s.ring key).accepted with
  | [] => s
  | c :: rest =>
    match c.ended with
    | none => s
    | some (ty, reason) =>
      if !(s.ring key).live || (s.ring key).recon || !s.up || s.compFree key = 0 || (ty = 2 && !s.performed key c) then s
      else
        let s := s.setRing key { s.ring key with accepted := rest }
        let s := (s.putComp key (terminalRec c ty reason false)).useCtx c.ctx
        let s := if ty = 3 then s.bump 8 oReturnedTotal 1 else if ty = 4 then s.bump 8 oFailedTotal 1 else s
        let s := if ty = 2 && c.op ≤ 3 && c.csig.1 ≠ 0 then s.addSignal ⟨c.ctx, c.csig.1, c.csig.2, .host ((s.ring key).fn / 16), key, c.aseq⟩ else s
        s.setRing key { s.ring key with signalled := c.aseq }

/-! ### Meanings -/

/-- STEP (R286, R289). -/
def execStep (r : Nat) (s : State) : Res := .next (s.beginStep r 1)
/-- RUN (R282, R289). -/
def execRun (r : Nat) (s : State) : Res := .next (s.beginStep r 2)
/-- WAIT (R290). -/
def execWait (r : Nat) (s : State) : Res := .next (s.waitCmd r)
/-- SIGNAL (R290). -/
def execSignal (r : Nat) (s : State) : Res := .next (s.signalCmd r)
/-- SHARD_BEGIN (R319). -/
def execShardBegin (k : Nat) (s : State) : Res := onUnit s (isCore k) (s.shardBegin k)
/-- SHARD_END (R288). -/
def execShardEnd (k : Nat) (s : State) : Res := onUnit s (isCore k) (s.shardEnd k)
/-- RUN_TIMEOUT (R293). -/
def execRunTimeout (e : Nat) (s : State) : Res := onUnit s (isEngine e) (s.runTimeout e)
/-- WAIT_TIMEOUT (R293). -/
def execWaitTimeout (r : Nat) (s : State) : Res := .next (s.waitTimeout r)
/-- TERMINAL_RECORD (R308). -/
def execTerminalRecord (r : Nat) (s : State) : Res := .next (s.terminal r)

end Sys2Proof.Machine
end

