-- ==== Sys2Proof/Machine/Arrays.lean ====
section
/-! DEFINITION. The stationary arrays (R87 to R125): what a cell's registers hold when a vector meets them, the entry that leaves the
columns, clock gating and its admissions, and parity errors. -/

namespace Sys2Proof.Machine

/-! ### The order of loads, swaps and parameter loads (R96 to R100) -/

/-- The place of an operation among those that meet row `r`: a swap of cycle p stands at 2p, a row-load of cycle t between the
swaps of t - r and t - r + 1 (R98). A vector of cycle p meets what stands at or before 2p (R96, R97). -/
def ArrOp.rowKey (r : Nat) : ArrOp → Option Int
  | .load l => if l.row = r then some (2 * ((l.cycle : Int) - r) + 1) else none
  | .swap p => some (2 * p)
  | .param _ _ _ => none

/-- The same at the bottom of a column (R100). -/
def ArrOp.colKey : ArrOp → Option Int
  | .load _ => none
  | .swap p => some (2 * p)
  | .param t _ _ => some (2 * t + 1)

/-- An operation put in its place; among equals the earlier issued comes first. -/
def insertOp (x : Int × ArrOp) : List (Int × ArrOp) → List (Int × ArrOp)
  | [] => [x]
  | y :: r => if x.1 < y.1 then x :: y :: r else y :: insertOp x r

/-- The operations up to a place, in order. -/
def orderOps (key : ArrOp → Option Int) (upto : Int) (ops : List ArrOp) : List ArrOp :=
  ((ops.foldl (fun (a : List (Int × ArrOp)) o =>
    match key o with
    | some k => if k ≤ upto then insertOp (k, o) a else a
    | none => a) []).map fun x => x.2)

/-- The weights that row `r` computes with for the vector of cycle `p`; none stands for registers that hold zero (R102). -/
def activeRow (ops : List ArrOp) (p r : Nat) : Option RowLoad :=
  ((orderOps (ArrOp.rowKey r) (2 * p) ops).foldl (fun (a : Option RowLoad × Option RowLoad) o =>
    match o with
    | .swap _ => (a.2, a.1)
    | .load l => (a.1, some l)
    | .param _ _ _ => a) (none, none)).1

/-- The column scales and mask in force for the vector of cycle `p` (R100, R102). -/
def activeCols (ops : List ArrOp) (p : Nat) : Nat × Nat :=
  ((orderOps ArrOp.colKey (2 * p) ops).foldl (fun (a : (Nat × Nat) × (Nat × Nat)) o =>
    match o with
    | .swap _ => (a.2, a.1)
    | .load _ => a
    | .param _ g m => (a.1, (g, m))) ((0, 0), (0, 0))).1

/-! ### A row-load's weights (R79, R80, R89) -/

/-- The format in which a weight register holds a word's weights: the target of the table, or 16 for affine differences. -/
def heldFmt (wf xmode t : Nat) : Nat := if xmode = 1 then t else if xmode = 2 then 16 else wf

/-- Bits of an element in a weight register. -/
def heldBits (f : Nat) : Nat := if f = 16 then 16 else fmtBits f

/-- What one weight becomes on its way into the array: itself, the table's entry, or its difference from the zero point. -/
def expandWeight (wf xmode t entries zero q : Nat) : Nat :=
  if xmode = 1 then lane 16 q entries % 2 ^ fmtBits t
  else if xmode = 2 then twos 16 (sext (fmtBits wf) q - sext 8 zero)
  else q

/-- The 32 weight registers that a row-load's source entry fills, 512 bits a cell. -/
def loadCells (wf xmode n t entries zeros src : Nat) : Nat :=
  let b := fmtBits wf
  let h := heldBits (heldFmt wf xmode t)
  packLanes 512 ((List.range 32).map fun c =>
    packLanes h ((List.range n).map fun j => expandWeight wf xmode t entries (lane 8 c zeros) (lane b (c * n + j) src)))

/-! ### The entry of a vector (R88 to R94, R115, R116) -/

/-- The sum of cell (r, c) for a vector. The positions beyond K in the last used row take zero weights and zero activations (R107). Registers
that hold binary32 pieces and registers that do not are each read only by a word of their kind: what another word reads from them is stated
nowhere. Of any other two formats the vector's word reads the bits in its own format, under the weight scale that the loading word gave
(log entry 26). -/
def vecCell (v : Vec) (w : Option RowLoad) (draw r c : Nat) : Carry :=
  let aw := fmtBits v.afmt
  let act (j : Nat) : Nat := lane aw (r * v.n + j) v.act
  let sa := if v.hasAsc then lane 8 r v.asc else 127
  let n := if r + 1 = v.rows then v.tail else v.n
  match w with
  | none => cellSum ((List.range n).map fun j => product v.afmt v.wfmt v.apiece 1 (act j) 0) sa 127
  | some l =>
    if l.b32 != (v.wfmt == 6) then
      let d := 1024 * draw + 32 * r + c
      Carry.read ((Config.freeNat 4 (2 * d)).toNat * 2 ^ 64 + (Config.freeNat 4 (2 * d + 1)).toNat)
    else
      let ws := lane 512 c l.cells
      let sw := if l.hasScale then lane 8 c l.scales else 127
      cellSum ((List.range n).map fun j => product v.afmt v.wfmt v.apiece l.piece (act j) (lane (heldBits v.wfmt) j ws)) sa sw

/-- Whether a column delivers its sum (R100, R116, R133, R136). -/
def vecColumn (ops : List ArrOp) (v : Vec) (c : Nat) : Bool :=
  v.fullcol || (if v.ownCols then v.extent else (activeCols ops v.cycle).2).testBit c

/-- The 32-column entry of a vector (R92). -/
def vecEntry (ops : List ArrOp) (v : Vec) (draw : Nat) : Nat :=
  let rows := (List.range v.rows).map fun r => (r, activeRow ops v.cycle r)
  let sg := (activeCols ops v.cycle).1
  let f := if v.toPs then 9 else v.ofmt
  packLanes (fmtBits f) ((List.range 32).map fun c =>
    if !vecColumn ops v c then maskedOut f
    else
      let top := match v.inj with
        | some e => Carry.read (lane 128 c e)
        | none => Carry.zero
      let sum := columnSum top (rows.map fun x => vecCell v x.2 draw x.1 c)
      let g := if v.affine && !v.toPs then some (if v.ownCols then 0x3F80 else lane 16 c sg) else none
      columnOut sum f g (Config.carryRest (32 * draw + c)).toNat)

/-! ### Queues, as far as pushes are concerned (R145, R146) -/

/-- A queue of a core. -/
def State.queue (s : State) (k q : Nat) : Queue := Tbl.get Queue.reset (s.seq k).queues q
/-- The same replaced. -/
def State.setQueue (s : State) (k q : Nat) (x : Queue) : State :=
  s.setSeq k { s.seq k with queues := Tbl.set (s.seq k).queues q x }
/-- A queue's descriptor. -/
def State.qdesc (s : State) (k q : Nat) : QDesc := Tbl.get QDesc.reset (s.seq k).qdesc q
/-- A queue's occupancy (R146). -/
def Queue.occ (x : Queue) : Nat := x.entries.length + x.reserved

/-- The sequencer's clock has come to a MATRIX cycle. -/
def State.reach (s : State) (k cycle : Nat) : State := s.setSeq k { s.seq k with cycle := max (s.seq k).cycle cycle }

/-- Whether an entry takes effect after another: in a later cycle, or in the same one from a source that comes later (R148). -/
def Entry.after (y e : Entry) : Bool := e.at_ < y.at_ || (e.at_ = y.at_ && e.src < y.src)

/-- A queue's entries with one more, in the order in which their pushes take effect (R146, R148). -/
def Queue.put (x : Queue) (e : Entry) : List Entry := (x.entries.filter fun y => !y.after e) ++ e :: x.entries.filter fun y => y.after e

/-- An entry pushed, and seen by the watch points (R417). -/
def State.pushEntry (s : State) (k q : Nat) (e : Entry) : State :=
  let x := s.queue k q
  let d := s.qdesc k q
  (s.setQueue k q { x with entries := x.put e }).watchPush k q e.data (if d.kind = 1 then 0 else d.width) e.last

/-- An entry pushed by a source other than an array in the cycle before the one that can issue next: a queue takes one push of a source in a
cycle (R146), so a second one comes a cycle later (log entry 84). -/
def State.pushFrom (s : State) (k q src : Nat) (e : Entry) : State :=
  let c := (s.seq k).cycle - 1
  let again := (s.queue k q).entries.any fun y => y.at_ = c && y.src = src
  let s := if again then s.reach k (c + 2) else s
  s.pushEntry k q { e with at_ := if again then c + 1 else c, src := src }

/-! ### The end of the sequencer's part (R142) -/

/-- Whether vectors and streams of words before `serial` are still at work (R141, R150). -/
def State.effectsBefore (s : State) (k serial : Nat) : Bool :=
  (List.range 4).any (fun j => (s.array (4 * k + j)).vecs.any fun v => v.serial < serial) ||
    (s.seq k).streams.any fun e => e.2.serial < serial

/-- Whether a program that has issued END has nothing left to do. -/
def State.seqComplete (s : State) (k : Nat) : Bool :=
  let q := s.seq k
  q.ended && !s.vectorsOut k && q.streams.isEmpty && q.emits.isEmpty && q.sigs.isEmpty

/-- The sequencer part of a shard completes (R142): its watch windows close (R417). -/
def State.finishSeq (s : State) (k : Nat) : State :=
  let c := s.core k
  match c.shard with
  | some h =>
    if h.seqDone || h.code ≠ 0 || !s.seqComplete k then s
    else
      let s := s.setCore k { c with shard := some { h with seqDone := true } }
      (if s.seqState k = 2 then s.put (oSeqState k) 0 else s).watchEnd k
  | none => s

/-! ### An entry leaves the array (R92) -/

/-- Whether the tile expander is loading rows of a set that is already swapped in (R98): a row follows in every cycle, so no
vector of the set comes out before they are in. Once the sequencer has stopped, by a fault or a halt, no row follows, and the vectors that have
issued complete with the rows that their registers hold (R163, R165). -/
def State.tileLate (s : State) (k : Nat) : Bool :=
  s.running k && s.seqState k = 2 &&
    match (s.seq k).tile with
    | some t => t.sets < t.swapped
    | none => false

/-- The oldest vector of an array comes out, 70 MATRIX cycles after its pop: its entry takes its reserved slot. Its cycles in
flight that the next vector does not share are counted busy (R125). -/
def State.arrayPush (s : State) (a : Nat) : State :=
  let k := a / 4
  let u := s.array a
  match u.vecs with
  | [] => s
  | v :: rest =>
    if s.tileLate k then s
    else
      let e := vecEntry u.ops v s.free
      let s := (s.setArray a { u with vecs := rest, idle := max u.idle (v.cycle + 70) }).bump 8 (oBusyCycles a) (v.busy rest (v.cycle + 70))
      let x := s.queue k v.queue
      let s := (s.setQueue k v.queue { x with reserved := x.reserved - 1 }).drew
      ((s.pushEntry k v.queue ⟨e, v.token, v.last, v.cycle + 70, a % 4⟩).reach k (v.cycle + 71)).finishSeq k

/-! ### Clock gating (R117, R344) -/

/-- An array that has been idle for ARRAY_IDLE_GATE cycles is clock-gated. -/
def State.gateArray (s : State) (a : Nat) : State :=
  let u := s.array a
  if u.gated || u.starting || !u.vecs.isEmpty || s.ctr (oArrayState a) ≠ 0 then s
  else
    let s := if (s.core (a / 4)).shard.isSome then s.reach (a / 4) (u.idle + s.objD 256 oArrayIdleGate) else s
    (s.setArray a { u with gated := true }).put (oArrayState a) 1

/-- Whether an array of a cluster waits for admission. -/
def State.rampWaits (s : State) (c : Nat) : Bool := (List.range 16).any fun j => (s.array (16 * c + j)).starting

/-- The starts of a word's gated arrays are requested; their waiting counts as ramp limiter (R117, R386). -/
def State.requestStarts (s : State) (k mask : Nat) : State :=
  let s := forUpTo 4 s fun s j =>
    let u := s.array (4 * k + j)
    if mask.testBit j && u.gated then s.setArray (4 * k + j) { u with starting := true } else s
  if s.rampWaits (k / 4) then s.setReason (k / 4) 6 true else s

/-- An array's start admitted: the lowest-numbered of its die that waits, six in a window of 10 ns (R344). The repeat may issue
2 MATRIX cycles later. -/
def State.admitStart (s : State) (a : Nat) : State :=
  let u := s.array a
  let d := a / 48
  let k := a / 4
  if !u.starting || (List.range (a % 48)).any (fun j => (s.array (48 * d + j)).starting) then s
  else
    let w := Tbl.get (0, 0) s.ramp d
    let s := if 6 ≤ w.2 then s.atTime (w.1 + 10) else s
    let w := if w.2 = 0 || w.1 + 10 ≤ s.now then (s.now, 0) else w
    let s := { s with ramp := Tbl.set s.ramp d (w.1, w.2 + 1) }
    let s := ((s.setArray a { u with starting := false, gated := false, idle := (s.seq k).cycle }).put (oArrayState a) 0).bump 8 (oStarts a) 1
    let s := s.setSeq k { s.seq k with accept := (s.seq k).cycle + 2 }
    if s.rampWaits (k / 4) then s else s.setReason (k / 4) 6 false

/-! ### Parity errors (R115, R116, R118, R120) -/

/-- The logical row or column at a physical index, if it is mapped (R120). -/
def State.logicalOf (s : State) (col : Bool) (a i : Nat) : Option Nat :=
  let sk := s.skipped col a
  if sk.contains i then none
  else
    let l := i - (sk.filter (· < i)).length
    if l < 32 then some l else none

/-- A parity error met by the oldest vector of an array. Gated rows and columns are not checked. -/
def State.arrayParity (s : State) (a prow pcol : Nat) : State :=
  let u := s.array a
  match u.vecs, s.logicalOf false a prow, s.logicalOf true a pcol with
  | v :: rest, some r, some c =>
    if v.rows ≤ r || !vecColumn u.ops v c then s
    else
      let s := (s.setArray a { u with vecs := rest, fault := some (prow, pcol) }).bump 8 (oBusyCycles a) (v.busy rest (v.cycle + 70))
      let s := ((s.bump 4 (oParityErrors a) 1).bump 8 oArrayParityTotal 1).failShard (a / 4) cArrayParity
      s.report (a / 48) (a % 48) .parity
  | _, _, _ => s

/-! ### Requested repairs (R121, R124) -/

/-- A soft skip requested: the state and the result that the WRITE returns. -/
def State.repairRequest (s : State) (v : Nat) : State × Nat :=
  let a := bits 31 23 v
  let col := v.testBit 22
  let i := bits 21 16 v
  let u := s.array a
  let taken := s.skipped col a ++ (u.wants.filter fun w => w.1 = col).map fun w => w.2
  if s.ctr (oCoreState (a / 4)) = 2 then (s, 3)
  else if taken.contains i then (s, 2)
  else if 2 ≤ taken.length then (s, 1)
  else
    let s := s.setArray a { u with wants := u.wants ++ [(col, i)] }
    (s.tryRequested a, 0)

/-! ### Meanings -/

/-- ARRAY_CLOCK_GATE (R117). -/
def execArrayClockGate (a : Nat) (s : State) : Res := onUnit s (isArray a) (s.gateArray a)
/-- ARRAY_START_ADMITTED (R344). -/
def execArrayStartAdmitted (a : Nat) (s : State) : Res := onUnit s (isArray a) (s.admitStart a)
/-- ARRAY_ENTRY_PUSH (R92). -/
def execArrayEntryPush (a : Nat) (s : State) : Res := onUnit s (isArray a) (s.arrayPush a)
/-- ARRAY_PARITY_ERROR (R118). -/
def execArrayParityError (a prow pcol : Nat) (s : State) : Res := onUnit s (isArray a && prow < 34 && pcol < 34) (s.arrayParity a prow pcol)

end Sys2Proof.Machine
end

