-- ==== Sys2Proof/Machine/Issue.lean ====
section
/-! DEFINITION. One repeat of a control word: what it needs, when it stalls, which faults it meets, and what it issues (R102 to R105,
R128, R129, R132 to R134, R143 to R152, R157). -/

namespace Sys2Proof.Machine

/-! ### The common part of a control word (R131) -/

def wClass (w : Nat) : Nat := bits 255 252 w
def wAwaits (w : Nat) : Bool := w.testBit 238
def wAwQ (w : Nat) : Nat := bits 237 233 w
def wAwTok (w : Nat) : Nat := bits 232 225 w
def wEmits (w : Nat) : Bool := w.testBit 224
def wEmQ (w : Nat) : Nat := bits 223 219 w
def wEmTok (w : Nat) : Nat := bits 218 211 w

/-- Queues of a group for the arrays of a mask (R103). -/
def groupQs (base mask : Nat) : List Nat := (bitsOf 4 mask).map (base + ·)

/-- The queues that an await or emission naming `q` concerns (R149, R151): a whole group by its base, or one queue. -/
def concerned (q : Nat) (groups : List (Nat × List Nat)) : List Nat :=
  groups.flatMap fun g => if g.1 = q then g.2 else if g.2.contains q then [q] else []

/-- Whether a queue exists with a kind (R143, R144). -/
def State.isKind (s : State) (k q kind : Nat) : Bool := (s.qdesc k q).valid && (s.qdesc k q).kind = kind

/-- Whether a queue is a DATA queue of a width (R144). -/
def State.isData (s : State) (k q width : Nat) : Bool := s.isKind k q 0 && (s.qdesc k q).width = width

/-! ### Sequencer faults (R162, R163, R165) -/

/-- A sequencer fault: it is counted, and the shard ends with its code, or the core is held. -/
def State.seqFault (s : State) (k code : Nat) : State :=
  if !s.running k then s
  else
    let s := s.bump 8 oSeqFaults 1
    let s := if code = 0x0406 then s.bump 4 oTokenMismatches 1 else s
    if (s.ctr (oBrkCtrl k)).testBit 2 then
      let h := (s.core k).shard
      let s := (s.setSeq k { s.seq k with held := code }).put (oSeqState k) 4
      ((s.put (oHaltCause k) 5).haltClock k).trace 0x03 k ((h.map fun h => h.tag).getD 0) ((h.map fun h => h.ctx).getD 0)
        (5 * 2 ^ 312 + (s.seq k).pc * 2 ^ 296)
    else s.failShard k code

/-- Whether a core's sequencer may issue: it runs a program, and is neither halted nor at the end of a RESUME step. -/
def State.seqGo (s : State) (k : Nat) : Bool :=
  s.running k && s.seqState k = 2 && (s.seq k).loaded && !(s.seq k).ended && (s.seq k).stepLeft ≠ some 0

/-! ### What a repeat needs -/

/-- What one repeat pops, pushes, reads and touches. -/
structure Need where
  pops : List (Nat × Nat × Nat)           -- queue, entries, bytes of an entry; R103
  dests : List (Nat × Nat)                -- queue and bytes of each slot it reserves; R104
  reads : Nat                             -- operand-store bytes of the arrays; R105
  touch : Nat                             -- arrays; R117
  start : Nat                             -- generators launched; R157
  popGroups : List (Nat × List Nat)       -- what the word pops; R151
  pushGroups : List (Nat × List Nat)      -- what the word pushes; R149
  sums : List Nat                         -- its partial-sum queues; R149
  awaits : List Nat                       -- queues whose head it checks now; R151

/-- A word that drives no array needs nothing. -/
def Need.empty : Need := ⟨[], [], 0, 0, 0, [], [], [], []⟩

/-- What stands in the way of a repeat. -/
inductive Gate where
  | fault (code : Nat)
  | stall (event : Nat)
  | starts (mask : Nat)
  | go

/-- Whether the await and the emission of a word name queues they may (R149, R151). -/
def State.targetsOk (s : State) (k w : Nat) (n : Need) : Bool :=
  let aw := concerned (wAwQ w) n.popGroups
  let em := concerned (wEmQ w) n.pushGroups
  (!wAwaits w || s.isKind k (wAwQ w) 1 || (!aw.isEmpty && aw.all fun q => s.isKind k q 0)) &&
    (!wEmits w || s.isKind k (wEmQ w) 1 ||
      (!em.isEmpty && em.all (fun q => s.isKind k q 0 && !n.sums.contains q) && !n.sums.contains (wEmQ w)))

/-- The fault of launching a generator (R157, R159), 0 for none. -/
def State.launchFault (s : State) (k g : Nat) : Nat :=
  let x := Tbl.get Gen.reset (s.seq k).gens g
  if !x.configured || !s.isKind k x.dq 0 || (s.qdesc k x.dq).width < x.run then 0x0408
  else if x.indirect && !s.isKind k x.aq 2 then 0x0405
  else 0

/-- Whether a repeat can issue (R104, R117, R128, R146, R150 to R152, R157); `first` for the word's first repeat. -/
def State.gateFor (s : State) (k w : Nat) (first : Bool) (n : Need) : Gate :=
  let q := s.seq k
  let token := first && wAwaits w && s.isKind k (wAwQ w) 1
  let checked := (if token then [wAwQ w] else []) ++ n.awaits
  let used (x : Nat) : Nat := ((n.pops.filter fun p => p.1 = x).map fun p => p.2.1).sum
  let bad := (bitsOf 8 n.start).find? fun g => s.launchFault k g ≠ 0
  let gated := maskOf ((bitsOf 4 n.touch).filter fun j => (s.array (4 * k + j)).gated)
  if first && !s.targetsOk k w n then .fault 0x0405
  else if n.pops.any (fun p => !s.isData k p.1 p.2.2) || n.dests.any (fun d => !s.isData k d.1 d.2) then .fault 0x0405
  else if 8192 < n.reads then .fault 0x0403
  else if checked.any (fun x => ((s.queue k x).entries.take 1).any fun e => e.token != wAwTok w) then .fault 0x0406
  else if !(n.pops.map fun p => p.1).Nodup || n.pops.any (fun p => (s.queue k p.1).entries.length < p.2.1) ||
      (token && (s.queue k (wAwQ w)).entries.isEmpty) || n.awaits.any (fun x => (s.queue k x).entries.isEmpty) then .stall 3
  else if n.dests.any (fun d => (s.qdesc k d.1).depth + used d.1 < (s.queue k d.1).occ + (n.dests.filter fun x => x.1 = d.1).length) then
    .stall 4
  else if (bitsOf 8 n.start).any (fun g => q.streams.any fun e => e.1 = g) then .stall 0
  else if first && wEmits w && s.isKind k (wEmQ w) 1 && 16 ≤ q.emits.length then .stall 0
  else if gated ≠ 0 then .starts gated
  else match bad with
    | some g => .fault (s.launchFault k g)
    | none => .go

/-! ### Taking and launching -/

/-- The cycle in which the waiting repeat issues (R117). -/
def State.issueCycle (s : State) (k : Nat) : Nat := max (s.seq k).cycle (s.seq k).accept

/-- `m` entries popped from a queue: their bytes as one number, the first entry lowest (R90). -/
def State.takeQ (s : State) (k q m : Nat) : State × Nat :=
  let x := s.queue k q
  (s.setQueue k q { x with entries := x.entries.drop m }, packLanes (8 * (s.qdesc k q).width) ((x.entries.take m).map fun e => e.data))

/-- Every pop of a repeat, with the awaited token's, and what was popped by queue. -/
def State.takeAll (s : State) (k w : Nat) (first : Bool) (n : Need) : State × List (Nat × Nat) :=
  let token := first && wAwaits w && s.isKind k (wAwQ w) 1
  let s := if token then (s.takeQ k (wAwQ w) 1).1 else s
  let s := if (first && token) || !n.awaits.isEmpty then s.count k 0 5 1 else s
  n.pops.foldl (fun (a : State × List (Nat × Nat)) p =>
    let r := a.1.takeQ k p.1 p.2.1
    (r.1, a.2 ++ [(p.1, r.2)])) (s, [])

/-- What was popped from a queue. -/
def popped (got : List (Nat × Nat)) (q : Nat) : Nat := Tbl.get 0 got q

/-- A generator's stream launched by the current word, whose pushes are `groups`: a LOAD's entries are stamped when the word's emission names
their queue, or the group that it belongs to (R149, R157). -/
def State.launch (s : State) (k w g : Nat) (groups : List (Nat × List Nat)) : State :=
  let q := s.seq k
  let x := Tbl.get Gen.reset q.gens g
  let stamp := if !x.store && wEmits w && (concerned (wEmQ w) groups).contains x.dq then some (wEmTok w) else none
  s.setSeq k { q with streams := Tbl.set q.streams g { Stream.reset with base := if x.indirect then none else some x.base, stamp := stamp, serial := q.serial } }

/-- A repeat that stalls takes its cycle (R128, R411). -/
def State.stallCycle (s : State) (k event : Nat) : State :=
  let s := (s.setSeq k { s.seq k with cycle := (s.seq k).cycle + 1 }).count k 0 2 1
  if event = 0 then s else s.count k 0 event 1

/-- What came of a repeat. -/
inductive Drove where
  | fault (code : Nat)
  | stalled (t : State)
  | issued (t : State) (cycle : Nat) (got : List (Nat × Nat))

/-- A repeat put through its gate: when it issues, its pops, launches and cycle are done. -/
def State.tryIssue (s : State) (k w : Nat) (first : Bool) (n : Need) : Drove :=
  match s.gateFor k w first n with
  | .fault c => .fault c
  | .stall e => .stalled (s.stallCycle k e)
  | .starts m => .stalled (((s.requestStarts k m).stallCycle k 0).count k 1 4 1)
  | .go =>
    let c := s.issueCycle k
    let x := s.takeAll k w first n
    let t := (bitsOf 8 n.start).foldl (fun (t : State) g => t.launch k w g n.pushGroups) x.1
    let t := t.setSeq k { t.seq k with cycle := c + 1 }
    .issued (t.count k 0 1 1) c x.2

/-! ### Driving the arrays (R103, R132 to R136) -/

/-- What one repeat of a STEP word, or one cycle of the tile expander, asks of the arrays. -/
structure Drive where
  vec : Bool                              -- R133
  swap : Bool                             -- R134
  inj : Bool                              -- R133
  toPs : Bool                             -- DEST; R133
  arrays : Nat                            -- R103
  afmt : Nat                              -- R132
  wfmt : Nat                              -- R132
  ofmt : Nat                              -- R132
  xmode : Nat                             -- R132
  apiece : Nat                            -- R133
  wpiece : Nat                            -- R133
  ascEn : Bool                            -- R133
  wscEn : Bool                            -- R133
  actq : Nat                              -- R133
  ascq : Nat                              -- R133
  wq : Nat                                -- R133
  wscq : Nat                              -- R133
  psq : Nat                               -- R133
  outq : Nat                              -- R133
  fullcol : Bool                          -- R133
  rows : Nat                              -- ungated rows; R115
  tail : Nat                              -- products of the last of them, 0 for all; R107
  loads : List (Nat × Nat)                -- array and row; R95
  cpq : Nat                               -- R135
  cps : List (Nat × Nat)                  -- arrays whose column parameters are popped, with their extent masks; R136
  ownCols : Bool                          -- CP_EN is 0; R136
  extents : List (Nat × Nat)              -- extent masks by array; R136
  lasts : Nat                             -- arrays whose entry carries LAST when stamped; R149
  start : Nat                             -- R133
  wordPops : List (Nat × List Nat)        -- R151
  wordPushes : List (Nat × List Nat)      -- R149
  wordSums : List Nat                     -- R149
  seen : Nat                              -- queues the word has popped already; R151
  early : List Nat                        -- queues whose heads are seen before anything of the word issues; R151

/-- An array's expansion table: target format, whether it is an INT8 table, and its entries (R79, R101, R102). -/
def State.table (s : State) (k a : Nat) : Nat × Nat × Nat := Tbl.get (0, 0, 0) s.tables (2 * k + a / 2)

/-- Products a cell of an array forms for an operand pair, 0 where the arrays do not accept it (R64, R79, R132). A weight
meets a table of its own size. -/
def State.pairOn (s : State) (k a afmt wfmt xmode : Nat) : Nat :=
  let t := s.table k a
  if xmode = 1 && (t.2.1 == 1) != (wfmt == 8) then 0 else pairProducts afmt wfmt xmode t.1

/-- Whether a code is that of a format (R132). -/
def isFmt (f : Nat) : Bool := f < 10
/-- Whether an output code is admitted (R132). -/
def isOut (f : Nat) : Bool := f = 6 || f = 4 || f = 5 || f = 2 || f = 3 || f = 1 || f = 9

/-- The arrays whose operand pair a repeat uses. -/
def Drive.pairArrays (d : Drive) : List Nat :=
  let l := (if d.vec then bitsOf 4 d.arrays else []) ++ d.loads.map fun x => x.1
  if l.isEmpty then [0] else l

/-- Products a cell for the whole repeat, 0 where its arrays differ. -/
def State.driveN (s : State) (k : Nat) (d : Drive) : Nat :=
  let ns := d.pairArrays.map fun a => s.pairOn k a d.afmt d.wfmt d.xmode
  let n := ns.headD 0
  if ns.all (· = n) then n else 0

/-- The fault of a repeat's formats (R131 to R133), 0 for none. -/
def State.formatFault (s : State) (k : Nat) (d : Drive) : Nat :=
  let out := d.vec && !d.toPs
  let pieceOk (f p : Nat) : Bool := (f == 6) == (1 ≤ p && p ≤ 3)
  if !(isFmt d.afmt && isFmt d.wfmt) || (out && !isFmt d.ofmt) || d.xmode = 3 then 0x0403
  else if !(pieceOk d.afmt d.apiece && pieceOk d.wfmt d.wpiece) then 0x0403
  else if s.driveN k d = 0 || (out && !isOut d.ofmt) then 0x0404
  else 0

/-- Entries and bytes of each in which `b` bytes are popped: one, or two of 1 KiB (R90, R143). -/
def entriesOf (b : Nat) : Nat × Nat := if 1024 < b then (2, 1024) else (1, b)

/-- What a repeat needs. -/
def State.driveNeed (s : State) (k w : Nat) (d : Drive) : Need :=
  let n := s.driveN k d
  let vb := actBytes d.afmt n
  let sb := rowBytes d.wfmt n
  let as_ := bitsOf 4 d.arrays
  let va := entriesOf vb
  let wa := entriesOf sb
  let pops : List (Nat × Nat × Nat) :=
    (if d.vec then [(d.actq, va.1, va.2)] ++ (if d.ascEn then [(d.ascq, 1, 32)] else []) ++
      (if d.inj then as_.map fun a => (d.psq + a, 1, 512) else []) else []) ++
    (d.loads.map fun x => (d.wq + x.1, wa.1, wa.2)) ++ (if !d.loads.isEmpty && d.wscEn then [(d.wscq, 1, 128)] else []) ++
    d.cps.map fun x => (d.cpq + x.1, 1, 128)
  let con := if wAwaits w && !s.isKind k (wAwQ w) 1 then concerned (wAwQ w) d.wordPops else []
  { pops := pops
    dests := if d.vec then as_.map fun a => if d.toPs then (d.psq + a, 512) else (d.outq + a, 4 * fmtBits d.ofmt) else []
    reads := (if d.vec then vb + (if d.ascEn then 32 else 0) + (if d.inj then 512 * as_.length else 0) else 0) +
      d.loads.length * (sb + if d.wscEn then 32 else 0)
    touch := (if d.vec || d.swap then d.arrays else 0) ||| maskOf (d.loads.map fun x => x.1) ||| maskOf (d.cps.map fun x => x.1)
    start := d.start
    popGroups := d.wordPops
    pushGroups := d.wordPushes
    sums := d.wordSums
    awaits := con.filter fun q => !d.seen.testBit q && (d.early.contains q || pops.any fun p => p.1 = q) }

/-- Operations issued to an array. -/
def State.addOps (s : State) (k a : Nat) (l : List ArrOp) (until_ : Nat) : State :=
  let u := s.array (4 * k + a)
  s.setArray (4 * k + a) { u with ops := u.ops ++ l, idle := max u.idle until_ }

/-- The token that an output entry of array `a` carries: the word's, when its emission names the queue or its group. -/
def outToken (w : Nat) (d : Drive) (a : Nat) : Option Nat :=
  if wEmits w && !d.toPs && (wEmQ w = d.outq || wEmQ w = d.outq + a) then some (wEmTok w) else none

/-- The swap, row-loads, column parameters and vector of a repeat issued in cycle `c` (R92, R95, R96, R100). -/
def State.driveGo (s : State) (k w : Nat) (d : Drive) (n c : Nat) (got : List (Nat × Nat)) (tokenEm : Bool) : State :=
  let as_ := bitsOf 4 d.arrays
  let s := if d.swap then (as_.foldl (fun (s : State) a => s.addOps k a [.swap c] (c + 67)) s).count k 1 3 1 else s
  let s := d.loads.foldl (fun (s : State) x =>
    let t := s.table k x.1
    let r : RowLoad := {
      row := x.2, cycle := c
      cells := loadCells d.wfmt d.xmode n t.1 t.2.2 (s.array (4 * k + x.1)).zeros (popped got (d.wq + x.1))
      b32 := d.wfmt = 6, piece := d.wpiece
      scales := lane 256 x.1 (popped got d.wscq)
      hasScale := d.wscEn && heldFmt d.wfmt d.xmode t.1 ≤ 3 }
    (s.addOps k x.1 [.load r] (c + 35)).count k 1 2 1) s
  let s := d.cps.foldl (fun (s : State) x =>
    let e := popped got (d.cpq + x.1)
    s.addOps k x.1 [.param c (e % 2 ^ 512) (lane 32 16 e &&& x.2)] (c + 1)) s
  if !d.vec then s
  else
    let s := as_.foldl (fun (s : State) a =>
      let q := if d.toPs then d.psq + a else d.outq + a
      let tok := if tokenEm then none else outToken w d a
      let v : Vec := {
        cycle := c, serial := (s.seq k).serial
        act := popped got d.actq
        asc := if d.ascEn then popped got d.ascq else 0, hasAsc := d.ascEn && d.afmt ≤ 3
        afmt := d.afmt, wfmt := heldFmt d.wfmt d.xmode (s.table k a).1, apiece := d.apiece, n := n, rows := d.rows
        tail := if d.tail = 0 then n else d.tail
        inj := if d.inj then some (popped got (d.psq + a)) else none
        toPs := d.toPs, ofmt := d.ofmt, affine := d.xmode = 2
        ownCols := d.ownCols, extent := Tbl.get 0 d.extents a, fullcol := d.fullcol
        queue := q, token := tok.getD 0, last := tok.isSome && d.lasts.testBit a }
      let u := s.array (4 * k + a)
      let s := s.setArray (4 * k + a) { u with vecs := u.vecs ++ [v], idle := max u.idle (c + 71) }
      let x := s.queue k q
      s.setQueue k q { x with reserved := x.reserved + 1 }) s
    s.count k 1 1 1

/-- One repeat that drives the arrays. -/
def State.drive (s : State) (k w : Nat) (first : Bool) (d : Drive) : Drove :=
  let f := if d.vec || !d.loads.isEmpty then s.formatFault k d else 0
  if f ≠ 0 then .fault f
  else
    let em := s.isKind k (wEmQ w) 1
    let n := s.driveN k d
    match s.tryIssue k w first (s.driveNeed k w d) with
    | .fault c => .fault c
    | .stalled t => .stalled t
    | .issued t c got => .issued (t.driveGo k w d n c got em) c got

end Sys2Proof.Machine
end

