-- ==== Sys2Proof/Machine/Sequencer.lean ====
section
/-! DEFINITION. The sequencer's program and its words (R126 to R134, R138 to R142, R150, R162 to R165). -/

namespace Sys2Proof.Machine

/-! ### The program image (R126, R127, R143, R144, R156) -/

/-- A queue descriptor of the image (R143). -/
def qdescOf (v : Nat) : QDesc :=
  { valid := v.testBit 63, kind := bits 62 61 v, width := 32 * 2 ^ bits 60 58 v, depth := bits 55 40 v, base := 32 * bits 17 0 v }

/-- Whether a descriptor obeys R143 and R144 by itself. A TOKEN queue's WIDTH and BASE are ignored. -/
def qdescOk (v : Nat) : Bool :=
  let d := qdescOf v
  if !d.valid then v = 0
  else bits 57 56 v = 0 && bits 39 18 v = 0 && d.depth ≠ 0 &&
    (if d.kind = 1 then d.depth ≤ 256
      else d.kind ≠ 3 && bits 60 58 v ≤ 5 && (d.kind = 0 || d.width = 256) && d.base % d.width = 0 && d.base + d.width * d.depth ≤ 2 ^ 23)

/-- Whether the regions of two queues overlap (R144). -/
def qdescClash (a b : QDesc) : Bool :=
  a.valid && b.valid && a.kind ≠ 1 && b.kind ≠ 1 && a.base < b.base + b.width * b.depth && b.base < a.base + a.width * a.depth

/-- A generator table entry (R156). -/
def genOf (v : Nat) : Gen :=
  let e := v % 2 ^ 64
  { configured := e.testBit 63, indirect := bits 62 61 e = 1, store := e.testBit 60, dq := bits 59 55 e, aq := bits 54 50 e
    run := 32 * 2 ^ bits 49 47 e, levels := bits 46 44 e, base := bits 119 64 v
    bounds := (List.range 6).map fun j => bits 63 44 (lane 64 (j + 2) v) + 1
    strides := (List.range 6).map fun j => sext 36 (lane 64 (j + 2) v) }

/-- Whether an entry holds no reserved value (R139, R156, R162): levels at or above LEVELS are ignored, and only an unconfigured entry may
have LEVELS 0. -/
def genOk (v : Nat) : Bool :=
  let e := v % 2 ^ 64
  bits 43 0 e = 0 && bits 127 120 v = 0 && bits 62 61 e ≤ 1 && bits 49 47 e ≤ 5 && bits 46 44 e ≤ 6 &&
    (!e.testBit 63 || 1 ≤ bits 46 44 e) && (List.range (bits 46 44 e)).all fun j => bits 43 36 (lane 64 (j + 2) v) = 0

/-- The fault of an image's header (R126, R162), 0 for none. -/
def headFault (img : Nat) : Nat :=
  let n := bits 31 16 img
  if bits 15 0 img ≠ 1 || n = 0 || 2048 < n || n ≤ bits 47 32 img || bits 511 48 img ≠ 0 then 0x0401 else 0

/-- The fault of an image's tables (R127, R162): the queue table is checked before the generator table. -/
def tableFault (img : Nat) : Nat :=
  let qs := (List.range 32).map fun i => lane 64 (8 + i) img
  let ds := qs.map qdescOf
  let clash := (List.range 32).any fun i => (List.range i).any fun j => qdescClash (ds.getD i QDesc.reset) (ds.getD j QDesc.reset)
  if !qs.all qdescOk || clash then 0x0402
  else if !(List.range 8).all fun g => genOk (bits (512 * g + 3071) (512 * g + 2560) img) then 0x0408
  else 0

/-- The SOURCE of the program load's accesses, which R261 does not give. -/
def imageSource : Nat := (Config.freeNat 7 0).toNat % 256

/-- Bytes of a program image read in its shard's context (R127). -/
def State.imageRead (s : State) (k : Nat) (h : Shard) (n : Nat) : State × Got :=
  s.unitRead (.mover k 0)
    { ctx := h.ctx, tag := h.tag, engine := k, source := imageSource, kind := 0, va := bits 511 456 h.recd, rep := 0, since := none }
    n h.ring h.aseq

/-! ### Control words: what is checked when one becomes current (R131, R132, R135, R138 to R142) -/

/-- The fault of a TILE word's own fields. -/
def tileFault (w : Nat) : Nat :=
  let p := bits 73 72 w
  let a := bits 87 84 w
  let f := bits 83 80 w
  let o := bits 79 76 w
  let x := bits 75 74 w
  if bits 25 0 w ≠ 0 || bits 175 160 w = 0 || 2 ^ 48 - 2 < bits 139 92 w || bits 91 88 w = 0 || x = 3 || p = 0 ||
      !(isFmt a && isFmt f && isFmt o) || (p ≠ 1 && !(a = 6 && f = 6)) then 0x0403
  else if (x ≠ 1 && pairProducts a f x 0 = 0) || (x = 1 && f ≠ 7 && f ≠ 8) || !isOut o then 0x0404
  else 0

/-- The fault of a PARAM word's own fields. -/
def paramFault (w : Nat) : Nat :=
  let kind := bits 175 173 w
  let t := bits 163 160 w
  if bits 158 0 w ≠ 0 || 3 < kind then 0x0403
  else if (kind = 1 || kind = 2) && (4 < t || (t = 0 && w.testBit 159)) then 0x0404
  else 0

/-- The fault of an AGEN word's own fields. -/
def agenFault (w : Nat) : Nat :=
  let part := bits 172 171 w
  if part = 3 || (part = 0 && (bits 95 0 w ≠ 0 || 1 < bits 170 169 w || 5 < bits 157 155 w || bits 154 152 w = 0 || 6 < bits 154 152 w)) ||
      (part ≠ 0 && bits 2 0 w ≠ 0) then 0x0403
  else 0

/-- The fault that a word causes when it becomes current, 0 for none. A STEP word's formats are checked as it issues (R132). -/
def wordFault (w : Nat) : Nat :=
  let c := wClass w
  if bits 181 176 w ≠ 0 || 5 < bits 210 208 w || (c ≠ 0 && bits 251 239 w ≠ 0) || (c = 0 && w.testBit 239 && bits 251 243 w ≠ 0) then 0x0403
  else match c with
    | 0 => if bits 93 0 w ≠ 0 then 0x0403 else 0
    | 1 => tileFault w
    | 2 => paramFault w
    | 3 => agenFault w
    | 4 =>
      let low := match bits 175 173 w with
        | 0 => bits 137 0 w
        | 1 => bits 129 0 w
        | 2 => bits 160 0 w
        | _ => 1
      if low ≠ 0 then 0x0403 else 0
    | 5 =>
      let op := bits 175 174 w
      if op = 3 || bits 79 0 w ≠ 0 || (op ≠ 0 && bits 167 112 w % 8 ≠ 0) then 0x0403 else 0
    | 15 => if bits 175 0 w ≠ 0 then 0x0403 else 0
    | _ => 0x0403

/-- A word becomes current (R129, R130). -/
def State.enterWord (s : State) (k : Nat) : State :=
  let q := s.seq k
  let s := s.setSeq k { q with serial := q.serial + 1, rep := 0, count := none, tile := none, waiting := false, released := false }
  if q.nwords ≤ q.pc then s.seqFault k 0x0407
  else
    let f := wordFault (s.curWord k)
    if f = 0 then s else s.seqFault k f

/-! ### After a word's last repeat (R129) -/

/-- The counter operation of a word. -/
def counterOp (w v : Nat) : Nat :=
  match bits 210 208 w with
  | 1 => (v + 1) % 2 ^ 32
  | 2 => (v + 2 ^ 32 - 1) % 2 ^ 32
  | 3 => 0
  | 4 => twos 32 ((v : Int) + sext 8 (bits 204 197 w))
  | 5 => bits 204 197 w
  | _ => v

/-- A comparator on the counters (R140): an unconfigured one is false. `c` is the SETCMP payload plus 1. -/
def comparator (ct : Tbl Nat) (c : Nat) : Bool :=
  if c = 0 then false
  else
    let p := c - 1
    let a := Tbl.get 0 ct (bits 170 168 p)
    let b := if p.testBit 167 then bits 161 130 p else Tbl.get 0 ct (bits 166 164 p)
    match bits 163 162 p with
    | 0 => a = b
    | 1 => a ≠ b
    | 2 => a < b
    | _ => b ≤ a

/-- WORD_COMPLETE (R129): the counter operation, the comparators, then the branch; a word that issued has its emission kept
(R150). -/
def State.wordDone (s : State) (k : Nat) (issued : Bool) : State :=
  let w := s.curWord k
  let q := s.seq k
  let ct := Tbl.modify 0 q.ct (bits 207 205 w) (counterOp w)
  let vals : Tbl Bool := (List.range 4).map fun i => (i, comparator ct (Tbl.get 0 q.cmp i))
  let c := Tbl.get false vals (bits 194 193 w)
  let taken := match bits 196 195 w with
    | 0 => false
    | 1 => c
    | 2 => !c
    | _ => true
  let emits := if issued && wEmits w && s.isKind k (wEmQ w) 1 then q.emits ++ [⟨q.serial, wEmQ w, wEmTok w⟩] else q.emits
  (s.setSeq k { q with
    ct := ct
    cmpVal := vals
    emits := emits
    pc := if taken then bits 192 182 w else q.pc + 1
    cycle := q.cycle + (if issued then 0 else 1) + (if taken then 1 else 0)
    stepLeft := q.stepLeft.map (· - 1) }).enterWord k

/-- What came of a repeat, taken into the state: `f` goes on from an issued one. -/
def State.settleDrove (s : State) (k : Nat) (d : Drove) (f : State → Nat → List (Nat × Nat) → State) : State :=
  match d with
  | .fault c => s.seqFault k c
  | .stalled t => t
  | .issued t c got => f t c got

/-- Whether a core's current word is of a class and may issue. -/
def State.onClass (s : State) (k c : Nat) : Bool := s.seqGo k && wClass (s.curWord k) = c

/-! ### STEP (R133, R134) -/

/-- What repeat `i` of `n` of a STEP word asks of the arrays. -/
def stepDrive (w i n : Nat) (gens : Tbl Gen) : Drive :=
  let vec := w.testBit 175
  let arrays := bits 171 168 w
  let ld := bits 167 164 w
  let reps := bits 158 153 w
  let outq := bits 107 103 w
  let psq := bits 112 108 w
  let inj := w.testBit 173
  let toPs := w.testBit 172
  let start := bits 102 95 w
  { vec := vec, swap := w.testBit 174 && i = 0, inj := inj, toPs := toPs, arrays := arrays
    afmt := bits 152 149 w, wfmt := bits 148 145 w, ofmt := bits 144 141 w, xmode := bits 140 139 w
    apiece := bits 138 137 w, wpiece := bits 136 135 w, ascEn := w.testBit 134, wscEn := w.testBit 123
    actq := bits 133 129 w, ascq := bits 128 124 w, wq := bits 122 118 w, wscq := bits 117 113 w, psq := psq, outq := outq
    fullcol := w.testBit 94, rows := 32, tail := 0
    loads := if i < reps then (bitsOf 4 ld).map fun a => (a, (bits 163 159 w + i) % 32) else []
    cpq := 0, cps := [], ownCols := false, extents := []
    lasts := if i + 1 = n then arrays else 0
    start := if i = 0 then start else 0
    wordPops :=
      (if vec then [(bits 133 129 w, [bits 133 129 w])] ++ (if w.testBit 134 then [(bits 128 124 w, [bits 128 124 w])] else []) else []) ++
      (if reps ≠ 0 && ld ≠ 0 then [(bits 122 118 w, groupQs (bits 122 118 w) ld)] ++
        (if w.testBit 123 then [(bits 117 113 w, [bits 117 113 w])] else []) else [])
    wordPushes :=
      (if vec && !toPs then [(outq, groupQs outq arrays)] else []) ++
      (((bitsOf 8 start).map fun g => Tbl.get Gen.reset gens g).filter fun x => x.configured && !x.store).map fun x => (x.dq, [x.dq])
    wordSums := if vec && (inj || toPs) then groupQs psq arrays else []
    seen := if i = 0 then 0 else 2 ^ 32 - 1
    early := [] }

/-- STEP_REPEAT (R128, R134): one repeat of a STEP word; a word of no repeats only completes. -/
def State.stepRepeat (s : State) (k : Nat) : State :=
  if !s.onClass k 0 then s
  else
    let w := s.curWord k
    let q := s.seq k
    let n := q.count.getD (if w.testBit 239 then Tbl.get 0 q.ct (bits 242 240 w) else bits 251 240 w + 1)
    if n = 0 then s.wordDone k false
    else
      let s := s.setSeq k { q with count := some n }
      s.settleDrove k (s.drive k w (q.rep = 0) (stepDrive w q.rep n q.gens)) fun t _ _ =>
        let t := t.setSeq k { t.seq k with rep := q.rep + 1 }
        if q.rep + 1 = n then t.wordDone k true else t

/-! ### PARAM (R138) -/

/-- What a PARAM word needs: the entries of its source queues. -/
def paramNeed (w : Nat) : Need :=
  let kind := bits 175 173 w
  let arrays := bits 172 169 w
  let q := bits 168 164 w
  let group := kind = 0 || kind = 3
  let width := if kind = 0 then 128 else if kind = 3 then 32 else if w.testBit 159 then 512 else 32
  let qs := if group then groupQs q arrays else [q]
  { Need.empty with
    pops := qs.map fun x => (x, 1, width)
    touch := if group then arrays else if kind = 1 then 3 else 12
    popGroups := [(q, qs)]
    awaits := if wAwaits w then concerned (wAwQ w) [(q, qs)] else [] }

/-- A PARAM word issued: `f` makes the load. -/
def State.param (s : State) (k : Nat) (kinds : List Nat) (f : State → Nat → Nat → List (Nat × Nat) → State) : State :=
  let w := s.curWord k
  if !s.onClass k 2 || !kinds.contains (bits 175 173 w) then s
  else s.settleDrove k (s.tryIssue k w true (paramNeed w)) fun t c got => (f t w c got).wordDone k true

/-- COLUMN: column scales and masks into the shadow output parameters (R100). -/
def loadColumns (k : Nat) (s : State) (w c : Nat) (got : List (Nat × Nat)) : State :=
  (bitsOf 4 (bits 172 169 w)).foldl (fun (s : State) a =>
    let e := popped got (bits 168 164 w + a)
    s.addOps k a [.param c (e % 2 ^ 512) (lane 32 16 e)] (c + 1)) s

/-- TABLE0 and TABLE1: an expansion table (R79, R101). -/
def loadTable (k : Nat) (s : State) (w c : Nat) (got : List (Nat × Nat)) : State :=
  let g := bits 175 173 w - 1
  let n := if w.testBit 159 then 256 else 16
  let e : Nat × Nat × Nat := (bits 163 160 w, if w.testBit 159 then 1 else 0, popped got (bits 168 164 w) % 2 ^ (16 * n))
  let s := { s with tables := Tbl.set s.tables (2 * k + g) e }
  (s.addOps k (2 * g) [] (c + 1)).addOps k (2 * g + 1) [] (c + 1)

/-- ZERO: the zero points of the named arrays (R80, R101). -/
def loadZeros (k : Nat) (s : State) (w c : Nat) (got : List (Nat × Nat)) : State :=
  (bitsOf 4 (bits 172 169 w)).foldl (fun (s : State) a =>
    let s := s.addOps k a [] (c + 1)
    s.setArray (4 * k + a) { s.array (4 * k + a) with zeros := popped got (bits 168 164 w + a) }) s

/-! ### AGEN and SCALAR (R139, R140, R383) -/

/-- A word with nothing to pop but an awaited token, issued: `f` has its effect. -/
def State.plain (s : State) (k : Nat) (f : State → Nat → State) : State :=
  let w := s.curWord k
  s.settleDrove k (s.tryIssue k w true Need.empty) fun t _ _ => (f t w).wordDone k true

/-- A generator's configuration with part of it rewritten (R139). -/
def agenWrite (g : Gen) (w : Nat) : Gen :=
  let part := bits 172 171 w
  if part = 0 then
    { g with
      configured := true, indirect := bits 170 169 w = 1, store := w.testBit 168, dq := bits 167 163 w, aq := bits 162 158 w
      run := 32 * 2 ^ bits 157 155 w, levels := bits 154 152 w, base := bits 151 96 w }
  else
    let put (g : Gen) (j lo : Nat) : Gen :=
      { g with bounds := setNth g.bounds j (bits (lo + 55) (lo + 36) w + 1), strides := setNth g.strides j (sext 36 (bits (lo + 35) lo w)) }
    let j := 3 * (part - 1)
    put (put (put g j 115) (j + 1) 59) (j + 2) 3

/-- AGEN (R139): it stalls while its generator's stream is active. -/
def State.agenWord (s : State) (k : Nat) : State :=
  if !s.onClass k 3 then s
  else
    let g := bits 175 173 (s.curWord k)
    if (s.seq k).streams.any fun e => e.1 = g then s.stallCycle k 0
    else s.plain k fun t w => t.setSeq k { t.seq k with gens := Tbl.modify Gen.reset (t.seq k).gens g fun x => agenWrite x w }

/-- A SCALAR word of an operation. -/
def State.scalar (s : State) (k op : Nat) (f : State → Nat → State) : State :=
  if s.onClass k 4 && bits 175 173 (s.curWord k) = op then s.plain k f else s

/-- LOADCT (R140). -/
def State.loadct (s : State) (k : Nat) : State :=
  s.scalar k 0 fun t w => t.setSeq k { t.seq k with ct := Tbl.set (t.seq k).ct (bits 172 170 w) (bits 169 138 w) }

/-- SETCMP (R140). -/
def State.setcmp (s : State) (k : Nat) : State :=
  s.scalar k 1 fun t w => t.setSeq k { t.seq k with cmp := Tbl.set (t.seq k).cmp (bits 172 171 w) (w % 2 ^ 176 + 1) }

/-- TANGENT (R383): a hint for the four cores of its cluster. -/
def State.tangentWord (s : State) (k : Nat) : State :=
  s.scalar k 2 fun t w => t.hint (k / 4) 4 (bits 172 169 w) (bits 168 161 w) (t.corePart k)

/-! ### SYNC and END (R141, R142) -/

/-- The SYNC word's wait is over: the word completes. -/
def State.syncDone (s : State) (k : Nat) : State := s.wordDone k true

/-- SYNC CHORD (R141, R338): the core arrives, once its await is satisfied, and goes on when the instance releases it. An
arrival that is not registered yet stalls (R341). -/
def State.syncChord (s : State) (k : Nat) : State :=
  let w := s.curWord k
  if !s.onClass k 5 || !isSync w 0 then s
  else
    let i := syncChordOf w
    let leave (s : State) : State := if (s.seq k).released then (s.leaveChord i k).syncDone k else s
    if (s.seq k).waiting then leave s
    else if !(s.ctr (oMembers i)).testBit k || s.objD 0xFF (oOwner i) ≠ s.corePart k then s.failShard k 0x0B02
    else if s.ctr (oChordState i) = 3 then s.failShard k 0x0B03
    else if (s.arrivalFor i k).isNone then s.stallCycle k 0
    else s.settleDrove k (s.tryIssue k w true Need.empty) fun t _ _ =>
      let t := t.setSeq k { t.seq k with waiting := true, released := false }
      leave ((t.arriveChord i k).getD t)

/-- SYNC SIGWAIT (R141, R331): the sequencer stalls until the signal holds VALUE or more. A word on a peer is refused (R333). -/
def State.syncSigwait (s : State) (k : Nat) : State :=
  let w := s.curWord k
  if !s.onClass k 5 || !isSync w 1 then s
  else
    let h := (s.core k).shard.getD Shard.reset
    let va := bits 167 112 w
    let go (s : State) : State := if (s.seq k).released then s.syncDone k else s
    if (s.seq k).waiting then go s
    else if s.sigPeer h.ctx va then s.failShard k 0x0B01
    else s.settleDrove k (s.tryIssue k w true Need.empty) fun t _ _ =>
      go ((t.setSeq k { t.seq k with waiting := true, released := false }).watchFor (.seq k) h.ctx va (bits 111 80 w))

/-- SYNC SIGADD (R141): the addition waits for the effects of every earlier word; later words issue meanwhile. -/
def State.syncSigadd (s : State) (k : Nat) : State :=
  if !s.onClass k 5 || !isSync (s.curWord k) 2 then s
  else s.plain k fun t w =>
    let q := t.seq k
    t.setSeq k { q with sigs := q.sigs ++ [⟨q.serial, bits 167 112 w, bits 111 80 w⟩] }

/-- END (R142): LOAD streams stop with their reads, and the part completes when nothing is left to do. -/
def State.endProgram (s : State) (k : Nat) : State :=
  if !s.onClass k 15 then s.finishSeq k
  else
    let w := s.curWord k
    s.settleDrove k (s.tryIssue k w true Need.empty) fun t _ _ =>
      let q := t.seq k
      let emits := if wEmits w && t.isKind k (wEmQ w) 1 then q.emits ++ [⟨q.serial, wEmQ w, wEmTok w⟩] else q.emits
      let load (g : Nat) : Bool := !(Tbl.get Gen.reset q.gens g).store
      let t := (bitsOf 8 (maskOf ((q.streams.filter fun e => load e.1).map fun e => e.1))).foldl (fun (t : State) g =>
        t.dropUnit fun a => a.engine = k && a.source = 0x40 + g) t
      let t := t.peerForget fun x => x.engine = k && 0x40 ≤ x.source && x.source < 0x48 && load (x.source - 0x40)
      (t.setSeq k { q with ended := true, emits := emits, streams := q.streams.filter fun e => !load e.1 }).finishSeq k

/-! ### Token emissions and additions (R141, R150) -/

/-- The first pending emission whose word's effects are complete, with no earlier one on its queue, and room for it. -/
def State.readyEmit (s : State) (k : Nat) : Option Emit :=
  let q := s.seq k
  let mine (e : Emit) : Bool := (List.range 4).any (fun j => (s.array (4 * k + j)).vecs.any fun v => v.serial = e.serial) ||
    q.streams.any fun x => x.2.serial = e.serial
  q.emits.find? fun e =>
    !mine e && ((q.emits.takeWhile fun x => x ≠ e).all fun x => x.queue ≠ e.queue) && (s.queue k e.queue).occ < (s.qdesc k e.queue).depth

/-- TOKEN_EMIT (R150): tokens enter one queue in word order. -/
def State.tokenEmit (s : State) (k : Nat) : State :=
  if !s.running k || s.seqState k = 4 then s
  else
    match s.readyEmit k with
    | none => s
    | some e =>
      let q := s.seq k
      ((s.setSeq k { q with emits := dropFirst (fun x => x = e) q.emits }).pushFrom k e.queue 12 ⟨0, e.token, false, 0, 0⟩).finishSeq k

/-- SIGNAL_ADD (R330): an addition that a sequencer holds back is performed once the effects of every earlier word are complete
(R141), and then leaves its core; a peer's word needs a carrier arc (R367). -/
def State.signalAddAny (s : State) (ctx va v : Nat) : State :=
  let mine (a : SigLater) : Bool := a.va = va && a.value = v
  let from_ := s.seqs.find? fun e =>
    ((s.core e.1).shard.map fun h => h.ctx) = some ctx && s.running e.1 &&
      e.2.sigs.any fun a => mine a && !s.effectsBefore e.1 a.serial
  match from_ with
  | none => s.signalAdd ctx va v
  | some e =>
    let k := e.1
    let drop (a : SigLater) : Bool := mine a && !s.effectsBefore k a.serial
    let lost := match s.xlate ctx va with
      | some (.peer x _) => (match s.peerArc ctx x with | .error code => some code | .ok _ => none)
      | _ => none
    let s := s.setSeq k { s.seq k with sigs := dropFirst drop (s.seq k).sigs }
    match lost with
    | some code => s.failShard k code
    | none =>
      let h := (s.core k).shard.getD Shard.reset
      (s.addSignal ⟨ctx, va, v, .core k, h.ring, h.aseq⟩).finishSeq k

/-! ### Program load (R127) -/

/-- PROGRAM_LOADED (R127): the image is read and checked, and word ENTRY becomes current; a failed check ends the shard. -/
def State.programLoaded (s : State) (k : Nat) : State :=
  match (s.core k).shard with
  | none => s
  | some h =>
    if !(s.seq k).loading || !s.running k || s.seqState k ≠ 1 then s
    else
      match s.imageRead k h 64 with
      | (t, .wait) => t
      | (t, .fail c) => t.failShard k c
      | (t, .data head bad) =>
        let f := if bad then 0x040B else headFault head
        if f ≠ 0 then t.seqFault k f
        else
          let n := bits 31 16 head
          match t.imageRead k h (832 + 32 * n) with
          | (t, .wait) => t
          | (t, .fail c) => t.failShard k c
          | (t, .data img bad) =>
            let f := if bad then 0x040B else tableFault img
            if f ≠ 0 then t.seqFault k f
            else
              let q : Seq := { Seq.reset with
                loaded := true, imageBytes := img, nwords := n, pc := bits 47 32 img
                words := (List.range n).map fun i => (i, lane 256 (26 + i) img)
                qdesc := (List.range 32).map fun i => (i, qdescOf (lane 64 (8 + i) img))
                gens := (List.range 8).map fun g => (g, genOf (bits (512 * g + 3071) (512 * g + 2560) img))
                cycle := 1 + (n + 3) / 4
                stepLeft := (s.seq k).stepLeft }
              let t := (((t.setSeq k q).put (oSeqState k) 2).bump 8 oProgramLoads 1).trace 0x02 k h.tag h.ctx 0
              let t := t.enterWord k
              if (s.seq k).haltNext && t.running k && t.seqState k = 2 then t.haltCore k 3 else t

/-! ### Meanings -/

/-- PROGRAM_LOADED (R127). -/
def execProgramLoaded (k : Nat) (s : State) : Res := onUnit s (isCore k) (s.programLoaded k)
/-- STEP_REPEAT (R134). -/
def execStepRepeat (k : Nat) (s : State) : Res := onUnit s (isCore k) (s.stepRepeat k)
/-- PARAM_COLUMN (R138). -/
def execParamColumn (k : Nat) (s : State) : Res := onUnit s (isCore k) (s.param k [0] (loadColumns k))
/-- PARAM_TABLE (R138). -/
def execParamTable (k : Nat) (s : State) : Res := onUnit s (isCore k) (s.param k [1, 2] (loadTable k))
/-- PARAM_ZERO (R138). -/
def execParamZero (k : Nat) (s : State) : Res := onUnit s (isCore k) (s.param k [3] (loadZeros k))
/-- AGEN (R139). -/
def execAgen (k : Nat) (s : State) : Res := onUnit s (isCore k) (s.agenWord k)
/-- LOADCT (R140). -/
def execLoadct (k : Nat) (s : State) : Res := onUnit s (isCore k) (s.loadct k)
/-- SETCMP (R140). -/
def execSetcmp (k : Nat) (s : State) : Res := onUnit s (isCore k) (s.setcmp k)
/-- TANGENT (R383). -/
def execTangent (k : Nat) (s : State) : Res := onUnit s (isCore k) (s.tangentWord k)
/-- SYNC_CHORD (R141). -/
def execSyncChord (k : Nat) (s : State) : Res := onUnit s (isCore k) (s.syncChord k)
/-- SYNC_SIGWAIT (R141). -/
def execSyncSigwait (k : Nat) (s : State) : Res := onUnit s (isCore k) (s.syncSigwait k)
/-- SYNC_SIGADD (R141). -/
def execSyncSigadd (k : Nat) (s : State) : Res := onUnit s (isCore k) (s.syncSigadd k)
/-- END (R142). -/
def execEndWord (k : Nat) (s : State) : Res := onUnit s (isCore k) (s.endProgram k)
/-- TOKEN_EMIT (R150). -/
def execTokenEmit (k : Nat) (s : State) : Res := onUnit s (isCore k) (s.tokenEmit k)
/-- SIGNAL_ADD (R330). -/
def execSignalAdd (ctx va v : Nat) (s : State) : Res := .next (s.signalAddAny ctx va v)

end Sys2Proof.Machine
end

