-- ==== Sys2Proof/Machine/Debug.lean ====
section
/-! DEFINITION. A core's debugger (R164, R165, R198): halts, resumes and steps of the sequencer, and halts of the groups. The writes of
HALT_REQ, RESUME, THR_HALT and THR_STEP reach these through the dictionary. -/

namespace Sys2Proof.Machine

/-- A trace record of the shard that a core runs (R415). -/
def State.traceShard (s : State) (k ty data : Nat) : State :=
  let h := (s.core k).shard
  s.trace ty k ((h.map fun h => h.tag).getD 0) ((h.map fun h => h.ctx).getD 0) data

/-- A write of 1 to HALT_REQ (R165): a running sequencer stops before its next repeat; one that is loading stops before its first. -/
def State.haltReq (s : State) (k : Nat) : State :=
  if s.seqState k = 2 then s.haltCore k 3
  else if s.seqState k = 1 then s.setSeq k { s.seq k with haltNext := true }
  else s

/-- A write of RESUME (R165): `v` words are run, all of them for 0. From a breakpoint the command that matched begins, unless its context is in ERROR (R264); from HELD the shard ends with
the held fault. -/
def State.resumeCore (s : State) (k v : Nat) : State :=
  let st := s.seqState k
  if st = 4 then
    let code := (s.seq k).held
    let s := ((s.setSeq k { s.seq k with held := 0 }).put (oSeqState k) 2).put (oHaltCause k) 0
    ((s.runClock k).traceShard k 0x04 0).failShard k code
  else if st = 3 then
    let steps : Option Nat := if v = 0 then none else some v
    match (s.core k).shard with
    | none => ((s.put (oSeqState k) 0).put (oHaltCause k) 0).runClock k
    | some h =>
      if h.begun then
        let s := ((s.setSeq k { s.seq k with stepLeft := steps }).put (oSeqState k) 2).put (oHaltCause k) 0
        ((s.runClock k).traceShard k 0x04 0).finishSeq k
      else if (s.ctxOf h.ctx).any fun x => x.error then (s.traceShard k 0x04 0).dropHeld k 0x0803
      else
        let s := ((s.traceShard k 0x04 0).startShard k).runClock k
        s.setSeq k { s.seq k with stepLeft := steps }
  else s

/-- STEP_COUNT_HALT (R165): the words of a RESUME step have run. -/
def State.stepHalt (s : State) (k : Nat) : State :=
  if s.seqState k = 2 && (s.seq k).stepLeft = some 0 && !(s.seq k).ended then
    (s.setSeq k { s.seq k with stepLeft := none }).haltCore k 4
  else s

/-- A write of THR_HALT (R198): 1 stops the groups before their next instructions, 2 stops them at once and fails their locked sequences, 0
resumes them. -/
def State.haltGroups (s : State) (k v : Nat) : State :=
  let old := s.thrHalt k
  let s := s.put (oThrHalt k) v
  if v = 0 then
    if old = 0 then s else (s.runClock k).traceShard k 0x04 0
  else
    let s := if v = 2 then s.dropLocks k true else s
    (s.haltClock k).traceShard k 0x03 ((0x10 + v) * 2 ^ 312)

/-- STEP_COUNT_HALT (R165). -/
def execStepCountHalt (k : Nat) (s : State) : Res := onUnit s (isCore k) (s.stepHalt k)

end Sys2Proof.Machine
end

