-- ==== Sys2Proof/Machine/Operands.lean ====
section
/-! DEFINITION. What a thread instruction names (R170, R172, R177, R178): its fields, its forms, its registers and predicates, and what they hold
in a lane. -/

namespace Sys2Proof.Machine

/-! ### The instruction word (R177) -/

/-- The 64-bit word of an instruction. -/
def instrWord (i : TInstr) : Nat :=
  i.cls.toNat * 2 ^ 60 + i.op.toNat * 2 ^ 52 + i.pen.toNat * 2 ^ 51 + i.psel.toNat * 2 ^ 48 + i.pneg.toNat * 2 ^ 47 + i.immb.toNat * 2 ^ 46 +
    i.rsv.toNat * 2 ^ 44 + i.payload.toNat

/-- The instruction of a 64-bit word. -/
def instrOf (w : Nat) : TInstr :=
  { cls := BitVec.ofNat 4 (bits 63 60 w), op := BitVec.ofNat 8 (bits 59 52 w), pen := bit 51 w, psel := BitVec.ofNat 3 (bits 50 48 w)
    pneg := bit 47 w, immb := bit 46 w, rsv := BitVec.ofNat 2 (bits 45 44 w), payload := BitVec.ofNat 44 (bits 43 0 w) }

/-- Whether a class and OP stand in R180, as one number. -/
def listedOp (key : Nat) : Bool :=
  let op := key % 256
  match key / 256 with
  | 0 =>
    let base := [0, 1, 8, 9, 0xA, 0xB, 0x10, 0x11, 0x12, 0x18, 0x19, 0x1A, 0x1B, 0x28, 0x29, 0x2A, 0x2B, 0x2C, 0x2D]
    base.contains op || [2, 3, 4, 0x20].contains op || (0x40 ≤ op && base.contains (op - 0x40))
  | 1 => op < 0x40 && op % 32 ≤ 0xD
  | 2 => op ≤ 0xD
  | 3 => true
  | 4 => op ≤ 3
  | 5 => [0, 1, 8, 9, 0xA, 0xB, 0x10, 0x11, 0x12, 0x18, 0x19, 0x1A, 0x1B, 0x20].contains op
  | 6 => op ≤ 3
  | 7 => [0, 1, 8, 9, 0xA].contains op
  | 8 => op ≤ 9 || (0x10 ≤ op && op ≤ 0x18) || (0x20 ≤ op && op ≤ 0x22)
  | 9 => op = 0
  | 0xA => op ≤ 4
  | 0xB => op ≤ 1
  | 0xC => op ≤ 2
  | 0xD => op ≤ 2
  | _ => false

/-! ### Fields (R177, R178) -/

/-- A field of the payload. -/
def pl (i : TInstr) (hi lo : Nat) : Nat := bits hi lo i.payload.toNat
/-- The class and OP as one number. -/
def opKey (i : TInstr) : Nat := i.cls.toNat * 256 + i.op.toNat
/-- DST, or DATA of form M. -/
def fDst (i : TInstr) : Nat := pl i 43 36
/-- SRCA, or ADDR of form M. -/
def fA (i : TInstr) : Nat := pl i 35 28
/-- SRCB. -/
def fB (i : TInstr) : Nat := pl i 27 20
/-- SRCC. -/
def fC (i : TInstr) : Nat := pl i 19 12
/-- RND. -/
def fRnd (i : TInstr) : Nat := pl i 11 8
/-- MOD. -/
def fMod (i : TInstr) : Nat := pl i 7 0
/-- IMM20, or OFS20 of form M. -/
def fImm (i : TInstr) : Int := sext 20 (pl i 27 8)
/-- IMM32. -/
def fImm32 (i : TInstr) : Nat := pl i 31 0
/-- TGT, or FAIL of form L. -/
def fTgt (i : TInstr) : Int := sext 20 (pl i 43 24)
/-- RCV. -/
def fRcv (i : TInstr) : Int := sext 20 (pl i 23 4)

/-- The width of a memory access in bytes, by MOD [2:0]; 0 for a reserved code. -/
def memWidth (i : TInstr) : Nat := if fMod i % 8 ≤ 4 then 2 ^ (fMod i % 8) else 0
/-- The cache policy of a memory access: MOD [4:3]. -/
def memPolicy (i : TInstr) : Nat := fMod i / 8 % 4
/-- The ordering of an access: MOD [7:5] (R189). -/
def memOrder (i : TInstr) : Nat := fMod i / 32
/-- Registers that hold an access of `w` bytes. -/
def widthRegs (w : Nat) : Nat := if w ≤ 4 then 1 else w / 4

/-! ### Registers and predicates (R170, R172) -/

/-- A register of a lane: X255 reads zero. -/
def Group.reg (x : Group) (ln r : Nat) : Nat := if r = 255 then 0 else Tbl.get 0 x.regs (256 * ln + r)
/-- `n` registers from `r` as one number, the low word first. -/
def Group.regN (x : Group) (ln r : Nat) : Nat → Nat
  | 0 => 0
  | n + 1 => x.reg ln r + 2 ^ 32 * x.regN ln (r + 1) n
/-- A register written: X255 discards it. -/
def Group.setReg (x : Group) (ln r v : Nat) : Group :=
  if r = 255 then x else { x with regs := Tbl.set x.regs (256 * ln + r) (v % 2 ^ 32) }
/-- `n` registers written from `r`, the low word first. -/
def Group.setRegN (x : Group) (ln r v : Nat) : Nat → Group
  | 0 => x
  | n + 1 => (x.setReg ln r v).setRegN ln (r + 1) (v / 2 ^ 32) n
/-- A predicate of a lane: P7 reads true. -/
def Group.pred (x : Group) (ln p : Nat) : Bool := p = 7 || (Tbl.get 0 x.preds ln).testBit p
/-- A predicate written: P7 discards it. -/
def Group.setPred (x : Group) (ln p : Nat) (b : Bool) : Group :=
  if p = 7 then x
  else { x with preds := Tbl.modify 0 x.preds ln fun m => if b then setBit m p else clrBit m p }
/-- Flags raised in a lane stay set (R183). -/
def Group.raise (x : Group) (ln fl : Nat) : Group :=
  if fl = 0 then x else { x with flags := Tbl.modify 0 x.flags ln fun m => m ||| fl }

/-- The active lanes in which an instruction's guard holds (R175, R177). -/
def Group.execLanes (x : Group) (i : TInstr) : List Nat :=
  (bitsOf 32 x.active).filter fun ln => !i.pen || x.pred ln i.psel.toNat != i.pneg

/-- What naming registers costs, each with the count that stands from it: 0, ILLEGAL-INSTR for a pair that is not even, or REG-RANGE (R170, R178,
R199). -/
def Group.regsCode (x : Group) (l : List (Nat × Nat)) : Nat :=
  if l.any fun r => 1 < r.2 && r.1 % 2 = 1 then 0x0501
  else if l.any fun r => (List.range r.2).any fun j => r.1 + j ≠ 255 && min x.nregs 256 ≤ r.1 + j then 0x0505
  else 0

/-- Whether data that have not returned are bound for one of the named registers (R173). -/
def Group.awaits (x : Group) (l : List (Nat × Nat)) : Bool :=
  x.loads.any fun o => l.any fun r => r.1 < o.dst + widthRegs o.width && o.dst < r.1 + r.2 && r.1 ≠ 255

/-! ### The forms of R180 -/

/-- What an instruction must be, and what it names. -/
structure OpForm where
  keys : List Nat                         -- class and OP of its rows; R180
  imm : Bool                              -- form I is admitted; R180
  modMask : Nat                           -- bits of MOD that are named; R178
  ok : Bool                               -- its other fields hold no reserved value; R178
  regs : List (Nat × Nat)                 -- registers named, with their counts; R170
  inLock : Bool                           -- may issue in a locked sequence; R195

/-- Whether an instruction's encoding is one of a form's (R177 to R180). -/
def OpForm.legal (f : OpForm) (i : TInstr) : Bool :=
  f.keys.contains (opKey i) && i.rsv.toNat = 0 && (f.imm || !i.immb) && f.ok && fMod i &&& (255 - f.modMask) = 0

/-- The width of B in form R of a row with a 64-bit form: 1 or 2 registers. -/
def wide (i : TInstr) : Bool := i.op.toNat / 64 = 1
/-- Registers of an operand of an INT row. -/
def intRegs (i : TInstr) : Nat := if wide i then 2 else 1
/-- Operand B: a register operand of `n` registers, or the immediate, sign-extended to their width. -/
def opB (x : Group) (i : TInstr) (ln n : Nat) : Nat := if i.immb then twos (32 * n) (fImm i) else x.regN ln (fB i) n
/-- The registers of operand B. -/
def bRegs (i : TInstr) (n : Nat) : List (Nat × Nat) := if i.immb then [] else [(fB i, n)]

/-- A three-register INT row of forms R and I; `w64` says that it has a 64-bit form. -/
def intForm (i : TInstr) (op : Nat) (w64 : Bool) : OpForm :=
  { keys := if w64 then [op, op + 0x40] else [op], imm := true, modMask := 0, ok := true
    regs := [(fDst i, intRegs i), (fA i, intRegs i)] ++ bRegs i (intRegs i), inLock := true }

/-- A row that writes predicate D from INT operands. -/
def setpForm (i : TInstr) (ops : List Nat) : OpForm :=
  { keys := ops ++ ops.map (· + 0x40), imm := true, modMask := 0, ok := fDst i < 8
    regs := (fA i, intRegs i) :: bRegs i (intRegs i), inLock := true }

/-- The format of a floating-point row by class and OP: binary64 10, binary16 5, binary32 6. -/
def fpFmt (i : TInstr) : Nat := if i.cls.toNat = 2 then 10 else if 0x20 ≤ i.op.toNat then 5 else 6
/-- Registers of a floating-point operand. -/
def fpRegs (i : TInstr) : Nat := if i.cls.toNat = 2 then 2 else 1
/-- A floating-point operand's pattern: binary16 stands in bits [15:0] (R179). -/
def fpArg (x : Group) (i : TInstr) (ln r : Nat) : Nat := x.regN ln r (fpRegs i) % 2 ^ fmtBits (fpFmt i)
/-- Operand number `j` of a floating-point row as MOD changes it: MOD [3] takes A's absolute value, and MOD [j] negates (R180). -/
def fpSrc (x : Group) (i : TInstr) (ln j r : Nat) : Nat :=
  let f := fpFmt i
  let v := fpArg x i ln r
  let v := if j = 0 && (fMod i).testBit 3 then fAbs f v else v
  if (fMod i).testBit j then fNeg f v else v
/-- The OP without its binary16 offset. -/
def fpOp (i : TInstr) : Nat := if i.cls.toNat = 1 then i.op.toNat % 32 else i.op.toNat
/-- The keys of a floating-point OP: FP32, binary16 and FP64. -/
def fpKeys (op : Nat) : List Nat := [0x100 + op, 0x120 + op, 0x200 + op]

/-- A floating-point row: the register fields it reads, and whether it writes predicate D. -/
def fpForm (i : TInstr) (ops : List Nat) (srcs : List Nat) (toPred : Bool) : OpForm :=
  { keys := ops.flatMap fpKeys, imm := false, modMask := 0xF, ok := fRnd i ≤ 5 && (!toPred || fDst i < 8)
    regs := (if toPred then [] else [(fDst i, fpRegs i)]) ++ srcs.map fun r => (r, fpRegs i), inLock := i.cls.toNat = 1 }

/-- The rounding attribute of an instruction: its own, or its group's (R183). -/
def rndFor (x : Group) (i : TInstr) : Rnd := rndOf (if fRnd i = 0 then x.rnd else fRnd i)

/-- A MOVE row of form R whose operands are registers of one word. -/
def moveForm (op : Nat) (imm : Bool) (modMask : Nat) (ok : Bool) (regs : List (Nat × Nat)) : OpForm :=
  { keys := [0x500 + op], imm := imm, modMask := modMask, ok := ok, regs := regs, inLock := true }

end Sys2Proof.Machine
end

