-- ==== Sys2Proof/Machine/Threads.lean ====
section
/-! DEFINITION. Thread groups: the placing of blocks (R169 to R172, R287, R288), the issue of an instruction and what follows it (R173 to R175,
R182, R196, R198), group faults (R199, R200), and single steps. An instruction issues only where it is the group's next one (log entry 11). -/

namespace Sys2Proof.Machine

/-! ### Blocks (R169 to R172) -/

/-- Registers that a group occupies in each lane (R170). -/
def allocRegs (n : Nat) : Nat := 8 * ((n + 7) / 8)
/-- The live block slots of a core. -/
def State.blocksOf (s : State) (k : Nat) : List Nat := (List.range 16).filter fun b => (s.block k b).live
/-- The free group numbers of a lane set, ascending (R168). -/
def State.freeGroups (s : State) (k ls : Nat) : List Nat :=
  (List.range 64).filter fun g => g % 4 = ls && !(s.group k g).live
/-- Registers of each lane that the groups of a lane set occupy (R170). -/
def State.usedRegs (s : State) (k ls : Nat) : Nat :=
  ((s.groupsOf k).filter fun g => g % 4 = ls).foldl (fun n g => n + (s.group k g).nregs) 0
/-- Groups of a block of `n` that lane set `ls` takes (R169). -/
def laneShare (n ls : Nat) : Nat := (n + 3 - ls) / 4

/-- Whether the next block of a core's shard can be placed (R169 to R171, R288). -/
def State.canPlace (s : State) (k : Nat) (h : Shard) : Bool :=
  let n := bits 287 281 h.recd
  let size := 4096 * bits 272 263 h.recd
  let bs := s.blocksOf k
  s.running k && !(s.seq k).loading && bits 447 392 h.recd ≠ 0 && h.nextBlock < bits 319 304 h.recd && bs.length < 16 &&
    bs.foldl (fun a b => a + (s.block k b).size) size ≤ 2 ^ 21 &&
    (List.range 4).all fun ls => laneShare n ls ≤ (s.freeGroups k ls).length &&
      s.usedRegs k ls + laneShare n ls * allocRegs (bits 280 273 h.recd) ≤ 2048

/-- BLOCK_PLACE (R169): the next block whole, its groups in the lowest free numbers of their lane sets, its registers and its store at zero. -/
def State.blockPlace (s : State) (k : Nat) : State :=
  match (s.core k).shard with
  | none => s
  | some h =>
    if !s.canPlace k h then s
    else
      let n := bits 287 281 h.recd
      let b := ((List.range 16).find? fun b => !(s.block k b).live).getD 0
      let num (j : Nat) : Nat := (s.freeGroups k (j % 4)).getD (j / 4) 0
      let pc : Nat := bits 447 392 h.recd
      let grp (j : Nat) : Group := { Group.reset with
        live := true, block := b, index := j, pc := (pc : Int), entry := pc, active := 2 ^ 32 - 1, nregs := allocRegs (bits 280 273 h.recd)
        last := (s.core k).issues }
      let t := (List.range n).foldl (fun (t : State) j => t.setGroup k (num j) (grp j)) s
      let arg := (bits 383 328 h.recd + 64 * bits 303 288 h.recd * h.nextBlock) % 2 ^ 56
      let blk : Block := { Block.reset with
        live := true, number := h.nextBlock, groups := (List.range n).map num, size := 4096 * bits 272 263 h.recd, arg := arg }
      let t := t.setBlock k b blk
      t.setCore k { t.core k with shard := some { h with nextBlock := h.nextBlock + 1 } }

/-- A group has ended, and with its last group its block (R182, R288): the block's resources are free, and copies that are not yet written are
dropped with its store; they stall on no fault any more (R260). -/
def State.groupEnd (s : State) (k g : Nat) : State :=
  let x := s.group k g
  let s := ((s.unlock k g).unwatch (.group k g)).peerForget fun q => q.engine = k && (q.source < 2 ^ 20 && q.source % 4096 = g || q.source = g + 2 ^ 21)
  let s := { s with groups := Tbl.erase s.groups (64 * k + g), vers := s.versWith k g Group.reset }
  let b := s.block k x.block
  if b.groups.any fun y => (s.group k y).live && (s.group k y).block = x.block then s
  else
    let c := s.core k
    let left := c.acps.filter fun a => a.block ≠ x.block
    let gone (n : Nat) : Bool := c.acps.any (fun a => a.group + 2 ^ 20 = n) && !left.any fun a => a.group + 2 ^ 20 = n
    let s := { s with blocks := Tbl.erase s.blocks (16 * k + x.block) }
    let s := s.setCore k { c with
      acps := left
      shard := c.shard.map fun (h : Shard) => { h with endedBlocks := h.endedBlocks + 1 } }
    (s.dropUnit fun a => a.engine = k && gone a.source).peerForget fun q => q.engine = k && gone q.source

/-! ### Group faults (R199, R200) -/

/-- A group fault: it is counted, copies in flight are discarded, and the shard ends with its code. -/
def State.groupFault (s : State) (k g code : Nat) : State := if s.running k then (s.bump 8 oGroupFaults 1).failGroup k g code else s

/-! ### The next instruction (R173, R176, R177) -/

/-- The virtual address of a group's next instruction. -/
def Group.fetchVa (x : Group) : Nat := twos 56 x.pc

/-- Where a group's next instruction lies, through the translation caches alone. -/
def State.fetchPlace (s : State) (k g : Nat) : Option (State × Target) :=
  ((s.core k).shard.bind fun h => s.ctxOf h.ctx).bind fun c => c.hw.bind fun hw => s.lookup k c.part hw (s.group k g).fetchVa

/-- A group's next instruction word, and whether it is uncorrectable, once the core has it: in the L1 instruction cache, or served without it. -/
def State.fetched (s : State) (k g : Nat) : Option (Nat × Bool) :=
  let x := s.group k g
  match x.ibuf.filter fun e => e.1 = x.fetchVa with
  | some e => some (e.2, false)
  | none =>
    match s.fetchPlace k g with
    | some (_, .mem pa true) =>
      (s.l1Find true k (pa / 128)).bind fun l =>
        if l.valid.testBit (pa / 32 % 4) then some (lane 64 (pa / 8 % 16) l.data, l.poison.testBit (pa / 32 % 4)) else none
    | _ => none

/-- A fetch from the L1 instruction cache makes its line and its translation the most recent (R205, R256). -/
def State.touchFetch (s : State) (k g : Nat) : State :=
  let x := s.group k g
  if x.ibuf.any fun e => e.1 = x.fetchVa then s
  else
    match s.fetchPlace k g with
    | some (t, .mem pa true) =>
      (match t.l1Find true k (pa / 128) with
        | some l => t.l1Update true k l true
        | none => t)
    | _ => s

/-! ### Issue (R173 to R175) -/

/-- Whether a group may issue its next instruction, as far as its core, its waits and its debugger allow (R173, R198). -/
def State.canIssue (s : State) (k g : Nat) : Bool :=
  let x := s.group k g
  s.running k && x.live && x.wait = Wait.none &&
    (s.thrHalt k = 0 || x.step || (s.thrHalt k = 1 && (x.lock.map fun l => l.held) = some true))

/-- Whether a group is the one of its lane set to issue (R173): of those that may, whose next instruction the core has and that were not found to
wait, the one that has gone longest without issuing, and of equals the lowest. -/
def State.hasTurn (s : State) (k g : Nat) : Bool :=
  (List.range 64).all fun j =>
    let x := s.group k j
    let before : Bool := x.last < (s.group k g).last || (x.last = (s.group k g).last && j < g)
    !(j % 4 = g % 4 && before && !x.tried && s.canIssue k j && (s.fetched k j).isSome)

/-- Whether an instruction is the one that a group may issue now. -/
def State.mayIssue (s : State) (k g : Nat) (i : TInstr) : Bool := s.canIssue k g && s.hasTurn k g && s.fetched k g = some (instrWord i, false)

/-- What became of an instruction: it could not issue yet, it fails its locked sequence or its shard, it faults, it has had its effect, or it has also
set the next instruction's address. -/
inductive Ran where
  | wait (s : State)
  | failed (s : State)
  | fault (s : State) (code : Nat)
  | done (s : State)
  | jumped (s : State)

/-- A group whose next instruction waits for its operands or its unit: others of its lane set go first until one of them has issued or its data have
come. -/
def State.notReady (s : State) (k g : Nat) : State :=
  if (s.group k g).live then s.setGroup k g { s.group k g with tried := true } else s

/-- Every group of a lane set is looked at anew after one of them has issued. -/
def State.retry (s : State) (k g : Nat) : State :=
  ((s.groupsOf k).filter fun j => j % 4 = g % 4 && (s.group k j).tried).foldl (fun s j => s.setGroup k j { s.group k j with tried := false }) s

/-- What follows an instruction that has issued: it is counted, the group's next instruction is at the following address unless it jumped, paths
rejoin, and a step is over unless a locked sequence has begun. A group without lanes ends. -/
def State.issued (s : State) (k g : Nat) (jumped : Bool) : State :=
  let s := ((s.bump 8 (oInstrIssued k) 1).count k 2 1 1).retry k g
  let n := (s.core k).issues + 1
  let s := s.setCore k { s.core k with issues := n }
  let x := s.group k g
  let x := (if jumped then x else { x with pc := x.pc + 8 }).reconverge 34
  let x := { x with
    step := x.step && x.lock.isSome, last := n, ibuf := none
    lock := x.lock.map fun l => if l.held then { l with count := l.count + 1 } else l }
  let s := s.setGroup k g x
  if x.active = 0 then s.groupEnd k g else s

/-- An instruction that comes up for issue outside the bounds of a locked sequence: its encoding and the registers it names are checked, and `f`
has its effect in the executing lanes. -/
def State.runOp (s : State) (k g : Nat) (i : TInstr) (fm : OpForm) (f : State → Group → List Nat → Ran) : State :=
  let x := s.group k g
  let c := if fm.legal i then x.regsCode fm.regs else 0x0501
  if c ≠ 0 then s.groupFault k g c
  else
    match f s x (x.execLanes i) with
    | .wait t => t.notReady k g
    | .failed t => t
    | .fault t c => t.groupFault k g c
    | .done t => t.issued k g false
    | .jumped t => t.issued k g true

/-- An instruction of a form put to a group: it must be the group's next one, and one that no row of R180 lists is put as any. An uncorrectable word
ends the shard (R223). One that is forbidden in a locked sequence, or the 65th in it, fails the sequence (R195, R196). -/
def State.threadOp (s : State) (k g : Nat) (i : TInstr) (fm : OpForm) (f : State → Group → List Nat → Ran) : State :=
  let x := s.group k g
  if !s.canIssue k g || !s.hasTurn k g then s
  else
    match s.fetched k g with
    | none => s
    | some (_, true) => s.groupFault k g 0x0506
    | some (w, false) =>
      if w ≠ instrWord i || (listedOp (opKey i) && !fm.keys.contains (opKey i)) then s
      else if x.awaits fm.regs then s.notReady k g
      else if (x.lock.map fun l => 64 ≤ l.count || !(fm.inLock && fm.keys.contains (opKey i))) = some true then s.lockFail k g
      else (s.touchFetch k g).runOp k g i fm f

/-- An instruction whose effect is on its own group, lane by lane. -/
def State.laneOp (s : State) (k g : Nat) (i : TInstr) (fm : OpForm) (f : Group → Nat → Group → Group) : State :=
  s.threadOp k g i fm fun s x ls => .done (s.setGroup k g (ls.foldl (fun (y : Group) ln => f x ln y) x))

/-! ### Single steps and fetches -/

/-- A write of THR_STEP (R198): the selected group of a halted core may issue one instruction, or one whole locked sequence. -/
def State.stepGroup (s : State) (k : Nat) : State :=
  let g := s.ctr (oGrpSel k)
  let x := s.group k g
  if s.thrHalt k ≠ 0 && x.live then s.setGroup k g { x with step := true } else s

/-- An instruction word served without the L1: the group issues it next, or its shard ends where the word is uncorrectable (R210, R223). -/
def State.fetchGot (s : State) (k g : Nat) (w : Nat) (bad : Bool) : State :=
  if bad then s.groupFault k g 0x0506 else s.setGroup k g { s.group k g with ibuf := some ((s.group k g).fetchVa, w) }

/-- The line of an instruction asked for, and with it the next line where that is not present and lies in the same 64 KiB page (R176). -/
def State.fetchLine (s : State) (k pa : Nat) : State :=
  let line := pa / 128
  let asks (s : State) (ln : Nat) : Bool :=
    s.lattice.any fun m => m.line = ln && ((m.src = k && m.kind = "RDSI") || (m.dst = k && m.kind = "FILL" && m.mask.testBit 9))
  let hit := match s.l1Find true k line with
    | some l => l.valid.testBit (pa / 32 % 4)
    | none => false
  if hit || asks s line then s
  else
    let s := (s.post "RDSI" k (homeNode line) line 15 0).count k 5 1 1
    let nx := line + 1
    if nx / 512 ≠ line / 512 || (s.l1Find true k nx).isSome || asks s nx then s
    else ((s.post "RDSI" k (homeNode nx) nx 15 0).bump 8 (oIprefetches k) 1).count k 5 1 1

/-- IFETCH_MISS (R176): the next instruction of a group that the core has not is asked for: its line, or the word alone at its home where the page is
uncacheable or the cache allocates nothing (R210, R224), or at a peer (R255). -/
def State.ifetchMiss (s : State) (k g : Nat) : State :=
  let x := s.group k g
  match (s.core k).shard with
  | none => s
  | some h =>
    if !s.running k || !x.live || (s.fetched k g).isSome then s
    else
      let a : Access := { ctx := h.ctx, tag := h.tag, engine := k, source := g, kind := 3, va := x.fetchVa, rep := 0, since := none }
      match s.translate a with
      | (t, none) => t
      | (t, some (.mem pa cache)) =>
        if cache && t.l1On true k then t.fetchLine k pa
        else if t.rangeBusy pa 8 then t
        else
          (match t.letIn (.core k) pa 8 false with
            | (t, false) => t
            | (t, true) => let r := (t.admitDone (.core k) pa 8).agentRead (.core k) pa 8; r.1.fetchGot k g r.2.1 r.2.2)
      | (t, some (.peer v pa)) =>
        match t.peerAsk { a with source := g + 2 ^ 21 } v 2 pa 0 8 [] h.ring h.aseq with
        | (t, .data w bad) => (t.peerForget fun q => q.engine = k && q.source = g + 2 ^ 21).fetchGot k g w bad
        | (t, .fail c) => t.failGroup k g c
        | (t, .wait) => t

/-- BLOCK_PLACE (R169). -/
def execBlockPlace (k : Nat) (s : State) : Res := onUnit s (isCore k) (s.blockPlace k)
/-- IFETCH_MISS (R176). -/
def execIfetchMiss (k g : Nat) (s : State) : Res := onUnit s (isCore k && isGroup g) (s.ifetchMiss k g)

end Sys2Proof.Machine
end

