-- ==== Sys2Proof/Machine/Branches.lean ====
section
/-! DEFINITION. The instructions of class BRANCH (R182), and the arrival counters of a block (R186). -/

namespace Sys2Proof.Machine

/-! ### Branches -/

/-- A BRANCH row: the bits of form B that a row does not use are ignored, its reserved bits are 0. -/
def branchForm (i : TInstr) (op : Nat) : OpForm :=
  { keys := [0xA00 + op], imm := false, modMask := 0xFF, ok := pl i 3 0 = 0, regs := [], inLock := true }

/-- A branch put to a group: `f` takes the group and the active lanes whose condition holds, as a mask, and answers a fault's code, or the group
and whether it jumped. A divergent BRC is counted (R411). -/
def State.branchOp (s : State) (k g : Nat) (i : TInstr) (op : Nat) (f : Group → Nat → Except Nat (Group × Bool)) : State :=
  s.threadOp k g i (branchForm i op) fun s x ls =>
    match f x (maskOf ls) with
    | .error c => .fault s c
    | .ok (y, true) => .jumped (s.setGroup k g y)
    | .ok (y, false) =>
      let s := if op = 1 && x.stack.length < y.stack.length then s.count k 2 3 1 else s
      .done (s.setGroup k g y)

/-- The address `n` instructions away. -/
def Group.target (x : Group) (n : Int) : Int := x.pc + 8 * n

/-- BRA: a jump of the whole group, whose condition must be uniform. -/
def braTo (i : TInstr) (x : Group) (t : Nat) : Except Nat (Group × Bool) :=
  if t = 0 then .ok (x, false)
  else if t = x.active then .ok ({ x with pc := x.target (fTgt i) }, true)
  else .error 0x0501

/-- BRC: where lanes part, the rejoining point and the taken path are pushed and the fall-through path runs first. -/
def brcTo (i : TInstr) (x : Group) (t : Nat) : Except Nat (Group × Bool) :=
  if t = 0 then .ok (x, false)
  else if t = x.active then .ok ({ x with pc := x.target (fTgt i) }, true)
  else if 32 < x.stack.length + 2 then .error 0x0504
  else
    let join : SEnt := { pc := x.target (fRcv i), mask := x.active, kind := 0 }
    let path : SEnt := { pc := x.target (fTgt i), mask := t, kind := 1 }
    .ok ({ x with stack := path :: join :: x.stack, active := x.active - (x.active &&& t) }, false)

/-- CALL: the return point is pushed as a uniform entry. -/
def callTo (i : TInstr) (x : Group) (t : Nat) : Except Nat (Group × Bool) :=
  if t = 0 then .ok (x, false)
  else if t ≠ x.active then .error 0x0501
  else if 32 ≤ x.stack.length then .error 0x0504
  else .ok ({ x with stack := { pc := x.pc + 8, mask := x.active, kind := 2 } :: x.stack, pc := x.target (fTgt i) }, true)

/-- RET: the return point on top of the stack is popped. -/
def retTo (x : Group) (t : Nat) : Except Nat (Group × Bool) :=
  if t = 0 then .ok (x, false)
  else if t ≠ x.active then .error 0x0501
  else
    match x.stack with
    | e :: r => if e.kind = 2 then .ok ({ x with pc := e.pc, stack := r }, true) else .error 0x0501
    | [] => .error 0x0501

/-- EXIT: the executing lanes leave the active mask and every mask on the stack. -/
def exitLanes (x : Group) (t : Nat) : Group :=
  { x with
    active := x.active - (x.active &&& t)
    stack := x.stack.map fun (e : SEnt) => { e with mask := e.mask - (e.mask &&& t) } }

/-! ### Arrival counters (R186) -/

/-- Whether a wait for an arrival counter is over. -/
def arrived (c v : Nat) : Bool := (c + 2 ^ 32 - v % 2 ^ 32) % 2 ^ 32 < 2 ^ 31

/-- An arrival counter of a block changed, and the groups of the block that wait for its value go on. -/
def State.setArrive (s : State) (k b c v : Nat) : State :=
  let blk := s.block k b
  let v := v % 2 ^ 32
  let s := s.setBlock k b { blk with arrive := Tbl.set blk.arrive c v }
  blk.groups.foldl (fun (s : State) g =>
    let x := s.group k g
    match x.wait with
    | .arr c' w => if x.block = b && c' = c && arrived v w then s.setGroup k g { x with wait := .none } else s
    | _ => s) s

/-- An arrival-counter row: it acts once, with its immediate or B of the first executing lane. -/
def State.arrOp (s : State) (k g : Nat) (i : TInstr) (op : Nat) (f : State → Group → Nat → Nat → State) : State :=
  s.threadOp k g i { keys := [0x700 + op], imm := true, modMask := 0xF, ok := true, regs := bRegs i 1, inLock := false } fun s x ls =>
    match ls with
    | [] => .done s
    | ln :: _ => .done (f s x (fMod i % 16) (opB x i ln 1))

/-- ARRWAIT: the group waits until its value is reached. -/
def State.arrWait (s : State) (k g : Nat) (x : Group) (c v : Nat) : State :=
  if arrived (Tbl.get 0 (s.block k x.block).arrive c) v then s else s.setGroup k g { x with wait := .arr c v }

/-! ### Meanings -/

/-- BRA (R182). -/
def execBra (k g : Nat) (i : TInstr) (s : State) : Res := onUnit s (isCore k && isGroup g) (s.branchOp k g i 0 (braTo i))
/-- BRC (R182). -/
def execBrc (k g : Nat) (i : TInstr) (s : State) : Res := onUnit s (isCore k && isGroup g) (s.branchOp k g i 1 (brcTo i))
/-- CALL (R182). -/
def execCall (k g : Nat) (i : TInstr) (s : State) : Res := onUnit s (isCore k && isGroup g) (s.branchOp k g i 2 (callTo i))
/-- RET (R182). -/
def execRet (k g : Nat) (i : TInstr) (s : State) : Res := onUnit s (isCore k && isGroup g) (s.branchOp k g i 3 retTo)
/-- EXIT (R182): a group's last lanes leave once what it has loaded has come. -/
def execExit (k g : Nat) (i : TInstr) (s : State) : Res :=
  onUnit s (isCore k && isGroup g) (s.threadOp k g i (branchForm i 4) fun s x ls =>
    let y := exitLanes x (maskOf ls)
    if y.active = 0 && (y.stack.all fun e => e.mask = 0) && !x.loads.isEmpty then .wait s else .done (s.setGroup k g y))
/-- ARRADD (R186). -/
def execArradd (k g : Nat) (i : TInstr) (s : State) : Res :=
  onUnit s (isCore k && isGroup g) (s.arrOp k g i 8 fun s x c v => s.setArrive k x.block c (Tbl.get 0 (s.block k x.block).arrive c + v))
/-- ARRSET (R186). -/
def execArrset (k g : Nat) (i : TInstr) (s : State) : Res :=
  onUnit s (isCore k && isGroup g) (s.arrOp k g i 9 fun s x c v => s.setArrive k x.block c v)
/-- ARRWAIT (R186). -/
def execArrwait (k g : Nat) (i : TInstr) (s : State) : Res :=
  onUnit s (isCore k && isGroup g) (s.arrOp k g i 10 fun s x c v => s.arrWait k g x c v)

end Sys2Proof.Machine
end

