-- ==== Sys2Proof/Machine/MemInstr.lean ====
section
/-! DEFINITION. The instructions of classes MEM, ASYNC, ATOM and FENCE (R178, R184 to R193), with a core's accesses through its L1 data cache
(R206, R207, R210, R216) and the memory model's order (R188 to R190). -/

namespace Sys2Proof.Machine

/-! ### Addresses -/

/-- The address of a lane: the pair that ADDR names, plus an offset; none where bits [63:56] are not zero or it is not aligned (R178, R199). -/
def Group.addr (x : Group) (ln r : Nat) (ofs : Int) (align : Nat) : Option Nat :=
  let p := x.regN ln r 2
  let a := twos 64 ((p : Int) + ofs)
  if p < 2 ^ 56 && a < 2 ^ 56 && a % align = 0 then some a else none

/-- An offset of a block's store, of a single register; `none` is a fault with its code (R184, R199). -/
def blockOff (v : Nat) (ofs : Int) (align n size : Nat) : Except Nat Nat :=
  let o := (v : Int) + ofs
  if o % (align : Nat) ≠ 0 then .error 0x0502
  else if o < 0 || (size : Int) < o + n then .error 0x0503
  else .ok o.toNat

/-- A group's access (R261). -/
def groupAccess (h : Shard) (k g kind va : Nat) : Access :=
  { ctx := h.ctx, tag := h.tag, engine := k, source := g, kind := kind, va := va, rep := 0, since := none }

/-- A group's accesses of some lanes translated: none while one awaits its translation. -/
def State.laneTargets (s : State) (h : Shard) (k g kind : Nat) : List (Nat × Nat) → State × Option (List (Nat × Nat × Target))
  | [] => (s, some [])
  | p :: r =>
    match s.translate (groupAccess h k g kind p.2) with
    | (t, none) =>
      let u := t.laneTargets h k g kind r
      (u.1, none)
    | (t, some x) =>
      match t.laneTargets h k g kind r with
      | (u, none) => (u, none)
      | (u, some l) => (u, some ((p.1, p.2, x) :: l))

/-- Addresses of some lanes, or none where one faults. -/
def laneAddrs (ls : List Nat) (f : Nat → Option Nat) : Option (List (Nat × Nat)) :=
  ls.foldr (fun ln (a : Option (List (Nat × Nat))) =>
    match f ln, a with
    | some v, some l => some ((ln, v) :: l)
    | _, _ => none) (some [])

/-! ### Order (R188 to R190) -/

/-- Whether two addresses may lie in one line: their places in a 64 KiB page agree, whatever maps them. -/
def sameLine (a b : Nat) : Bool := a / 128 % 512 = b / 128 % 512

/-- Whether an address meets a load, atomic or copy of the group that has not been performed. -/
def State.clash (s : State) (k g va : Nat) : Bool :=
  ((s.group k g).loads.any fun o => o.lanes.any fun l => sameLine l.2 va) ||
    (s.core k).acps.any fun a => a.group = g && a.src / 128 ≤ va / 128 && va / 128 ≤ (a.src + a.len) / 128

/-- Whether an atomic or a write at the home by core `k` is on its way to a line. -/
def State.homeWrites (s : State) (k line : Nat) : Bool :=
  s.lattice.any fun m => m.src = k && m.line = line && m.changes

/-- Whether an access of core `k` to a line must wait: a write of its own to it has not been performed, or the line lies in its write-back buffer
(R220 case 6). -/
def State.coreWrites (s : State) (k line : Nat) : Bool :=
  (s.core k).stores.any (fun x => x.1 / 128 = line) || s.homeWrites k line || (s.core k).wbb.any fun w => w.1 = line

/-- Whether an earlier acquire of a group is not over: later accesses wait for it (R189). -/
def State.acquiring (s : State) (k g : Nat) : Bool :=
  (s.group k g).loads.any (fun o => o.order ≠ 0) ||
    s.lattice.any fun m => m.src = k && m.atom.any fun (a : AtomMsg) => a.acq && a.group = g

/-- Whether the group's earlier accesses are performed as far as a fence of a scope asks (R189, R190). -/
def State.fenced (s : State) (k g scope : Nat) : Bool :=
  let back := (s.group k g).loads.isEmpty
  let acked := match (s.core k).shard with
    | some h => (s.ring h.ring).accepted.all fun c => c.aseq ≠ h.aseq || c.arcWait = 0
    | none => true
  scope = 0 || (back && (scope < 3 || !s.storesOut k) && (scope < 4 || acked))

/-- The outstanding memory requests of a core's groups (R6, R201). -/
def State.outstanding (s : State) (k : Nat) : Nat :=
  (s.groupsOf k).foldl (fun n g => (s.group k g).loads.foldl (fun n o => n + o.lanes.length) n) (s.core k).stores.length +
    (s.lattice.filter fun m => m.src = k && m.changes && !m.atom.any fun (a : AtomMsg) => a.ret).length

/-- Whether a core can track `n` more requests: it has room for 4,096 (R6). -/
def State.tracks (s : State) (k n : Nat) : Bool := s.outstanding k + n ≤ 4096

/-- The peak of the outstanding requests of a core (R201). -/
def State.trackPeak (s : State) (k : Nat) : State := s.peak 2 (oTrackerPeak k) (min (s.outstanding k) 4096)

/-! ### The L1 data cache (R206, R207, R216) -/

/-- The line after a demand miss asked for (R207): not where it is present, on its way or in another 64 KiB page, nor where its victim could not leave. -/
def State.prefetchData (s : State) (k line : Nat) : State :=
  let nx := line + 1
  if nx / 512 ≠ line / 512 || (s.l1Find false k nx).isSome || (s.core k).wbb.any (fun w => w.1 = nx) || s.asked k nx then s
  else
    match s.makeRoom k nx with
    | none => s
    | some s => ((s.post "RDS" k (homeNode nx) nx 15 0).bump 8 (oDprefetches k) 1).count k 5 1 1

/-- A demand miss of a line, or of sectors of one that is present: counted, and the next line prefetched (R207, R227). -/
def State.missData (s : State) (k line policy : Nat) : State :=
  let whole := (s.l1Find false k line).isNone
  let s := (s.bump 8 (oL1dMisses k) 1).count k 3 (if whole then 1 else 2) 1
  let s := if policy = 1 && whole then s.setCore k { s.core k with streaming := (s.core k).streaming ++ [line] } else s
  s.prefetchData k line

/-- Sectors of a line that loads need and an L1 lacks asked for; a line in the core's own write-back buffer is not asked for (R216, R220 case 6). -/
def State.askLoad (s : State) (k line mask policy : Nat) : State :=
  let lack := match s.l1Find false k line with
    | some l => mask - (mask &&& l.valid)
    | none => mask
  if lack = 0 || (s.core k).wbb.any (fun w => w.1 = line) || s.asked k line then s
  else
    match s.makeRoom k line with
    | none => s
    | some s => ((s.post "RDS" k (homeNode line) line lack 0).count k 5 1 1).missData k line policy

/-- The lines of some cacheable targets, each with the sectors that are touched. -/
def linesOf (l : List (Nat × Nat × Target)) : List (Nat × Nat) :=
  l.foldl (fun (a : List (Nat × Nat)) p =>
    match p.2.2 with
    | .mem pa true =>
      if a.any fun e => e.1 = pa / 128 then a.map fun (e : Nat × Nat) => if e.1 = pa / 128 then (e.1, setBit e.2 (pa / 32 % 4)) else e
      else a ++ [(pa / 128, 2 ^ (pa / 32 % 4))]
    | _ => a) []

/-- Requests to peers by some lanes: the messages, and the code that the shard ends with where an arc will not carry them, or none while one is full
(R366, R367). -/
def State.peersReady (s : State) (h : Nat) (l : List (Nat × Nat × Target)) : Option Got :=
  s.peersTake h (l.map fun p => (p.2.1, p.2.2, 0))

/-! ### LD (R188, R189, R195) -/

/-- A MEM row; `n` registers hold the address. -/
def memForm (i : TInstr) (op n : Nat) (inLock : Bool) : OpForm :=
  { keys := [0x600 + op], imm := false, modMask := 0xFF, ok := memWidth i ≠ 0 && memPolicy i ≠ 3 && memOrder i ≤ 4
    regs := [(fDst i, widthRegs (memWidth i)), (fA i, n)], inLock := inLock }

/-- An operation of a locked sequence at its home, with the bytes that it moves (R195, R196, R239, R326). -/
def State.lockMove (s : State) (k pa n : Nat) (write : Bool) : State :=
  let h := homeDie pa
  let d := k / 12
  let s := ((s.bump 8 oHomeRequests 1).accountAt (.core k) pa n).edge (if write then d else h) (if write then h else d) n
  s.charge (.core k) pa (if write then d else h) (if write then h else d) n

/-- A line of a group's locked sequence as it sees it: the home's bytes merged with its own buffered stores (R195). -/
def State.lockRead (s : State) (k pa n : Nat) (l : LockSt) : State × Nat × Bool :=
  let p := s.corePart k
  let q := (s.lockMove k pa n false).dcSector p pa
  let home := q.2.1 / 2 ^ (8 * (pa % 128))
  let v := (List.range n).foldl (fun v j =>
    match l.buf.find? fun e => e.1 = pa % 512 + j with
    | some e => putLane 8 j v e.2.toNat
    | none => v) (home % 2 ^ (8 * n))
  (q.1, v, q.2.2.testBit (pa / 32 % 4))

/-- Whether every target lies in a locked line. -/
def inLine (l : LockSt) (ts : List (Nat × Nat × Target)) : Bool :=
  ts.all fun p => match p.2.2 with
    | .mem pa _ => pa / 512 = l.line
    | .peer _ _ => false

/-- LD issued: its misses and its requests to peers go out, and its data are awaited. In a locked sequence its values are taken at once. -/
def State.issueLoad (s : State) (k g : Nat) (i : TInstr) (x : Group) (ls : List Nat) : Ran :=
  let w := memWidth i
  match (s.core k).shard, laneAddrs ls fun ln => x.addr ln (fA i) (fImm i) w with
  | none, _ => .wait s
  | _, none => .fault s 0x0502
  | some h, some as_ =>
    if s.acquiring k g || !s.tracks k as_.length then .wait s
    else
      match s.laneTargets h k g 0 as_ with
      | (t, none) => .wait t
      | (t, some ts) =>
        let op : LoadOp := { dst := fDst i, width := w, lanes := as_, policy := memPolicy i, order := memOrder i, vals := none }
        let keep (t : State) (o : LoadOp) : State :=
          if ls.isEmpty then t else (t.setGroup k g { t.group k g with loads := (t.group k g).loads ++ [o] }).trackPeak k
        match x.lock with
        | some l =>
          if !inLine l ts then .failed (t.lockFail k g)
          else
            let z := ts.foldl (fun (a : State × List (Nat × Nat)) p =>
              match p.2.2 with
              | .mem pa _ =>
                let r := a.1.lockRead k pa w l
                (r.1, a.2 ++ [(p.1, r.2.1 + if r.2.2 then 2 ^ 128 else 0)])
              | .peer _ _ => a) (t, [])
            .done (keep z.1 { op with vals := some z.2 })
        | none =>
          match t.peersReady h.ctx ts with
          | some (.fail c) => .failed (t.failGroup k g c)
          | some _ => .wait t
          | none =>
            let t := ts.foldl (fun (t : State) p =>
              match p.2.2 with
              | .peer v a => (t.peerAsk (groupAccess h k g 0 p.2.1) v 2 a 0 w [] h.ring h.aseq).1
              | .mem _ _ => t) t
            let t := if memPolicy i = 2 || !t.l1On false k then t
              else (linesOf ts).foldl (fun (t : State) e => t.askLoad k e.1 e.2 (memPolicy i)) t
            .done (keep t op)

/-- One lane's data: from a peer's answer, from the core's L1, or from the home; none while they have not come. A poisoned value is marked by 2^128. -/
def State.laneData (s : State) (h : Shard) (k g : Nat) (o : LoadOp) (va : Nat) (tg : Target) : State × Option Nat :=
  let w := o.width
  match tg with
  | .peer v a =>
    (match s.peerAsk (groupAccess h k g 0 va) v 2 a 0 w [] h.ring h.aseq with
      | (t, .data d b) => (t, some (d % 2 ^ (8 * w) + if b then 2 ^ 128 else 0))
      | (t, _) => (t, none))
  | .mem pa cache =>
    let line := pa / 128
    let home (s : State) : State × Option Nat :=
      if s.rangeBusy pa w then (s, none)
      else
        match s.letIn (.core k) pa w false with
        | (t, false) => (t, none)
        | (t, true) =>
          let r := (t.admitDone (.core k) pa w).agentRead (.core k) pa w
          (r.1, some (r.2.1 + if r.2.2 then 2 ^ 128 else 0))
    if s.coreWrites k line then (s, none)
    else if !cache || o.policy = 2 then home s
    else
      match s.l1Find false k line with
      | some l =>
        if l.valid.testBit (pa / 32 % 4) then
          (if o.policy = 1 then s else s.l1Update false k l true,
            some (l.data / 2 ^ (8 * (pa % 128)) % 2 ^ (8 * w) + if l.poison.testBit (pa / 32 % 4) then 2 ^ 128 else 0))
        else if s.l1On false k then (s.askLoad k line (2 ^ (pa / 32 % 4)) o.policy, none)
        else home s
      | none => if s.l1On false k then (s.askLoad k line (2 ^ (pa / 32 % 4)) o.policy, none) else home s

/-- The data of all lanes of a load. -/
def State.lanesData (s : State) (h : Shard) (k g : Nat) (o : LoadOp) : List (Nat × Nat × Target) → State × Option (List (Nat × Nat))
  | [] => (s, some [])
  | p :: r =>
    match s.laneData h k g o p.2.1 p.2.2 with
    | (t, none) => ((t.lanesData h k g o r).1, none)
    | (t, some v) =>
      match t.lanesData h k g o r with
      | (u, some l) => (u, some ((p.1, v) :: l))
      | (u, none) => (u, none)

/-- The data of a load or atomic put into its registers, or MEM-DATA where a value was uncorrectable (R199). A load of fewer than 32 bits leaves the
bits above open. -/
def State.deliverLoad (s : State) (k g j : Nat) (o : LoadOp) (vs : List (Nat × Nat)) : State :=
  let x := s.group k g
  let x := { x with loads := x.loads.eraseIdx j, tried := false }
  if vs.any fun v => 2 ^ 128 ≤ v.2 then (s.setGroup k g x).groupFault k g 0x0506
  else
    let pad (ln : Nat) : Nat := if 4 ≤ o.width then 0 else (Config.freeNat 9 (32 * s.free + ln)).toNat * 2 ^ (8 * o.width)
    let x := vs.foldl (fun (x : Group) v => x.setRegN v.1 o.dst (v.2 % 2 ^ (8 * o.width) + pad v.1) (widthRegs o.width)) x
    let s := (s.setGroup k g x).peerForget fun q => q.engine = k && q.source = g && o.lanes.any fun l => l.2 = q.va
    if 4 ≤ o.width then s else s.drew

/-- A load of a group whose data may have come: the values, with what asking for them did. -/
def State.tryLoad (s : State) (h : Shard) (k g : Nat) (o : LoadOp) : State × Option (List (Nat × Nat)) :=
  match o.vals with
  | some vs => (s, if vs.length = o.lanes.length then some vs else none)
  | none =>
    match s.laneTargets h k g 0 o.lanes with
    | (t, none) => (t, none)
    | (t, some ts) => t.lanesData h k g o ts

/-- The loads of a group tried in order from number `j`: the first whose data have come, and which meets no earlier one's line, is delivered. -/
def State.tryLoads (s : State) (h : Shard) (k g j : Nat) (before : List LoadOp) : List LoadOp → State
  | [] => s
  | o :: r =>
    let held := o.vals.isSome && o.policy = atomPolicy || before.any fun b => b.lanes.any fun l => o.lanes.any fun m => sameLine l.2 m.2
    match (if held then (s, none) else s.tryLoad h k g o) with
    | (t, some vs) => t.deliverLoad k g j o vs
    | (t, none) => t.tryLoads h k g (j + 1) (before ++ [o]) r
where
  /-- An atomic is answered by ATMDAT. -/
  atomPolicy : Nat := 3

/-- LD_DATA_RETURN (R173, R179). -/
def State.loadReturn (s : State) (k g : Nat) : State :=
  match (s.core k).shard with
  | none => s
  | some h => if s.running k && (s.group k g).live then s.tryLoads h k g 0 [] (s.group k g).loads else s

/-! ### ST (R188, R189, R195, R206, R218) -/

/-- One lane's store to memory: pending in the core for a line that it will hold unique, or written at the home. -/
def State.laneStore (s : State) (k : Nat) (owned : Bool) (pa w v : Nat) : State :=
  if owned then s.setCore k { s.core k with stores := (s.core k).stores ++ [(pa, w, v)] }
  else (s.post "IWR" k (homeNode (pa / 128)) (pa / 128) (pa % 128 + 128 * w) v).count k 5 1 1

/-- Stores of some lines, each with the sectors that they touch, performed where the core holds them unique, the others asked for (R211, R216). One
that finds a line or a touched sector missing is a miss (R204, R207). -/
def State.settleStores (s : State) (k policy : Nat) (lines : List (Nat × Nat)) : State :=
  lines.foldl (fun (s : State) e =>
    let miss := !s.asked k e.1 && !(s.l1Find false k e.1).any fun l => l.valid &&& e.2 = e.2
    let t := (s.doStores k e.1).askStores k e.1
    if miss then t.missData k e.1 policy else t) s

/-- ST issued: every lane's store has gone where it belongs, in ascending lane order. -/
def State.issueStore (s : State) (k g : Nat) (i : TInstr) (x : Group) (ls : List Nat) : Ran :=
  let w := memWidth i
  let val (ln : Nat) : Nat := x.regN ln (fDst i) (widthRegs w) % 2 ^ (8 * w)
  match (s.core k).shard, laneAddrs ls fun ln => x.addr ln (fA i) (fImm i) w with
  | none, _ => .wait s
  | _, none => .fault s 0x0502
  | some h, some as_ =>
    if s.acquiring k g || (!ls.isEmpty && !s.fenced k g (memOrder i)) || as_.any (fun a => s.clash k g a.2) || !s.tracks k as_.length then .wait s
    else
      match s.laneTargets h k g 1 as_ with
      | (t, none) => .wait t
      | (t, some ts) =>
        match x.lock with
        | some l =>
          if !inLine l ts then .failed (t.lockFail k g)
          else
            let buf := ts.foldl (fun (b : Tbl Byte) p =>
              match p.2.2 with
              | .mem pa _ => ((leBytes w (val p.1)).zipIdx).foldl (fun (b : Tbl Byte) y => Tbl.set b (pa % 512 + y.2) y.1) b
              | .peer _ _ => b) l.buf
            .done (t.setGroup k g { t.group k g with lock := some { l with buf := buf } })
        | none =>
          let owned (cache : Bool) : Bool := cache && memPolicy i ≠ 2 && t.l1On false k
          let busy := ts.any fun p => match p.2.2 with
            | .mem pa c => if owned c then t.homeWrites k (pa / 128) else t.coreWrites k (pa / 128)
            | .peer _ _ => false
          match (if busy then some Got.wait else t.peersReady h.ctx ts) with
          | some (.fail c) => .failed (t.failGroup k g c)
          | some _ => .wait t
          | none =>
            let t := ts.foldl (fun (t : State) p =>
              match p.2.2 with
              | .mem pa c => t.laneStore k (owned c) pa w (val p.1)
              | .peer v a =>
                match t.peerArc h.ctx v with
                | .ok slot => (t.arcSend slot 0 1 a 0 0 (leBytes w (val p.1)) none h.ring h.aseq).getD t
                | .error _ => t) t
            let t := t.trackPeak k
            .done (if owned true then t.settleStores k (memPolicy i) (linesOf ts) else t)

/-! ### LDB and STB (R184) -/

/-- The offsets of some lanes, or the first fault. -/
def laneOffs (ls : List Nat) (f : Nat → Except Nat Nat) : Except Nat (List (Nat × Nat)) :=
  ls.foldr (fun ln (a : Except Nat (List (Nat × Nat))) =>
    match f ln, a with
    | .ok v, .ok l => .ok ((ln, v) :: l)
    | .error c, _ => .error c
    | _, .error c => .error c) (.ok [])

/-- A block-store row: `f` takes the block and its lanes' offsets. -/
def State.blockOp (s : State) (k g : Nat) (i : TInstr) (op : Nat) (f : State → Group → Block → List (Nat × Nat) → State) : State :=
  s.threadOp k g i (memForm i op 1 false) fun s x ls =>
    let b := s.block k x.block
    match laneOffs ls fun ln => blockOff (x.reg ln (fA i)) (fImm i) (memWidth i) (memWidth i) b.size with
    | .error c => .fault s c
    | .ok os =>
      if s.acquiring k g || (op = 3 && !ls.isEmpty && !s.fenced k g (memOrder i)) then .wait s else .done (f s x b os)

/-- LDB: the bits above a load of fewer than 32 bits are open. -/
def State.blockLoad (s : State) (k g : Nat) (i : TInstr) (x : Group) (b : Block) (os : List (Nat × Nat)) : State :=
  let w := memWidth i
  let pad (ln : Nat) : Nat := if 4 ≤ w then 0 else (Config.freeNat 9 (32 * s.free + ln)).toNat * 2 ^ (8 * w)
  let y := os.foldl (fun (y : Group) p => y.setRegN p.1 (fDst i) (Memory.num b.store p.2 w + pad p.1) (widthRegs w)) x
  (if 4 ≤ w then s else s.drew).setGroup k g y

/-- STB, in ascending lane order. -/
def State.blockStore (s : State) (k : Nat) (i : TInstr) (x : Group) (b : Block) (os : List (Nat × Nat)) : State :=
  let w := memWidth i
  let m := os.foldl (fun (m : List Host.Cell) p => Memory.putNum m p.2 w (x.regN p.1 (fDst i) (widthRegs w) % 2 ^ (8 * w))) b.store
  s.setBlock k x.block { b with store := m }

/-! ### ACP (R185, R187) -/

/-- Copies put in flight; the group goes on at once. -/
def State.addCopies (s : State) (k : Nat) (l : List Acp) : State :=
  let c := s.core k
  s.setCore k { c with acps := c.acps ++ l }

/-- ACP.LANE. -/
def State.acpLane (s : State) (k g : Nat) (i : TInstr) : State :=
  let w := 4 * 2 ^ (fMod i / 16 % 4)
  s.threadOp k g i { keys := [0x700], imm := false, modMask := 0x3F, ok := fMod i / 16 % 4 ≠ 3, regs := [(fA i, 2), (fB i, 1)], inLock := false }
    fun s x ls =>
      let b := s.block k x.block
      match laneAddrs ls fun ln => x.addr ln (fA i) 0 w, laneOffs ls fun ln => blockOff (x.reg ln (fB i)) 0 w w b.size with
      | none, _ => .fault s 0x0502
      | _, .error c => .fault s c
      | some as_, .ok os =>
        if s.acquiring k g then .wait s
        else .done (s.addCopies k ((as_.zip os).map fun p =>
          { group := g, block := x.block, src := p.1.2, off := p.2.2, len := w, counter := fMod i % 16 }))

/-- ACP.BULK. -/
def State.acpBulk (s : State) (k g : Nat) (i : TInstr) : State :=
  s.threadOp k g i { keys := [0x701], imm := false, modMask := 0xF, ok := true, regs := [(fA i, 2), (fB i, 1), (fC i, 1)], inLock := false }
    fun s x ls =>
      match ls with
      | [] => .done s
      | ln :: _ =>
        let n := x.reg ln (fC i)
        match x.addr ln (fA i) 0 32, blockOff (x.reg ln (fB i)) 0 32 n (s.block k x.block).size with
        | none, _ => .fault s 0x0502
        | some a, o =>
          if n % 32 ≠ 0 || n = 0 || 65536 < n then .fault s 0x0502
          else
            match o with
            | .error c => .fault s c
            | .ok o =>
              if s.acquiring k g then .wait s
              else .done (s.addCopies k [{ group := g, block := x.block, src := a, off := o, len := n, counter := fMod i % 16 }])

/-- Part of a copy read (R185): from the core's L1 where it hits, else from the home without allocating, or from a peer; at most to the end of an L1
line. None while it has not come. -/
def State.copyRead (s : State) (h : Shard) (k : Nat) (a : Acp) (n : Nat) : State × Got :=
  let acc := { groupAccess h k a.group 4 a.src with source := a.group + 2 ^ 20 }
  match s.translate acc with
  | (t, none) => (t, .wait)
  | (t, some (.peer _ _)) => t.unitRead (.core k) acc n h.ring h.aseq
  | (t, some (.mem pa cache)) =>
    if t.coreWrites k (pa / 128) then (t, .wait)
    else
      let need := maskOf ((wordsOf pa n).map fun w => w.1 / 32 % 4)
      match (if cache then t.l1Find false k (pa / 128) else none) with
      | some l =>
        if l.valid &&& need = need then
          (t.l1Update false k l true, .data (l.data / 2 ^ (8 * (pa % 128)) % 2 ^ (8 * n)) (l.poison &&& need ≠ 0))
        else t.unitRead (.core k) acc n h.ring h.aseq
      | none => t.unitRead (.core k) acc n h.ring h.aseq

/-- The copies of a core tried in order: a part of the first that can go on is written, and its counter grows by the part's length. -/
def State.tryCopies (s : State) (h : Shard) (k len : Nat) (before : List Acp) : List Acp → State
  | [] => s
  | a :: r =>
    let n := min (min len a.len) (128 - a.src % 128)
    match s.copyRead h k a n with
    | (t, .wait) => t.tryCopies h k len (before ++ [a]) r
    | (t, .fail c) => t.failGroup k a.group c
    | (t, .data v bad) =>
      if bad then t.groupFault k a.group 0x0506
      else
        let left : List Acp := if a.len ≤ n then [] else [{ a with src := a.src + n, off := a.off + n, len := a.len - n }]
        let t := t.setCore k { t.core k with acps := before ++ left ++ r }
        let b := t.block k a.block
        let t := t.setBlock k a.block { b with store := Memory.putNum b.store a.off n v }
        t.setArrive k a.block a.counter (Tbl.get 0 b.arrive a.counter + n)

/-- ACP_PART_WRITTEN (R185). -/
def State.acpPart (s : State) (k len : Nat) : State :=
  match (s.core k).shard with
  | none => s
  | some h => if s.running k && len ≠ 0 then s.tryCopies h k len [] (s.core k).acps else s

/-! ### ATOM (R191 to R193) -/

/-- The operation of an ATOM row's OP [3:0]. -/
def atomOp (n : Nat) : AtomOp :=
  match n with
  | 0 => .add
  | 1 => .minS
  | 2 => .minU
  | 3 => .maxS
  | 4 => .maxU
  | 5 => .and
  | 6 => .or
  | 7 => .xor
  | 8 => .swap
  | _ => .cas

/-- An ATOM row: the OPs it takes, and whether it returns the old value. -/
def atomForm (i : TInstr) (ops : List Nat) (red : Bool) : OpForm :=
  let n := memWidth i / 4
  { keys := ops.map (0x800 + ·), imm := false, modMask := 0xE7
    ok := (memWidth i = 4 || memWidth i = 8) && memOrder i ≤ 4 && (!red || fDst i = 0)
    regs := (if red then [] else [(fDst i, n)]) ++ [(fA i, 2), (fB i, n)] ++ (if i.op.toNat = 9 then [(fC i, n)] else []), inLock := false }

/-- Whether an address is one of a host window. -/
def State.onHost (s : State) (pa : Nat) : Bool :=
  match s.place pa with
  | .host _ _ => true
  | _ => false

/-- An atomic sent to a peer whose answer is not wanted. -/
def State.peerTell (s : State) (h : Shard) (v a op : Nat) (d : List Byte) : State :=
  match s.peerArc h.ctx v with
  | .error _ => s
  | .ok slot =>
    match s.arcSend slot 4 1 a op 0 d none h.ring h.aseq with
    | none => s
    | some t => { t with peers := t.peers ++ [{ engine := nobody, source := 0, va := 0, arc := slot, ring := h.ring, aseq := h.aseq, data := none, bad := false }] }

/-- An atomic of some lanes issued (R191): one request a lane goes to the home, in ascending lane order, or to the peer. -/
def State.issueAtom (s : State) (k g : Nat) (i : TInstr) (red : Bool) (x : Group) (ls : List Nat) : Ran :=
  let w := memWidth i
  let op := i.op.toNat % 16
  match (s.core k).shard, laneAddrs ls fun ln => x.addr ln (fA i) 0 w with
  | none, _ => .wait s
  | _, none => .fault s 0x0502
  | some h, some as_ =>
    if s.acquiring k g || (!ls.isEmpty && !s.fenced k g (memOrder i)) || as_.any (fun a => s.clash k g a.2) || !s.tracks k as_.length then .wait s
    else
      match s.laneTargets h k g 2 as_ with
      | (t, none) => .wait t
      | (t, some ts) =>
        let hostBad := ts.any fun p => match p.2.2 with
          | .mem pa _ => t.onHost pa && !atomOnHost (atomOp op)
          | .peer _ _ => false
        let busy := ts.any fun p => match p.2.2 with
          | .mem pa _ => t.coreWrites k (pa / 128)
          | .peer _ _ => false
        if hostBad then .fault t 0x0507
        else
          match (if busy then some Got.wait else t.peersReady h.ctx ts) with
          | some (.fail c) => .failed (t.failGroup k g c)
          | some _ => .wait t
          | none =>
            let b (ln : Nat) : Nat := x.regN ln (fB i) (w / 4)
            let c (ln : Nat) : Nat := if op = 9 then x.regN ln (fC i) (w / 4) else 0
            let t := ts.foldl (fun (t : State) p =>
              match p.2.2 with
              | .mem pa _ =>
                (t.postAtom k { op := atomOp op, pa := pa, va := p.2.1, width := w, b := b p.1, c := c p.1, group := g, lane := p.1, ret := !red
                                acq := red && memOrder i ≠ 0 }).count k 5 1 1
              | .peer v a =>
                let d := leBytes w (b p.1) ++ if op = 9 then leBytes w (c p.1) else []
                let acc := { groupAccess h k g 2 p.2.1 with source := g + 4096 * (p.1 + 1) }
                if red then t.peerTell h v a op d else (t.peerAsk acc v 4 a op 0 d h.ring h.aseq).1) t
            let o : LoadOp := { dst := fDst i, width := w, lanes := as_, policy := 3, order := memOrder i, vals := some [] }
            .done (if red || ls.isEmpty then t else (t.setGroup k g { t.group k g with loads := (t.group k g).loads ++ [o] }).trackPeak k)

/-- A returning ATOM row. -/
def State.atomRow (s : State) (k g : Nat) (i : TInstr) (op : Nat) : State :=
  s.threadOp k g i (atomForm i [op] false) fun s x ls => s.issueAtom k g i false x ls

/-- The old values of an atomic that have come: the homes' and the peers' (R191). -/
def State.atomVals (s : State) (k g : Nat) (o : LoadOp) : List (Nat × Nat) :=
  let home := o.vals.getD []
  home ++ ((o.lanes.filter fun l => !home.any fun v => v.1 = l.1).filterMap fun l =>
    ((s.peers.find? fun q => q.engine = k && q.source = g + 4096 * (l.1 + 1) && q.va = l.2).bind fun q => q.data.map fun d => (d, q.bad)).map fun d =>
      (l.1, d.1 % 2 ^ (8 * o.width) + if d.2 then 2 ^ 128 else 0))

/-- ATMDAT (R191, R214): the first atomic of the group whose old values have all come is over. -/
def State.atomReturn (s : State) (k g : Nat) : State :=
  let x := s.group k g
  let ready (o : LoadOp) : Bool := o.policy = 3 && (s.atomVals k g o).length = o.lanes.length
  match x.loads.find? ready with
  | none => s
  | some o =>
    if !s.running k || !x.live then s
    else
      let vs := s.atomVals k g o
      let j := x.loads.findIdx ready
      let s := { s with lattice := vs.foldl (fun (l : List LMsg) (v : Nat × Nat) =>
        dropFirst (fun (m : LMsg) => m.kind = "ATMDAT" && m.dst = k && m.mask = 32 * g + v.1) l) s.lattice }
      let s := s.peerForget fun q => q.engine = k && 4096 ≤ q.source && q.source < 2 ^ 20 && q.source % 4096 = g && o.lanes.any fun l => l.2 = q.va
      s.deliverLoad k g j o vs

/-- The runs of active lanes of a reduction, each with its first lane. -/
def runsOf (ls : List Nat) : List (Nat × Nat) :=
  ls.foldl (fun (a : List (Nat × Nat)) ln =>
    match a.getLast? with
    | some (f, n) => if f + n = ln then a.dropLast ++ [(f, n + 1)] else a ++ [(ln, 1)]
    | none => [(ln, 1)]) []

/-- The operation of an OPX of 1 to 3 (R192). -/
def vredOp (code : Nat) : AtomOp := if code = 1 then .redB32 else if code = 2 then .redW16 else .redB16

/-- A VRED row (R192): a reduce-add into the sector of the first executing lane; `code` is its OPX on a peer. -/
def State.vred (s : State) (k g : Nat) (i : TInstr) (op code : Nat) : State :=
  s.threadOp k g i
    { keys := [0x800 + op], imm := false, modMask := 0xE7, ok := fMod i % 8 = 2 && memOrder i ≤ 4, regs := [(fA i, 2), (fB i, 1)], inLock := false }
    fun s x ls =>
      match ls, (s.core k).shard with
      | [], _ => .done s
      | _, none => .wait s
      | ln :: _, some h =>
        match x.addr ln (fA i) 0 128 with
        | none => .fault s 0x0502
        | some va =>
          if s.acquiring k g || !s.fenced k g (memOrder i) || s.clash k g va || !s.tracks k 1 then .wait s
          else
            match s.translate (groupAccess h k g 2 va) with
            | (t, none) => .wait t
            | (t, some (.mem pa _)) =>
              if t.onHost pa then .fault t 0x0507
              else if t.coreWrites k (pa / 128) then .wait t
              else
                .done ((t.postAtom k { op := vredOp code, pa := pa, va := va, width := 128
                                       b := packLanes 32 ((List.range 32).map fun j => x.reg j (fB i)), c := maskOf ls, group := g, lane := ln, ret := false
                                       acq := memOrder i ≠ 0 }).count k 5 1 1)
            | (t, some (.peer v a)) =>
              let rs := runsOf ls
              match t.peersTake h.ctx (rs.map fun r => (r.1, Target.peer v a, 0)) with
              | some (.fail c) => .failed (t.failGroup k g c)
              | some _ => .wait t
              | none =>
                match t.peerArc h.ctx v with
                | .error c => .failed (t.failGroup k g c)
                | .ok slot => .done (rs.foldl (fun (t : State) r =>
                    (t.arcSend slot 1 1 (a + 4 * r.1) code 0 ((List.range r.2).flatMap fun j => leBytes 4 (x.reg (r.1 + j) (fB i))) none h.ring h.aseq).getD t) t)

/-! ### Meanings -/

/-- LD (R188). -/
def execLd (k g : Nat) (i : TInstr) (s : State) : Res :=
  onUnit s (isCore k && isGroup g) (s.threadOp k g i (memForm i 0 2 true) fun s x ls => s.issueLoad k g i x ls)
/-- LD_DATA_RETURN (R179). -/
def execLdDataReturn (k g : Nat) (s : State) : Res := onUnit s (isCore k && isGroup g) (s.loadReturn k g)
/-- ST (R188). -/
def execSt (k g : Nat) (i : TInstr) (s : State) : Res :=
  onUnit s (isCore k && isGroup g) (s.threadOp k g i (memForm i 1 2 true) fun s x ls => s.issueStore k g i x ls)
/-- LDB (R184). -/
def execLdb (k g : Nat) (i : TInstr) (s : State) : Res :=
  onUnit s (isCore k && isGroup g) (s.blockOp k g i 2 fun s x b os => s.blockLoad k g i x b os)
/-- STB (R184). -/
def execStb (k g : Nat) (i : TInstr) (s : State) : Res :=
  onUnit s (isCore k && isGroup g) (s.blockOp k g i 3 fun s x b os => s.blockStore k i x b os)
/-- ACP_LANE (R185). -/
def execAcpLane (k g : Nat) (i : TInstr) (s : State) : Res := onUnit s (isCore k && isGroup g) (s.acpLane k g i)
/-- ACP_BULK (R185). -/
def execAcpBulk (k g : Nat) (i : TInstr) (s : State) : Res := onUnit s (isCore k && isGroup g) (s.acpBulk k g i)
/-- ACP_PART_WRITTEN (R185). -/
def execAcpPartWritten (k len : Nat) (s : State) : Res := onUnit s (isCore k) (s.acpPart k len)
/-- ATOM_ADD (R191). -/
def execAtomAdd (k g : Nat) (i : TInstr) (s : State) : Res := onUnit s (isCore k && isGroup g) (s.atomRow k g i 0)
/-- ATOM_MIN_S (R191). -/
def execAtomMinS (k g : Nat) (i : TInstr) (s : State) : Res := onUnit s (isCore k && isGroup g) (s.atomRow k g i 1)
/-- ATOM_MIN_U (R191). -/
def execAtomMinU (k g : Nat) (i : TInstr) (s : State) : Res := onUnit s (isCore k && isGroup g) (s.atomRow k g i 2)
/-- ATOM_MAX_S (R191). -/
def execAtomMaxS (k g : Nat) (i : TInstr) (s : State) : Res := onUnit s (isCore k && isGroup g) (s.atomRow k g i 3)
/-- ATOM_MAX_U (R191). -/
def execAtomMaxU (k g : Nat) (i : TInstr) (s : State) : Res := onUnit s (isCore k && isGroup g) (s.atomRow k g i 4)
/-- ATOM_AND (R191). -/
def execAtomAnd (k g : Nat) (i : TInstr) (s : State) : Res := onUnit s (isCore k && isGroup g) (s.atomRow k g i 5)
/-- ATOM_OR (R191). -/
def execAtomOr (k g : Nat) (i : TInstr) (s : State) : Res := onUnit s (isCore k && isGroup g) (s.atomRow k g i 6)
/-- ATOM_XOR (R191). -/
def execAtomXor (k g : Nat) (i : TInstr) (s : State) : Res := onUnit s (isCore k && isGroup g) (s.atomRow k g i 7)
/-- ATOM_SWAP (R191). -/
def execAtomSwap (k g : Nat) (i : TInstr) (s : State) : Res := onUnit s (isCore k && isGroup g) (s.atomRow k g i 8)
/-- ATOM_CAS (R191). -/
def execAtomCas (k g : Nat) (i : TInstr) (s : State) : Res := onUnit s (isCore k && isGroup g) (s.atomRow k g i 9)
/-- RED (R191). -/
def execRed (k g : Nat) (i : TInstr) (s : State) : Res :=
  onUnit s (isCore k && isGroup g)
    (s.threadOp k g i (atomForm i [0x10, 0x11, 0x12, 0x13, 0x14, 0x15, 0x16, 0x17, 0x18] true) fun s x ls => s.issueAtom k g i true x ls)
/-- VRED_B32 (R192). -/
def execVredB32 (k g : Nat) (i : TInstr) (s : State) : Res := onUnit s (isCore k && isGroup g) (s.vred k g i 0x20 1)
/-- VRED_W16 (R192). -/
def execVredW16 (k g : Nat) (i : TInstr) (s : State) : Res := onUnit s (isCore k && isGroup g) (s.vred k g i 0x21 2)
/-- VRED_B16 (R192). -/
def execVredB16 (k g : Nat) (i : TInstr) (s : State) : Res := onUnit s (isCore k && isGroup g) (s.vred k g i 0x22 3)
/-- ATMDAT (R214). -/
def execAtmdat (k g : Nat) (s : State) : Res := onUnit s (isCore k && isGroup g) (s.atomReturn k g)
/-- FENCE (R189, R190): it issues once what it orders has been performed. -/
def execFence (k g : Nat) (i : TInstr) (s : State) : Res :=
  onUnit s (isCore k && isGroup g) (s.threadOp k g i
    { keys := [0x900], imm := false, modMask := 0xE0, ok := 1 ≤ memOrder i && memOrder i ≤ 4 && pl i 43 8 = 0, regs := [], inLock := false }
    fun s _ ls => if !ls.isEmpty && (s.acquiring k g || !s.fenced k g (memOrder i)) then .wait s else .done s)

end Sys2Proof.Machine
end

