-- ==== Sys2Proof/Machine/Copies.lean ====
section
/-! DEFINITION. Copy engines (R291 to R293): COPY and its completion. -/

namespace Sys2Proof.Machine

/-- The key slot of an arc holds no key (R364, R369). -/
def State.noKey (s : State) (a : Arc) : Bool := (Tbl.get KeySlot.reset s.keys (16 * a.part + a.keySlot)).cur = 0

/-- What an arc that a command names makes of it (R364, R366, R371, R373): 0 it can go, 1 it holds its ring's head, or the code it ends with. -/
def State.arcGate (s : State) (slot : Nat) : Nat :=
  let a := s.arc slot
  if a.state = 2 then 0x0C01
  else if a.state = 3 then 0x0C02
  else if a.state = 0 || a.state = 4 || (a.kind ≠ 0 && (a.keywait || s.noKey a)) then 1
  else 0

/-- Commands of a copy ring in flight (R292). -/
def Ring.copying (r : Ring) : List Cmd := r.accepted.filter fun c => c.op = 3 && c.begun && c.ended.isNone

/-- The peer path over which a COPY goes: its destination lies in the far context. Over another arc, or none, it stays within its context (R291). -/
def State.copyPath (s : State) (c : Cmd) : Option Nat :=
  let slot := hSlot (copyArc c.head)
  if copyArc c.head ≠ 0 && (s.arc slot).kind = 1 then some slot else none

/-- An access of a copy engine (R261); copies in flight are told apart above the eight bits of SOURCE. -/
def copyAccess (e kind va : Nat) (c : Cmd) : Access :=
  { ctx := c.ctx, tag := c.tag, engine := 0x100 + e, source := 0x80 + 256 * (c.aseq % 2 ^ 32), kind := kind, va := va, rep := 0, since := none }

/-- The reduction of a COPY's MODE (R291). -/
def copyRed (mode : Nat) : AtomOp :=
  match mode with
  | 1 => .redB32
  | 2 => .redW16
  | _ => .redB16

/-- The data of a piece written to its destination: `wait` where it cannot be now, or the code that the copy ends with. A peer path carries messages by
far virtual address (R368); within the context the destination is translated. -/
def State.copyWrite (s : State) (e key : Nat) (c : Cmd) (mode dst n v : Nat) : State × Got :=
  match s.copyPath c with
  | some slot =>
    (match s.arcSend slot (if mode = 0 then 0 else 1) 0 dst mode 0 (leBytes n v) none key c.aseq with
      | none => (s, .wait)
      | some t => (t, .data 0 false))
  | none =>
    if mode = 0 then s.unitWrite (.copyEngine e) (copyAccess e 5 dst c) n v key c.aseq
    else
      match s.translate (copyAccess e 5 dst c) with
      | (t, none) => (t, .wait)
      | (t, some (.mem pa _)) =>
        if t.onHost pa then (t, .fail 0x0507)
        else if t.rangeShut pa n then (t, .wait)
        else
          (match t.letIn (.copyEngine e) pa n true with
            | (t, false) => (t, .wait)
            | (t, true) =>
              let u := (List.range (n / 128)).foldl (fun (u : State) j =>
                (u.agentAtom (.copyEngine e) (copyRed mode) (pa + 128 * j) 4 (v / 2 ^ (1024 * j) % 2 ^ 1024) (2 ^ 32 - 1)).1)
                (t.admitDone (.copyEngine e) pa n)
              (u.post "COMP" (homeNode (pa / 128)) (512 + e) (pa / 128) 0 0, .data 0 false))
      | (t, some (.peer x a)) =>
        match t.peerArc c.ctx x with
        | .error code => (t, .fail code)
        | .ok slot =>
          match t.arcSend slot 1 1 a mode 0 (leBytes n v) none key c.aseq with
          | none => (t, .wait)
          | some u => (u, .data 0 false)

/-- Whether a piece can be written now, or the code that the copy ends with: its arc takes another message, or its destination is translated, its homes
are not busy, its buckets let it in (R238) and its carrier arc takes another message. -/
def State.copyRoom (s : State) (e : Nat) (c : Cmd) (dst n : Nat) : State × Got :=
  match s.copyPath c with
  | none =>
    (match s.targets (copyAccess e 5 dst c) 2 n with
      | (t, none) => (t, .wait)
      | (t, some l) =>
        if t.homesBusy true l then (t, .wait)
        else
          match t.peersTake c.ctx l with
          | some g => (t, g)
          | none => let u := t.homesAdmit (.copyEngine e) true l; (u.1, if u.2 then .data 0 false else .wait))
  | some slot =>
    let g := s.arcGate slot
    (s, if 1 < g then .fail g else if 256 ≤ (s.arc slot).unacked.length then .wait else .data 0 false)

/-- A copy's next pieces moved, none across a 4 KiB boundary of its source or destination, until it is at its end or must wait. -/
def State.copyRun (s : State) (e aseq : Nat) : Nat → State
  | 0 => s
  | f + 1 =>
    let key := kCopyRing e
    match (s.ring key).copying.find? fun c => c.aseq = aseq with
    | none => s
    | some c =>
      let v := c.head
      let src := (bits 511 456 v + c.done) % 2 ^ 56
      let dst := (bits 447 392 v + c.done) % 2 ^ 56
      let n := min (bits 383 344 v - c.done) (min (4096 - src % 4096) (4096 - dst % 4096))
      if n = 0 then s
      else
        match s.copyRoom e c dst n with
        | (s, .wait) => s
        | (s, .fail code) => s.failCopy e c code
        | (s, .data _ _) =>
          match s.unitRead (.copyEngine e) (copyAccess e 4 src c) n key aseq with
          | (t, .wait) => t
          | (t, .fail code) => t.failCopy e c code
          | (t, .data x bad) =>
            if bad then t.failCopy e c 0x0A01
            else
              match t.copyWrite e key c (bits 343 340 v) dst n x with
              | (t, .wait) => t
              | (t, .fail code) => t.failCopy e c code
              | (t, .data _ _) =>
                ((t.setCmd key aseq fun c => { c with done := c.done + n }).bump 8 (oCeBytes e) n).copyRun e aseq f

/-- Pieces that a copy can have. -/
def Cmd.pieces (c : Cmd) : Nat := 2 * (bits 383 344 c.head / 4096) + 4

/-- COPY at the head of its ring (R264, R289, R292, R310, R364): it begins and moves what it can. -/
def State.copyCmd (s : State) (key : Nat) : State :=
  let r := s.ring key
  match r.next with
  | none => s
  | some c =>
    if c.op ≠ 3 || r.kind ≠ 3 || !s.serves || 4 ≤ r.copying.length then s
    else if (s.ctxOf c.ctx).any fun x => x.error then s.endCmd key c.aseq 4 0x0803
    else if s.noEngine r || s.ctr (oCeState r.engine) = 3 then (if s.noEngine r then s.endCmd key c.aseq 3 0x0A02 else s)
    else
      let g := if copyArc c.head = 0 then 0 else s.arcGate (hSlot (copyArc c.head))
      if g = 1 then s.holdCmd key c
      else if g ≠ 0 then s.endCmd key c.aseq 4 g
      else
        let s := s.setCmd key c.aseq fun c => { c with begun := true, waitSince := none, start := s.now }
        (s.bump 8 (oCeCommands r.engine) 1).copyRun r.engine c.aseq c.pieces

/-- Whether a copy has moved its bytes and every write is acknowledged at its destination (R292). -/
def State.copyOver (s : State) (e : Nat) (c : Cmd) : Bool :=
  c.done = bits 383 344 c.head && c.arcWait = 0 && !s.lattice.any fun m => m.kind = "COMP" && m.dst = 512 + e

/-- COPY_COMPLETE (R292): the copies in flight move what they can, and the first that is over ends DONE with its engine time charged. -/
def State.copyComplete (s : State) (e : Nat) : State :=
  let key := kCopyRing e
  let s := (s.ring key).copying.foldl (fun (s : State) c => s.copyRun e c.aseq c.pieces) s
  match (s.ring key).copying.find? fun c => s.copyOver e c with
  | none => s
  | some c =>
    let ns := s.now - c.start
    ((s.setCmd key c.aseq fun c => { c with engineNs := c.engineNs + ns }).bump 8 (oEngineNs (s.ring key).part) ns).endCmd key c.aseq 2 0

/-- COPY (R291, R292). -/
def execCopy (r : Nat) (s : State) : Res := .next (s.copyCmd r)
/-- COPY_COMPLETE (R292). -/
def execCopyComplete (e : Nat) (s : State) : Res := onUnit s (isCe e) (s.copyComplete e)

end Sys2Proof.Machine
end

