-- ==== Sys2Proof/Machine/Endings.lean ====
section
/-! DEFINITION. What ends the work of a context before its time: faults that are replayed, cancelled or time out, the ERROR state (R261 to R264), and the
destruction of the context (R297, R298, R311). -/

namespace Sys2Proof.Machine

/-! ### Cancelled faults and ERROR (R262 to R264) -/

/-- Whether a copy command made an access. -/
def Cmd.made (c : Cmd) (a : Access) : Bool := c.ctx = a.ctx && a.source / 256 = c.aseq % 2 ^ 32

/-- What made a stalled access ends with a code: its shard, for a group or a mover, or its copy (R262, R263, R294). -/
def State.failAccess (s : State) (a : Access) (code : Nat) : State :=
  if a.engine < 256 then
    if !s.running a.engine || ((s.core a.engine).shard.map fun h => h.ctx) ≠ some a.ctx then s
    else if a.source % 256 < 64 then s.failGroup a.engine (a.source % 256) code
    else s.failShard a.engine code
  else
    let e := a.engine - 256
    match (s.ring (kCopyRing e)).copying.find? fun c => c.made a with
    | some c => s.failCopy e c code
    | none => s

/-- A context enters ERROR (R264): its running shards and its copies end with CONTEXT-ERROR, its walks stop and its faults are retired. -/
def State.contextError (s : State) (h : Nat) : State :=
  match s.ctxOf h with
  | none => s
  | some c =>
    let s := s.setCtx (hSlot h) { c with error := true }
    let s := forUpTo 96 s fun s k =>
      if s.running k && ((s.core k).shard.map fun x => x.ctx) = some h then s.failShard k 0x0803 else s
    let s := forUpTo 32 s fun s e =>
      ((s.ring (kCopyRing e)).copying.filter fun c => c.ctx = h).foldl (fun s c => s.failCopy e c 0x0803) s
    { s with walks := s.walks.filter fun w => w.acc.ctx ≠ h }.retire fun f => f.acc.ctx = h

/-- Every access that a fault stalls. -/
def TFault.stalls (f : TFault) : List Access := f.acc :: f.joined

/-- A write of the replay doorbell (R262): the accesses are walked again from ROOT, or with CANCEL set, their shards and copies end and their contexts
enter ERROR. -/
def State.replayDoorbell (s : State) (fn page v : Nat) : State :=
  if !s.up then s
  else
    match s.ringAt fn page with
    | none => s
    | some key =>
      let h := s.handle 8 (key % 65536)
      if (s.ring key).kind ≠ 5 then s
      else if bits 62 32 v ≠ 0 then s.bump 4 oDoorbellErrors 1
      else
        let covers := s.replayed h (bits 31 0 v)
        let fs := s.faults.filter covers
        if bit 63 v then
          let s := fs.foldl (fun s f => f.stalls.foldl (fun s a => s.failAccess a 0x0802) s) s
          (fs.map fun f => f.acc.ctx).eraseDups.foldl (fun s h => s.contextError h) s
        else
          let again (f : TFault) : List Walk := f.stalls.map fun a => ⟨f.die, { a with rep := min 65535 (a.rep + 1) }, none⟩
          let s := s.retire covers
          { s with walks := s.walks ++ fs.flatMap again }

/-- Whether the unit of an access stands still with its core's debugger (R263). -/
def State.accessHalted (s : State) (a : Access) : Bool := a.engine < 256 && s.coreHalted a.engine

/-- When a fault's service timeout expires, if its context has one (R263). -/
def State.deadline (s : State) (f : TFault) : Option Nat := (s.ctxOf f.acc.ctx).map fun c => f.acc.since.getD f.time + c.timeout

/-- The fault of a die and SEQ, 0 for those without a record, whose service timeout expires first. -/
def State.firstLate (s : State) (d seq : Nat) : Option (TFault × Nat) :=
  s.faults.foldl (fun (b : Option (TFault × Nat)) f =>
    match (if f.die = d && f.seq = seq && !s.accessHalted f.acc then s.deadline f else none) with
    | none => b
    | some t =>
      match b with
      | some (_, u) => if t < u then some (f, t) else b
      | none => some (f, t)) none

/-- A fault's service timeout expires (R263): what it stalls ends with FAULT-TIMEOUT, and the context enters ERROR. -/
def State.faultTimeout (s : State) (d seq : Nat) : State :=
  match s.firstLate d seq with
  | none => s
  | some (f, t) =>
    let s := (s.atTime t).bump 4 oFaultTimeouts 1
    (f.stalls.foldl (fun s a => s.failAccess a 0x0801) s).contextError f.acc.ctx

/-! ### Failed parts (R310) -/

/-- The copies that an engine runs end with a code. -/
def State.failCopies (s : State) (e code : Nat) : State := (s.ring (kCopyRing e)).copying.foldl (fun s c => s.failCopy e c code) s

/-- A lattice edge or a host port is lost (R310): what it hit of the shards and copies that run ends with PART-FAULT. Which of them it hit is free (log
entry 87). -/
def State.partLost (s : State) : State :=
  let hit (s : State) : Bool := (Config.freeNat 12 s.free).toNat % 2 = 1
  let s := forUpTo 96 s fun s k => if s.running k then (if hit s then s.failShard k cPartFault else s).drew else s
  forUpTo 32 s fun s e =>
    if (s.ring (kCopyRing e)).copying.isEmpty then s else (if hit s then s.failCopies e cPartFault else s).drew

/-- SITE_ACTION_DONE (R310, R399): an array's spare is in and a channel's copy has ended by commands of their own. A lost lattice edge hits what runs; a
retired copy engine, its copies; a cluster goes to its slower limit (R380). -/
def State.siteDone (s : State) (d x : Nat) : State :=
  let was := s.siteState d x
  match siteKind x with
  | 0 => (s.repairDone (48 * d + x)).endAction d x
  | 3 => s.migrationDone (192 * d + (x - 192))
  | 5 =>
    let t := s.endAction d x
    if was ≠ 3 && t.siteState d x = 3 then t.failCopies (4 * d + (x - 396)) cPartFault else t
  | 6 =>
    let t := s.endAction d x
    if was ≠ 3 && t.siteState d x = 3 then t.partLost else t
  | 7 =>
    let t := s.endAction d x
    let c := 3 * d + (x - 406)
    if t.ctr (oPoint c) < t.ctr (oPointLimit c) then t.goPoint c (t.ctr (oPointLimit c)) else t
  | _ => s.endAction d x

/-! ### Destroying a context (R297, R298) -/

/-- Whether an engine still has accesses on their way: a core's writes and atomics that have not been performed. -/
def State.engineBusy (s : State) (n : Nat) : Bool := n < 96 && s.lattice.any fun m => m.src = n && m.changes

/-- Whether messages of a context that have been sent to a peer await their acknowledgement. -/
def State.arcsBusy (s : State) (h : Nat) : Bool :=
  s.arcs.any fun e => e.2.live && e.2.ctx = h && e.2.state = 1 && !e.2.keywait && e.2.unacked.any fun t => t.sent

/-- The last messages of an arc that no transmission has carried, other than answers and arrivals, are discarded (R297 step 4). -/
def Arc.discard (a : Arc) : Arc :=
  let gone := (a.unacked.reverse.takeWhile fun t => !t.sent && t.m.mtype ≠ 3 && t.m.mtype ≠ 5 && t.m.mtype ≠ 12).length
  { a with unacked := a.unacked.take (a.unacked.length - gone), next := (a.next + 2 ^ 32 - gone) % 2 ^ 32 }

/-- The copies of a context end: those that are over, as done; the others are abandoned, without a capture. -/
def State.abandonCopies (s : State) (h : Nat) : State :=
  forUpTo 32 s fun s e =>
    ((s.ring (kCopyRing e)).copying.filter fun c => c.ctx = h).foldl (fun s c =>
      let key := kCopyRing e
      let ns := s.now - c.start
      let s := (s.setCmd key c.aseq fun c => { c with engineNs := c.engineNs + ns }).bump 8 (oEngineNs (s.ring key).part) ns
      if s.copyOver e c then s.endCmd key c.aseq 2 0
      else (s.dropUnit fun a => a.engine = 0x100 + e && c.made a).peerForget fun q => q.engine = 0x100 + e && q.aseq = c.aseq) s

/-- How the destruction of its context leaves an accepted command: done where R309's conditions hold for it, as it ended where it had failed or
returned, and else FAILED with CONTEXT-DESTROYED (R311). -/
def State.destroyedCmd (s : State) (key : Nat) (c : Cmd) : Cmd :=
  match c.ended with
  | some (2, _) => if s.performed key c then c else { c with code := 0x0908, ended := some (4, 0x0908) }
  | some _ => c
  | none => { c with code := 0x0908, ended := some (4, 0x0908), waitSince := none }

/-- A destruction begins (R297 steps 1 to 3): the handle is stale, shards, copies, walks, faults and waits stop, and the accepted commands are ready to
end. -/
def State.destroyBegin (s : State) (h : Nat) : State :=
  let slot := hSlot h
  let on (s : State) (k : Nat) : Bool := ((s.core k).shard.map fun x => x.ctx) = some h
  let s := (s.nextGen 1 slot).setCtx slot { s.ctx slot with
    destroying := true, formerly := h, destroyedAt := s.now, drains := (List.range 96).filter (on s) }
  let s := s.writeThrough 1 slot
  let s := forUpTo 96 s fun s k => if on s k then s.stopShard k true else s
  let s := s.abandonCopies h
  let s := { s with walks := s.walks.filter fun w => w.acc.ctx ≠ h }.retire fun f => f.acc.ctx = h
  let cmds := (s.rings.map fun e => (e.2.accepted.filter fun c => c.ctx = h).map fun c => (e.1, c.aseq)).flatten
  let s := cmds.foldl (fun s e => (s.unwatch (.cmd e.1 e.2)).setCmd e.1 e.2 (s.destroyedCmd e.1)) s
  { s with
    parkq := s.parkq.filter (· ≠ slot)
    watch := s.watch.filter fun w => w.ctx ≠ h
    sigAdds := s.sigAdds.filter fun a => a.ctx ≠ h
    arcs := s.arcs.map fun (e : Nat × Arc) => if e.2.live && e.2.ctx = h then (e.1, e.2.discard) else e }

/-- Whether a command of a context whose record can be written still lacks it; one that an earlier command of its ring holds back is not waited for
(R297 step 6, R308; log entry 33). -/
def State.recordsDue (s : State) (h : Nat) : Bool := s.rings.any fun e => (e.2.accepted.head?.map fun c => c.ctx) = some h

/-- The rest of a destruction (R297 steps 4 to 6), once what the context issued is performed and its commands have their records: its translations and
its slot are free, and the result is written. -/
def State.destroyEnd (s : State) (fn v : Nat) : State :=
  let h := bits 31 0 (ctlW v 0)
  let slot := hSlot h
  let x := s.ctx slot
  let left := x.drains.filter s.engineBusy
  if !left.isEmpty || s.recordsDue h || s.arcsBusy h then s.setCtx slot { x with drains := left }
  else
    let s := match x.hw with
      | some hw => s.tlbDrop fun t => t.slot = hw
      | none => s
    let s := { s with ctxs := Tbl.erase s.ctxs slot }.writeThrough 1 slot
    (s.peak 8 oDestroyMax (s.now - x.destroyedAt)).ctlDone fn v (0, 0, 0)

/-- CTX-DESTROY (R297, R298) at the head of a control ring: checked and begun; sent again, it goes on. -/
def State.ctxDestroy (s : State) (fn : Nat) : State :=
  match s.ctlHead fn with
  | none => s
  | some v =>
    let h := bits 31 0 (ctlW v 0)
    let c := s.ctlCtx fn h
    let st := (s.ctl fn).stale
    if hOp v ≠ 0x42 then s
    else if st ≠ 0 then (if st = hSlot h + 1 then s.destroyEnd fn v else s)
    else if !ctlHeadOk v then s.ctlDone fn v (0x0903, 0, 0)
    else if bits 63 32 (ctlW v 0) ≠ 0 || (List.range 5).any (fun i => ctlW v (i + 1) ≠ 0) then s.ctlDone fn v (0x0912, 0, 0)
    else if c ≠ 0 then s.ctlDone fn v (c, 0, 0)
    else ((s.destroyBegin h).setCtl fn { s.ctl fn with stale := hSlot h + 1 }).destroyEnd fn v

/-- SITE_ACTION_DONE (R399). -/
def execSiteActionDone (d site : Nat) (s : State) : Res := onUnit s (isDie d && isSite site) (s.siteDone d site)
/-- CTX_DESTROY (R297). -/
def execCtxDestroy (fn : Nat) (s : State) : Res := onUnit s (isFn fn) (s.ctxDestroy fn)
/-- FAULT_REPLAY (R262). -/
def execFaultReplay (fn page v : Nat) (s : State) : Res := onUnit s (isFn fn) (s.replayDoorbell fn page v)
/-- FAULT_CANCEL (R262). -/
def execFaultCancel (fn page v : Nat) (s : State) : Res := onUnit s (isFn fn) (s.replayDoorbell fn page v)
/-- FAULT_TIMEOUT (R263). -/
def execFaultTimeout (d seq : Nat) (s : State) : Res := onUnit s (isDie d) (s.faultTimeout d seq)

end Sys2Proof.Machine
end

