-- ==== Sys2Proof/Machine/Links.lean ====
section
/-! DEFINITION. Perimeter links (R348 to R362, R374, R454): training, HELLO, flits with their credits and replay buffers, routing and
forwarding, and draining. -/

namespace Sys2Proof.Machine

/-- A link beyond its objects. -/
def State.link (s : State) (l : Nat) : Link := Tbl.get Link.reset s.links l
/-- The same replaced. -/
def State.setLink (s : State) (l : Nat) (x : Link) : State := { s with links := Tbl.set s.links l x }

/-- LINK_STATE (R377). -/
def State.linkState (s : State) (l : Nat) : Nat := s.ctr (oLinkState l)
/-- The values of LINK_STATE. -/
def lsDown : Nat := 0
def lsTraining : Nat := 1
def lsUp : Nat := 2
def lsDraining : Nat := 3
def lsDrained : Nat := 4
def lsLooped : Nat := 5
def lsRetired : Nat := 6

/-- Whether a vertex is unassignable (R357). -/
def unassignable (v : Nat) : Bool := 0xFF0 ≤ v % 4096

/-- Whether the module has a vertex (R357). -/
def State.assigned (s : State) : Bool := !unassignable s.vertex

/-! ### Flits, credits and replay (R354 to R356) -/

/-- Flits of a message (R354). -/
def flitsOf (m : PMsg) : Nat :=
  let n := m.data.length + 16 + (if m.sig.isSome then 16 else 0)
  if n ≤ 192 then 1 else 1 + (n - 192 + 239) / 240

/-- The virtual channel of a message type (R356): 0 REQ, 1 RSP, 2 DATA, 3 CTL. -/
def vcOf (mtype : Nat) : Nat :=
  match mtype with
  | 0 | 1 | 2 | 4 => 0
  | 6 | 7 => 1
  | 3 | 5 => 2
  | _ => 3

/-- The number of a class and virtual channel. -/
def creditKey (cls mtype : Nat) : Nat := 4 * cls + vcOf mtype

/-- The transport header of a message, 384 bits (R353). Reserved bits are 0. -/
def transportHeader (m : PMsg) : Nat :=
  packFields [(383, 368, m.dv), (367, 352, m.sv), (351, 344, m.hops), (343, 340, m.mtype), (339, 339, if m.sig.isSome then 1 else 0),
    (338, 338, m.addrk), (335, 322, m.darc), (321, 306, m.depoch), (305, 292, m.sarc), (287, 256, m.mseq), (255, 240, m.len),
    (239, 237, m.sdie), (223, 160, m.kctr), (159, 104, m.addr), (103, 96, m.opx), (95, 32, m.name)]

/-- The link header of a HEAD or BODY flit (R352). It returns no credits: these go in LCTRL flits. -/
def linkHeader (f : Flit) (ackseq : Nat) : Nat :=
  packFields [(63, 60, if f.first then 0 else 1), (59, 58, vcOf f.m.mtype), (57, 57, f.m.cls), (56, 56, if f.last then 1 else 0),
    (55, 44, f.lseq), (43, 32, ackseq)]

/-- A flit sent on a link; with the last flit its message has been sent (R351, R354). -/
def State.sendFlit (s : State) (l : Nat) (f : Flit) : State :=
  let t := s.send (.flit l (linkHeader f (s.link l).expect) (if f.first then some (transportHeader f.m) else none))
  if f.last then t.send (.perimeter l f.m) else t

/-- Whether the message at a place of a link's queue may send a flit (R356): it holds a credit, no message before it is of its virtual channel and
class, and no other of its virtual channel is between its flits. -/
def Link.maySend (x : Link) (i : Nat) : Bool :=
  match x.queue[i]? with
  | none => false
  | some (left, m) =>
    let k := creditKey m.cls m.mtype
    0 < Tbl.get 0 x.credits k &&
      !((x.queue.take i).any fun q => creditKey q.2.cls q.2.mtype = k) &&
      (left < flitsOf m || !(x.queue.any fun q => vcOf q.2.mtype = vcOf m.mtype && q.1 < flitsOf q.2))

/-- Flits sent while the replay buffer has room, `n` at most (R355, R356). -/
def State.pump (s : State) (l : Nat) : Nat → State
  | 0 => s
  | n + 1 =>
    let x := s.link l
    if 512 ≤ x.replay.length || !(s.linkState l = lsUp || s.linkState l = lsDraining) then s
    else
      match (List.range x.queue.length).find? fun i => x.maySend i with
      | none => s
      | some i =>
        match x.queue[i]? with
        | none => s
        | some (left, m) =>
          let k := creditKey m.cls m.mtype
          let f : Flit := { lseq := x.nextSeq, m := m, first := left = flitsOf m, last := left ≤ 1, sentAt := s.now }
          let t := s.setLink l { x with
            queue := if left ≤ 1 then x.queue.eraseIdx i else setNth x.queue i (left - 1, m)
            replay := x.replay ++ [f]
            nextSeq := (x.nextSeq + 1) % 4096
            credits := Tbl.set x.credits k (Tbl.get 0 x.credits k - 1) }
          (t.sendFlit l f).pump l n

/-- Everything that can be sent now: the buffer holds 512 flits. -/
def State.pumpAll (s : State) (l : Nat) : State := s.pump l 512

/-! ### Down and up (R355, R358, R366) -/

/-- The link's layer begins afresh: nothing is queued, unacknowledged or credited. Messages that left through it are to be sent again (R366). -/
def State.linkFresh (s : State) (l : Nat) : State :=
  let x := s.link l
  (s.setLink l { Link.reset with
    prsntSince := x.prsntSince
    latchDrain := x.latchDrain
    downLate := x.downLate
    eyes := x.eyes
    prsntChanged := x.prsntChanged }).linkLost l

/-- A link goes DOWN (R358): its partner's vertex and link number are gone. -/
def State.linkDown (s : State) (l : Nat) : State :=
  if s.linkState l = lsRetired then s
  else (((s.linkFresh l).put (oLinkState l) lsDown).put (oNbrVertex l) 0xFFFF).put (oNbrLink l) 0xFF

/-- A link retrains (R355, R358, R374), where it has a cable and is not RETIRED. -/
def State.retrain (s : State) (l : Nat) : State :=
  if s.linkState l = lsDown || s.linkState l = lsRetired then s else (s.linkDown l).put (oLinkState l) lsTraining

/-- LINK_TRAINING_START (R358): LINK_PRSNT_N has stayed asserted for 100 ms. -/
def State.trainingStart (s : State) (l : Nat) : State :=
  match (s.link l).prsntSince with
  | none => s
  | some t => if s.linkState l = lsDown then (s.atTime (t + 100000000)).put (oLinkState l) lsTraining else s

/-- LINK_TRAINED (R358): its HELLOs begin. -/
def State.linkTrained (s : State) (l : Nat) : State :=
  if s.linkState l = lsTraining && !(s.link l).trained then
    s.setLink l { s.link l with trained := true, helloAt := s.now, lastHello := s.now, heard := false }
  else s

/-- Whether a link exchanges HELLO: it is trained, in whatever state (R358). -/
def State.helloes (s : State) (l : Nat) : Bool := (s.link l).trained && s.linkState l ≠ lsDown && s.linkState l ≠ lsRetired

/-- HELLO_SEND (R358): after 1 ms until one has been received, then after 100 ms. -/
def State.helloSend (s : State) (l : Nat) : State :=
  let x := s.link l
  if s.helloes l then
    let s := s.atTime (x.helloAt + if x.heard then 100000000 else 1000000)
    (s.setLink l { x with helloAt := s.now }).send (.lctrl l 0 s.vertex l)
  else s

/-- HELLO received (R358): UP, or LOOPED when the neighbour reports the module's own vertex. An unassigned module has no vertex of its own. -/
def State.hello (s : State) (l vertex nlink : Nat) : State :=
  if s.helloes l then
    let st := s.linkState l
    let own := s.assigned && vertex = s.vertex
    let s := s.setLink l { s.link l with heard := true, lastHello := s.now }
    let s := (s.put (oNbrVertex l) (vertex % 65536)).put (oNbrLink l) (nlink % 256)
    let f := s.linkFresh l
    if own then
      (if st = lsLooped then s
        else (f.setLink l { f.link l with trained := true, helloAt := (s.link l).helloAt, lastHello := s.now, heard := true }).put (oLinkState l) lsLooped)
    else if st = lsTraining || st = lsLooped then (s.put (oLinkState l) lsUp).pumpAll l
    else s
  else s

/-- HELLO_TIMEOUT (R358): no HELLO for 300 ms. -/
def State.helloTimeout (s : State) (l : Nat) : State :=
  if s.helloes l then (s.atTime ((s.link l).lastHello + 300000000)).retrain l else s

/-- LINK_PRSNT_DEASSERT (R358, R454): the link goes DOWN, and its drain state is gone. A cable removed from a link that was not DRAINED is counted. -/
def State.prsntGone (s : State) (l : Nat) : State :=
  let x := s.link l
  let st := s.linkState l
  if x.prsntSince.isNone then s
  else
    let s := s.setLink l { x with prsntSince := none, latchDrain := false, downLate := false, prsntChanged := true }
    let s := if st = lsDrained then s else s.bump 4 oUndrainedPulls 1
    (s.put oPresence (clrBit (s.nat oPresence) l)).linkDown l

/-- The part of the replay buffer before a sequence number is acknowledged (R355). -/
def acked (seq lseq : Nat) : Bool := let d := (seq + 4096 - lseq) % 4096; 1 ≤ d && d ≤ 2048

/-- The flits before `seq` leave the replay buffer; RTT is that of the last of them (R355). -/
def State.ackFlits (s : State) (l seq : Nat) : State :=
  let x := s.link l
  match (x.replay.filter fun f => acked seq f.lseq).getLast? with
  | none => s
  | some f =>
    (s.setLink l { x with replay := x.replay.filter fun g => !acked seq g.lseq, replays := 0 }).put (oRtt l) (s.now - f.sentAt)

/-- LCTRL_ACK (R355). -/
def State.lctrlAck (s : State) (l seq : Nat) : State :=
  if s.helloes l && seq < 4096 then (s.ackFlits l seq).pumpAll l else s

/-- LCTRL_NAK (R355): everything from the named LSEQ goes again. The eighth replay in a row of one flit makes the link retrain, which is an event at
the site of its lower half. -/
def State.lctrlNak (s : State) (l seq : Nat) : State :=
  if s.helloes l && seq < 4096 then
    let s := s.ackFlits l seq
    let x := s.link l
    if x.replay.isEmpty then s
    else
      let s := (s.setLink l { x with replays := x.replays + 1 }).bump 4 (oReplays l) 1
      if 8 ≤ x.replays + 1 then (s.retrain l).report (l / 6) (384 + 2 * (l % 6)) .linkRetrained
      else x.replay.foldl (fun (s : State) f => s.sendFlit l f) s
  else s

/-- LCTRL_CREDIT (R356). -/
def State.lctrlCredit (s : State) (l cls vc n : Nat) : State :=
  if s.helloes l && cls < 2 && vc < 4 && n < 4096 then
    let x := s.link l
    let k := 4 * cls + vc
    (s.setLink l { x with credits := Tbl.set x.credits k (Tbl.get 0 x.credits k + n) }).pumpAll l
  else s

/-- FLIT_CRC_FAIL (R355): the flit is discarded, the expected LSEQ is named, and later flits are discarded until it comes. -/
def State.flitCrcFail (s : State) (l : Nat) : State :=
  if s.helloes l then
    let x := s.link l
    if x.naking then s else (s.setLink l { x with naking := true }).send (.lctrl l 2 x.expect 0)
  else s

/-- A message whose flits a link has accepted, with good CRCs and in order (R355): they are acknowledged, and their credits return (R356). -/
def State.flitsIn (s : State) (l : Nat) (m : PMsg) : State :=
  let x := s.link l
  let e := (x.expect + flitsOf m) % 4096
  ((s.setLink l { x with expect := e, naking := false }).send (.lctrl l 1 e 0)).send (.lctrl l 3 (creditKey m.cls m.mtype) (flitsOf m))

/-- Whether a link carries messages to the module (R357, R358, R374). -/
def State.carries (s : State) (l : Nat) : Bool :=
  s.assigned && (s.linkState l = lsUp || s.linkState l = lsDraining || s.linkState l = lsDrained)

/-! ### Routing (R359 to R362) -/

/-- The entry of a die's table for a vertex (R359). -/
def State.routeEntry (s : State) (d v : Nat) : Nat :=
  let e := if v / 4096 = s.vertex / 4096 then v % 4096 else 0xFF0 + v / 4096
  lane 48 e (s.nat (oRouteTable d))

/-- The alternatives of an entry in list order (R359). -/
def altsOf (e : Nat) : List Nat := (List.range 4).map fun i => lane 8 i e

/-- Whether an alternative is usable (R360). -/
def State.usable (s : State) (a : Nat) : Bool := a.testBit 7 && a % 64 < 48 && s.linkState (a % 64) = lsUp

/-- The class in which a message leaves through an alternative (R362). -/
def classVia (cls a : Nat) : Nat := if a.testBit 6 then 1 else cls

/-- Free credits of an alternative's link for a message (R360). -/
def State.freeCredits (s : State) (m : PMsg) (a : Nat) : Nat :=
  Tbl.get 0 (s.link (a % 64)).credits (creditKey (classVia m.cls a) m.mtype)

/-- The alternative that an entry gives a message (R360). -/
def State.chooseAlt (s : State) (e : Nat) (m : PMsg) : Option Nat :=
  let us := (altsOf e).filter fun a => s.usable a
  if !e.testBit 47 then none
  else if e.testBit 46 then us.head?
  else us.foldl (fun (b : Option Nat) a =>
    match b with
    | none => some a
    | some x => if s.freeCredits m x < s.freeCredits m a then some a else some x) none

/-- A message put on the link that a die's table gives it, and the link; none, counted, where there is none (R360). -/
def State.routeOut (s : State) (d : Nat) (m : PMsg) : State × Option Nat :=
  match s.chooseAlt (s.routeEntry d m.dv) m with
  | none => (s.bump 4 oNoRouteDrops 1, none)
  | some a =>
    let l := a % 64
    let m := { m with cls := classVia m.cls a }
    ((s.setLink l { s.link l with queue := (s.link l).queue ++ [(flitsOf m, m)] }).pumpAll l, some l)

/-- MESSAGE_FORWARD (R361): a message for another module goes on with one hop less, unchanged otherwise. -/
def State.forward (s : State) (l : Nat) (m : PMsg) : State :=
  if !s.carries l || m.dv = s.vertex then s
  else
    let s := s.flitsIn l m
    if m.hops = 0 then s.bump 4 oHopDrops 1
    else
      match s.routeOut (l / 6) { m with hops := m.hops - 1 } with
      | (t, none) => t
      | (t, some _) => t.bump 8 oForwardedBytes (256 * flitsOf m)

/-- ROUTE_SET's effect (R359, R376): one entry of one die. -/
def State.setRoute (s : State) (v : Nat) : State :=
  let k := oRouteTable (bits 63 61 v)
  let t := putLane 48 (bits 60 49 v) (s.nat k) (bits 47 0 v)
  if t = s.nat k then s else (s.put k t).changed k

/-- Whether ROUTE_SET takes a value: reserved bits are 0, and every alternative in use names a link (R359). -/
def routeOk (v : Nat) : Bool :=
  !v.testBit 48 && bits 45 32 v = 0 && (altsOf v).all fun a => !a.testBit 7 || a % 64 < 48

/-- SOLE_ROUTES (R374, R377): entries on all dies whose only usable alternative is the link. -/
def State.soleRoutes (s : State) (l : Nat) : Nat :=
  forUpTo 8 0 fun n d =>
    let t := s.nat (oRouteTable d)
    if t = 0 then n
    else n + ((List.range 4096).filter fun e =>
      let us := (altsOf (lane 48 e t)).filter fun a => s.usable a
      (lane 48 e t).testBit 47 && !us.isEmpty && us.all fun a => a % 64 = l).length

/-! ### Draining (R374, R455) -/

/-- LINK_CTRL's effect (R374). -/
def State.linkCtrl (s : State) (l v : Nat) : State :=
  let st := s.linkState l
  match v with
  | 1 => if st = lsUp then (s.setLink l { s.link l with drainSince := s.now }).put (oLinkState l) lsDraining else s
  | 2 => if st = lsDraining || st = lsDrained then
      ((s.setLink l { s.link l with latchDrain := false }).put (oLinkState l) lsUp).pumpAll l else s
  | _ => s.retrain l

/-- LINK_DRAINED (R374): every message begun on the link has been sent, and its replay buffer is empty. A message that has not begun on it leaves it,
and those not acknowledged end to end whose last transmission left through it are to be sent again (R366). -/
def State.linkDrained (s : State) (l : Nat) : State :=
  let x := s.link l
  if s.linkState l = lsDraining && (x.queue.all fun q => flitsOf q.2 ≤ q.1) && x.replay.isEmpty then
    ((s.setLink l { x with queue := [] }).put (oLinkState l) lsDrained).linkLost l
  else s

/-- DRAIN_TIMEOUT (R374): DRAINED at once, and what is not acknowledged is sent again; messages not begun on it leave it. -/
def State.drainTimeout (s : State) (l : Nat) : State :=
  if s.linkState l = lsDraining then
    let s := s.atTime ((s.link l).drainSince + s.nat oDrainTimeout)
    let x := s.link l
    ((s.setLink l { x with queue := x.queue.filter fun q => q.1 < flitsOf q.2 }).put (oLinkState l) lsDrained).linkLost l
  else s

/-! ### The commands -/

/-- LINK_TRAINING_START (R358). -/
def execLinkTrainingStart (l : Nat) (s : State) : Res := onUnit s (isLink l) (s.trainingStart l)
/-- LINK_TRAINED (R358). -/
def execLinkTrained (l : Nat) (s : State) : Res := onUnit s (isLink l) (s.linkTrained l)
/-- HELLO_SEND (R358). -/
def execHelloSend (l : Nat) (s : State) : Res := onUnit s (isLink l) (s.helloSend l)
/-- HELLO (R358). -/
def execHello (l vertex nlink : Nat) (s : State) : Res := onUnit s (isLink l) (s.hello l vertex nlink)
/-- LCTRL_ACK (R355). -/
def execLctrlAck (l ackseq : Nat) (s : State) : Res := onUnit s (isLink l) (s.lctrlAck l ackseq)
/-- LCTRL_CREDIT (R356). -/
def execLctrlCredit (l cls vc n : Nat) (s : State) : Res := onUnit s (isLink l) (s.lctrlCredit l cls vc n)
/-- MESSAGE_FORWARD (R361). -/
def execMessageForward (l : Nat) (m : PMsg) (s : State) : Res := onUnit s (isLink l) (s.forward l m)
/-- FLIT_CRC_FAIL (R355). -/
def execFlitCrcFail (l : Nat) (s : State) : Res := onUnit s (isLink l) (s.flitCrcFail l)

end Sys2Proof.Machine
end

