-- ==== Sys2Proof/Machine/Arcs.lean ====
section
/-! DEFINITION. Arcs and the perimeter transport (R363 to R373): their creation and end, sealing and verifying, numbered messages and their application,
resending, KEYWAIT, and resolving after a role-epoch change. -/

namespace Sys2Proof.Machine

/-! ### Ends of commands and arcs -/

/-- A command with a message on a lost arc ends with a code (R366, R370, R373). -/
def State.failCmd (s : State) (key aseq code : Nat) : State :=
  match (s.ring key).accepted.find? fun c => c.aseq = aseq with
  | none => s
  | some c =>
    if (c.ended.map fun e => e.1).getD 2 ≠ 2 then s
    else if c.ended.isNone && c.op = 3 then s.failCopy (s.ring key).engine c code
    else if c.ended.isNone && s.shardsOn key aseq then
      forUpTo 96 s fun s k =>
        match (s.core k).shard with
        | some h => if h.ring = key && h.aseq = aseq then s.failShard k code else s
        | none => s
    else s.setCmd key aseq fun c => { c with ended := some (4, code) }

/-- The commands with unacknowledged messages on an arc end with a code; the messages belong to none any more. -/
def State.failArc (s : State) (slot code : Nat) : State :=
  let a := s.arc slot
  let cs := ((a.unacked.filter fun t => t.ring ≠ 0).map fun t => (t.ring, t.aseq)).dedup
  let s := s.setArc slot { a with unacked := a.unacked.map fun (t : TxMsg) => { t with ring := 0, aseq := 0 } }
  cs.foldl (fun (s : State) c =>
    let n := (a.unacked.filter fun t => t.ring = c.1 && t.aseq = c.2).length
    (s.setCmd c.1 c.2 fun c => { c with arcWait := c.arcWait - n }).failCmd c.1 c.2 code) s

/-- The same where the far end's receive state is gone: a request that it applied and whose answer can no longer come counts as unacknowledged. -/
def State.loseArc (s : State) (slot code : Nat) : State :=
  let qs := s.peers.filter fun (q : PeerReq) => q.arc = slot && q.data.isNone
  let t := { s with peers := s.peers.filter fun (q : PeerReq) => !(q.arc = slot && q.data.isNone) }.failArc slot code
  ((qs.filter fun (q : PeerReq) => q.ring ≠ 0).map fun (q : PeerReq) => (q.ring, q.aseq)).dedup.foldl
    (fun (s : State) c => s.failCmd c.1 c.2 code) t

/-- The instances of which an arc is a remote arc break (R343). -/
def State.breakRemote (s : State) (slot : Nat) : State :=
  forUpTo 64 s fun s i =>
    if (s.remotes i).any (fun h => hSlot h = slot && hKind h = 3 && s.fresh h) && s.ctr (oChordState i) ≠ 3 then s.breakChord i else s

/-- An arc becomes BROKEN (R370, R373). -/
def State.breakArc (s : State) (slot code : Nat) : State :=
  let s := s.breakRemote slot
  let s := s.loseArc slot code
  s.setArc slot { s.arc slot with state := 3, unacked := [] }

/-! ### Creation and end (R279, R363, R364, R372) -/

/-- ARC-CREATE (R279, R363, R364): the end takes the next epoch of its slot. -/
def State.arcCreate (s : State) (fn v : Nat) : State × CtlRes :=
  let kind := bits 1 0 (ctlW v 0)
  let h := bits 31 0 (ctlW v 1)
  let w2 := ctlW v 2
  let name := ctlW v 3
  let us := ctlW v 4
  let vertex := bits 15 0 w2
  let p := (s.ctx (hSlot h)).part
  let c := s.ctlCtx fn h
  let operandsOk :=
    if kind = 0 then w2 = 0 && name = 0 && us = 0
    else
      vertex ≠ s.vertex && !unassignable vertex && bits 31 16 w2 < 16 && bits 63 32 w2 = 0 && name ≠ 0 &&
        (us = 0 || (5 ≤ us && us ≤ 10000)) &&
        !(s.arcs.any fun e => e.2.live && e.2.kind ≠ 0 && e.2.vertex = vertex && e.2.name = name) &&
        !(kind = 1 && (s.carrier h vertex).isSome)
  if kind = 3 || ctlW v 5 ≠ 0 then s.refuse 0x0912
  else if c ≠ 0 then s.refuse c
  else if !operandsOk then s.refuse 0x0912
  else
    let slot := lowestFree ((s.arcs.filter fun e => e.2.live).map fun e => e.1)
    if 16384 ≤ slot then s.refuse 0x0910
    else
      let epoch := ((s.arc slot).epoch + 1) % 65536
      let a : Arc := { Arc.reset with
        live := true, kind := kind, ctx := h, part := p, fn := fn, vertex := vertex, keySlot := bits 19 16 w2, name := name, rto := 1000 * us
        state := if kind = 0 then 1 else 0, epoch := epoch, keptFrom := epoch, ctlAt := s.now, ce := slot % 32 }
      let s := s.setArc slot a
      (s, 0, s.handle 3 slot, 0)

/-- ARC-DESTROY (R279, R343, R373): commands with messages on it end with ARC-STALE. -/
def State.arcDestroy (s : State) (fn v : Nat) : State × CtlRes :=
  let h := bits 31 0 (ctlW v 0)
  let slot := hSlot h
  let c := s.ctlHandle fn 3 h (s.arc slot).live (s.arc slot).part
  if c ≠ 0 then s.refuse c
  else
    let s := s.breakArc slot 0x0C02
    let s := s.setArc slot { Arc.reset with epoch := (s.arc slot).epoch }
    (({ s with peers := s.peers.filter fun q => q.arc ≠ slot }).nextGen 3 slot, 0, 0, 0)

/-! ### Sealing and sending (R353, R369) -/

/-- The resend timeout of an arc (R363, R366). -/
def State.arcRto (s : State) (a : Arc) : Nat := if a.rto = 0 then s.nat oArcRto else a.rto

/-- The key slot of an arc. -/
def State.keyOf (s : State) (a : Arc) : KeySlot := Tbl.get KeySlot.reset s.keys (16 * a.part + a.keySlot)

/-- A message sealed under the current key of an arc's slot, with the next counter of the die of origin (R369). -/
def State.seal (s : State) (a : Arc) (m : PMsg) : State × PMsg :=
  let k := s.keyOf a
  let d := a.ce / 4
  let n := (Tbl.get 0 k.kctr d + 1) % 2 ^ 64
  ({ s with keys := Tbl.set s.keys (16 * a.part + a.keySlot) { k with kctr := Tbl.set k.kctr d n } },
    { m with sv := s.vertex, hops := s.nat oHopLimit, sdie := d, kctr := n, key := k.cur, intact := true })

/-- A control message of an arc end, sealed and sent once; it is kept nowhere (R364, R365, R373). -/
def State.sendCtl (s : State) (slot : Nat) (m : PMsg) : State :=
  let a := s.arc slot
  if !s.assigned || s.noKey a then s
  else
    let x := s.seal a { m with dv := a.vertex, sarc := slot }
    (x.1.routeOut (a.ce / 4) x.2).1

/-- An ACK with the highest number applied (R365). -/
def State.sendAck (s : State) (slot : Nat) : State :=
  let a := s.arc slot
  if s.noKey a then s else (s.setArc slot { a with sinceAck := 0 }).sendCtl slot { blankMsg with mtype := 6, darc := a.darc, depoch := a.depoch, mseq := a.applied }

/-- OPEN: it carries the name, the kind in OPX, and the end's own slot and epoch (R364). -/
def State.sendOpen (s : State) (slot : Nat) : State :=
  let a := s.arc slot
  (s.setArc slot { a with ctlAt := s.now }).sendCtl slot { blankMsg with mtype := 8, depoch := a.epoch, opx := a.kind, name := a.name }

/-- RESOLVE: it carries the name, and the slot and epoch by which the sender knows the far end (R373). -/
def State.sendResolve (s : State) (slot : Nat) : State :=
  let a := s.arc slot
  (s.setArc slot { a with ctlAt := s.now }).sendCtl slot
    { blankMsg with mtype := 10, darc := a.darc, depoch := a.depoch, name := a.name }

/-- A NACK to the sender of a message (R370 to R372): it carries no tag. -/
def State.sendNack (s : State) (l opx : Nat) (m : PMsg) : State :=
  let n := if m.mtype ≤ 5 || m.mtype = 12 then m.mseq else 0
  (s.routeOut (l / 6) { blankMsg with
    dv := m.sv, sv := s.vertex, hops := s.nat oHopLimit, mtype := 7, darc := m.sarc, sarc := m.darc, mseq := n, sdie := l / 6, opx := opx }).1

/-- The first message of an arc that satisfies a test is transmitted: it takes a new counter, and a route chosen afresh (R366). -/
def State.transmit (s : State) (slot : Nat) (f : TxMsg → Bool) : State :=
  let a := s.arc slot
  match a.unacked.findIdx? f with
  | none => s
  | some i =>
    match a.unacked[i]? with
    | none => s
    | some t =>
      if !s.assigned || s.noKey a then s
      else
        let x := s.seal a { t.m with darc := a.darc, depoch := a.depoch }
        let y := x.1.routeOut (a.ce / 4) x.2
        let s := y.1
        let s := s.setArc slot { s.arc slot with
          unacked := setNth a.unacked i { t with m := { t.m with kctr := x.2.kctr }, sent := true, lastTx := s.now, link := y.2.getD 64 } }
        if t.m.kctr ≠ 0 then s.bump 8 oResends 1
        else
          let n := t.m.data.length
          let s := if a.part < 16 then s.bump 8 (oLinkBytes a.part) n else s
          if t.ring = 0 then s else s.setCmd t.ring t.aseq fun c => { c with linkBytes := c.linkBytes + n }

/-- MESSAGE_TRANSMIT (R356, R365): the first message not sent yet, on an OPEN arc that is not KEYWAIT. -/
def State.messageTransmit (s : State) (slot : Nat) : State :=
  let a := s.arc slot
  if a.live && a.kind ≠ 0 && a.state = 1 && !a.keywait then s.transmit slot fun t => !t.sent else s

/-! ### Verifying (R369 to R372) -/

/-- Whether a message's tag is valid under an arc end's current or previous key (R369, R432). -/
def State.tagOk (s : State) (a : Arc) (m : PMsg) : Bool :=
  m.intact && m.key ≠ 0 && (m.key = (s.keyOf a).cur || m.key = (s.keyOf a).prev)

/-- A message verified for an arc end: what the refusal of one sends, and whether it is valid (R370, R371). -/
def State.verify (s : State) (l slot : Nat) (m : PMsg) : State × Bool :=
  let a := s.arc slot
  let k := s.keyOf a
  if k.cur = 0 then (s.sendNack l 3 m, false)
  else if s.tagOk a m then (s, true)
  else
    let s := s.bump 4 oAuthFails 1
    (s.sendNack l (if k.installs = 1 && k.prev = 0 then 3 else 2) m, false)

/-- A message that came for an end of the module (R353, R372): its flits are taken; one whose DARC and DEPOCH name no live end is answered NACK-STALE;
a valid one is given to `f` with its slot. -/
def State.arcIn (s : State) (l : Nat) (m : PMsg) (ty : Nat) (f : State → Nat → State) : State :=
  if !s.carries l || m.dv ≠ s.vertex || m.mtype ≠ ty then s
  else
    let s := s.flitsIn l m
    let a := s.arc m.darc
    if !a.live || a.kind = 0 || a.epoch ≠ m.depoch || a.vertex ≠ m.sv then (s.sendNack l 1 m).bump 4 oNackStale 1
    else
      match s.verify l m.darc m with
      | (t, true) => f t m.darc
      | (t, false) => t

/-- The end that a name and the sender's vertex give (R364, R373). -/
def State.arcNamed (s : State) (m : PMsg) : Option Nat :=
  (s.arcs.find? fun e => e.2.live && e.2.kind ≠ 0 && e.2.name = m.name && e.2.vertex = m.sv).map fun e => e.1

/-- A message that names an arc instead of an end. -/
def State.nameIn (s : State) (l : Nat) (m : PMsg) (ty : Nat) (f : State → Nat → State) : State :=
  if !s.carries l || m.dv ≠ s.vertex || m.mtype ≠ ty then s
  else
    let s := s.flitsIn l m
    match s.arcNamed m with
    | none => s
    | some slot =>
      match s.verify l slot m with
      | (t, true) => f t slot
      | (t, false) => t

/-! ### Applying (R365, R367, R368) -/

/-- The access of an arc end: its copy engine's, told apart from that engine's copies (R261, R368). -/
def arcAccess (a : Arc) (slot kind va : Nat) : Access :=
  { ctx := a.ctx, tag := 0, engine := 0x100 + a.ce, source := 0x80 + 256 * (2 ^ 40 + slot), kind := kind, va := va, rep := 0, since := none }

/-- The requester at the homes for an arc end's accesses. -/
def arcAgent (a : Arc) : Agent := .link (6 * (a.ce / 4))

/-- A reduction of a message's data at its home (R192): one operation on each 128-byte sector, of the elements that the data hold. -/
def State.reduceAt (s : State) (r : Agent) (op : AtomOp) (pa n v : Nat) : State :=
  (List.range (n / 128 + 2)).foldl (fun (s : State) j =>
    let b := pa / 128 * 128 + 128 * j
    let ls := (List.range 32).filter fun i => pa ≤ b + 4 * i && b + 4 * i < pa + n
    if ls.isEmpty then s
    else (s.agentAtom r op b 4 (packLanes 32 ((List.range 32).map fun i =>
      if ls.contains i then lane 32 ((b + 4 * i - pa) / 4) v else 0)) (maskOf ls)).1) s

/-- Where a message's data go: with ADDRK 1 a physical address, which must lie in a region of the arc's partition (R367); with ADDRK 0 an address of
the far context (R368). `none` while it must wait; `bad` stands for an access that R235 answers. -/
def State.arcPlace (s : State) (a : Arc) (slot kind : Nat) (m : PMsg) (n : Nat) : State × Option Target :=
  if m.addrk = 1 then
    if !s.inRegion a.part m.addr (max n 1) then (s, some (.mem (2 ^ 56) false))
    else if s.rangeBusy m.addr n then (s, none)
    else (s, some (.mem m.addr false))
  else
    match s.translate (arcAccess a slot kind m.addr) with
    | (t, none) => (t, none)
    | (t, some (.mem pa c)) => if t.rangeBusy pa n then (t, none) else (t, some (.mem pa c))
    | (t, some x) => (t, some x)

/-- Whether a signal record's word can be reached (R333, R354). -/
def State.sigReady (s : State) (a : Arc) (slot : Nat) (m : PMsg) : State × Bool :=
  match m.sig with
  | none => (s, true)
  | some (va, _) => let x := s.translate (arcAccess a slot 2 va); (x.1, x.2.isSome)

/-- The signal record performed after the data (R333, R365). -/
def State.sigRecord (s : State) (a : Arc) (m : PMsg) : State :=
  match m.sig with
  | none => s
  | some (va, v) => s.addSignal ⟨a.ctx, va, v, arcAgent a, 0, 0⟩

/-- Data written or reduced at a place. What leads to a further vertex goes on with the context's traffic to it. -/
def State.arcPut (s : State) (a : Arc) (m : PMsg) (tg : Target) : State :=
  let n := m.data.length
  let v := leNat m.data
  let red := m.mtype = 1
  match tg with
  | .mem pa _ =>
    if pa = 2 ^ 56 then s.bump 4 oReservedAccesses 1
    else if red then s.reduceAt (arcAgent a) (copyRed m.opx) pa n v
    else s.agentWrite (arcAgent a) pa n v
  | .peer x pa =>
    match s.peerArc a.ctx x with
    | .ok slot => (s.arcSend slot m.mtype 1 pa m.opx 0 m.data none 0 0).getD s
    | .error _ => s

/-- A message applied (R365): the state, and whether it could be. A read or atomic is not applied while its answer finds no room. -/
def State.applyMsg (s : State) (slot : Nat) (m : PMsg) : State × Bool :=
  let a := s.arc slot
  let n := m.data.length
  match m.mtype with
  | 0 | 1 =>
    (match s.sigReady a slot m with
      | (t, false) => (t, false)
      | (t, true) =>
        if n = 0 then (t.sigRecord a m, true)
        else
          match t.arcPlace a slot 5 m n with
          | (t, none) => (t, false)
          | (t, some tg) => ((t.arcPut a m tg).sigRecord a m, true))
  | 2 =>
    if 256 ≤ a.unacked.length then (s, false)
    else
      (match s.arcPlace a slot 4 m m.len with
        | (t, none) => (t, false)
        | (t, some (.mem pa _)) =>
          let x := if pa = 2 ^ 56 then (t.bump 4 oReservedAccesses 1, 0, true) else t.agentRead (arcAgent a) pa m.len
          ((x.1.arcSend slot 3 0 0 (if x.2.2 then 1 else 0) 0 (leBytes m.len x.2.1) none 0 0).getD x.1, true)
        | (t, some (.peer _ _)) => ((t.arcSend slot 3 0 0 1 0 (leBytes m.len 0) none 0 0).getD t, true))
  | 3 | 5 =>
    let part := (s.peers.find? fun q => q.arc = slot && q.data.isNone).map fun q => (q.ring, q.aseq)
    let s := if a.part < 16 then s.bump 8 (oLinkBytes a.part) n else s
    let s := match part with
      | some (r, q) => s.setCmd r q fun c => { c with linkBytes := c.linkBytes + n }
      | none => s
    (s.peerAnswer slot (leNat m.data) (m.opx = 1), true)
  | 4 =>
    if 256 ≤ a.unacked.length then (s, false)
    else
      let w := if atomOp m.opx = .cas then n / 2 else n
      (match s.arcPlace a slot 2 m w with
        | (t, none) => (t, false)
        | (t, some (.mem pa _)) =>
          let x := if pa = 2 ^ 56 then (t.bump 4 oReservedAccesses 1, 0, true)
            else t.agentAtom (arcAgent a) (atomOp m.opx) pa w (leNat (m.data.take w)) (leNat (m.data.drop w))
          ((x.1.arcSend slot 5 0 0 (if x.2.2 then 1 else 0) 0 (leBytes w x.2.1) none 0 0).getD x.1, true)
        | (t, some (.peer _ _)) => ((t.arcSend slot 5 0 0 1 0 (leBytes w 0) none 0 0).getD t, true))
  | 12 =>
    let is_ := (List.range 64).filter fun i => (s.remotes i).any fun h => hSlot h = slot && hKind h = 3 && s.fresh h
    (if is_.isEmpty then s.bump 4 oRemoteErrors 1 else is_.foldl (fun (s : State) i => s.remoteArrive i slot m.addr) s, true)
  | _ => (s, true)

/-- Messages of the reorder window applied in the order of their numbers, `n` at most; after every 16 an ACK goes (R365). -/
def State.drainArc (s : State) (slot : Nat) : Nat → State
  | 0 => s
  | n + 1 =>
    let a := s.arc slot
    let next := (a.applied + 1) % 2 ^ 32
    match a.window.find? fun m => m.mseq = next with
    | none => s
    | some m =>
      match s.applyMsg slot m with
      | (t, false) => t
      | (t, true) =>
        let a := t.arc slot
        let t := t.setArc slot { a with
          applied := next
          window := a.window.filter fun x => x.mseq ≠ next
          sinceAck := a.sinceAck + 1
          ackAt := if a.sinceAck = 0 then t.now else a.ackAt }
        (if 16 ≤ a.sinceAck + 1 then t.sendAck slot else t).drainArc slot n

/-- Everything of the window that can be applied. -/
def State.drainAll (s : State) (slot : Nat) : State := s.drainArc slot 256

/-- A numbered message (R365): held in the window of 256 messages, discarded beyond it, or answered with a fresh ACK where it has been applied. -/
def State.numbered (s : State) (slot : Nat) (m : PMsg) : State :=
  let a := s.arc slot
  let d := (m.mseq + 2 ^ 32 - a.applied) % 2 ^ 32
  if d = 0 || 2 ^ 31 ≤ d then (s.drainAll slot).sendAck slot
  else if 256 < d then s
  else
    let w := if a.window.any fun x => x.mseq = m.mseq then a.window else a.window ++ [m]
    (s.setArc slot { a with window := w }).drainAll slot

/-! ### Acknowledgements and timers (R365, R366) -/

/-- Messages up to a number are acknowledged. A verified answer ends KEYWAIT (R371). An ARRIVE that found no room goes out (R343). -/
def State.ackUpTo (s : State) (slot n : Nat) : State :=
  let a := s.arc slot
  let past (q : Nat) : Bool := (n + 2 ^ 32 - q) % 2 ^ 32 < 2 ^ 31
  if 2 ^ 31 ≤ (a.next + 2 ^ 32 - n) % 2 ^ 32 then s
  else
    let gone := a.unacked.filter fun t => past t.m.mseq
    let s := s.setArc slot { a with
      unacked := a.unacked.filter fun t => !past t.m.mseq
      keywait := a.keywait && gone.isEmpty }
    let s := gone.foldl (fun (s : State) t => if t.ring = 0 then s else s.setCmd t.ring t.aseq fun c => { c with arcWait := c.arcWait - 1 }) s
    if gone.isEmpty then s
    else forUpTo 64 s fun s i => if (s.remotes i).any (fun h => hSlot h = slot) then (s.tryRelease i).tryRelease i else s

/-- ACK_TIMER (R365): 2 µs after a message was applied; what waited in the window is tried again. -/
def State.ackTimer (s : State) (slot : Nat) : State :=
  let a := s.arc slot
  if !a.live || a.kind = 0 then s
  else
    let s := (if a.sinceAck = 0 then s else s.atTime (a.ackAt + 2000)).drainAll slot
    if (s.arc slot).sinceAck = 0 then s else s.sendAck slot

/-- The arc becomes UNREACHABLE (R366). -/
def State.unreachable (s : State) (slot : Nat) : State :=
  let s := s.failArc slot 0x0C01
  s.setArc slot { s.arc slot with state := 2, ctlAt := s.now }

/-- ARC_RTO_EXPIRE (R366, R371, R373). What goes out of a KEYWAIT arc counts toward no limit. -/
def State.arcRtoExpire (s : State) (slot : Nat) : State :=
  let a := s.arc slot
  let rto := s.arcRto a
  let limit := s.nat oArcResendLimit
  if !a.live || a.kind = 0 then s
  else if a.state = 4 then
    let s := s.atTime (a.ctlAt + rto)
    if a.keywait then s.sendResolve slot
    else if limit ≤ a.resolves then s.breakArc slot 0x0C02
    else (s.setArc slot { a with resolves := a.resolves + 1 }).sendResolve slot
  else if a.state ≠ 1 then s
  else if a.keywait then
    match a.unacked.head? with
    | none => s
    | some t => (s.atTime (t.lastTx + rto)).transmit slot fun x => x.m.mseq = t.m.mseq
  else
    match a.unacked.find? fun t => t.sent with
    | none => s
    | some _ =>
      let due := (a.unacked.filter fun t => t.sent).foldl (fun (n : Nat) t => min n (t.lastTx + rto)) (2 ^ 64)
      match a.unacked.find? fun t => t.sent && t.lastTx + rto = due with
      | none => s
      | some t =>
        let s := s.atTime due
        if limit ≤ t.resends then s.unreachable slot
        else
          let s := s.setArc slot { a with
            unacked := a.unacked.map fun (x : TxMsg) => if x.m.mseq = t.m.mseq then { x with resends := x.resends + 1 } else x }
          s.transmit slot fun x => x.m.mseq = t.m.mseq

/-- ARC_RETRY_TIMER (R364, R366): every 1 ms OPEN from a PENDING arc and RESOLVE from an UNREACHABLE one. -/
def State.arcRetry (s : State) (slot : Nat) : State :=
  let a := s.arc slot
  if !a.live || a.kind = 0 then s
  else if a.state = 0 then (s.atTime (a.ctlAt + 1000000)).sendOpen slot
  else if a.state = 2 then (s.atTime (a.ctlAt + 1000000)).sendResolve slot
  else s

/-! ### Answers to messages (R364, R370 to R373) -/

/-- The sender's end that a NACK names. -/
def State.nackIn (s : State) (l : Nat) (m : PMsg) (opx : Nat) (f : State → Nat → State) : State :=
  if !s.carries l || m.dv ≠ s.vertex || m.mtype ≠ 7 || m.opx ≠ opx then s
  else
    let s := s.flitsIn l m
    let a := s.arc m.darc
    if a.live && a.kind ≠ 0 && a.vertex = m.sv then f s m.darc else s

/-- NACK-STALE (R373): the end stops sending and resolves. -/
def State.nackStale (s : State) (slot : Nat) : State :=
  let a := s.arc slot
  if a.state ≠ 1 then s else (s.setArc slot { a with state := 4, resolves := 1 }).sendResolve slot

/-- NACK-AUTH (R370): the message is to be sent again, until ARC_RESEND_LIMIT of them have come for it. In KEYWAIT they count for nothing (R371). -/
def State.nackAuth (s : State) (slot n : Nat) : State :=
  let a := s.arc slot
  match a.unacked.find? fun t => t.m.mseq = n && t.sent with
  | none => s
  | some t =>
    if a.keywait then s
    else if s.nat oArcResendLimit ≤ t.nacks + 1 then s.breakArc slot 0x0C03
    else s.setArc slot { a with
      unacked := a.unacked.map fun (x : TxMsg) => if x.m.mseq = n then { x with nacks := x.nacks + 1, sent := false } else x }

/-- OPEN (R364): an arc of the same kind and name answers with its own slot and epoch, and is OPEN. Where the peer's end is another than it knew,
its numbers begin again. -/
def State.openIn (s : State) (slot : Nat) (m : PMsg) : State :=
  let a := s.arc slot
  if m.opx ≠ a.kind then s
  else
    let new := a.darc ≠ m.sarc || a.depoch ≠ m.depoch
    let b := { a with darc := m.sarc, depoch := m.depoch, state := if a.state = 0 then 1 else a.state }
    let s := s.setArc slot (if new then { b with applied := 0, window := [], sinceAck := 0 } else b)
    s.sendCtl slot { blankMsg with mtype := 9, darc := slot, depoch := a.epoch, opx := a.kind, name := a.name }

/-- OPEN-RSP (R364): a PENDING arc is OPEN. -/
def State.openRsp (s : State) (slot : Nat) (m : PMsg) : State :=
  let a := s.arc slot
  if a.state ≠ 0 then s else s.setArc slot { a with darc := m.darc, depoch := m.depoch, state := 1, keywait := false }

/-- RESOLVE (R373): the answer carries the end's slot and epoch, the highest number applied, and KEPT, which is 1 where the epoch by which the sender
knew the end is not from before its receive state began. -/
def State.resolveIn (s : State) (slot : Nat) (m : PMsg) : State :=
  let a := s.arc slot
  let kept := m.darc = slot && (m.depoch + 65536 - a.keptFrom) % 65536 ≤ (a.epoch + 65536 - a.keptFrom) % 65536
  s.sendCtl slot { blankMsg with
    mtype := 11, darc := slot, depoch := a.epoch, mseq := a.applied, opx := if kept then 1 else 0, name := a.name }

/-- RESOLVE-RSP (R373, R366). -/
def State.resolveRsp (s : State) (slot : Nat) (m : PMsg) : State :=
  let a := s.arc slot
  if a.state ≠ 2 && a.state ≠ 4 then s
  else
    let b := { a with darc := m.darc, depoch := m.depoch, state := 1, resolves := 0, keywait := false }
    if m.opx.testBit 0 then
      let s := (s.setArc slot b).ackUpTo slot m.mseq
      s.setArc slot { s.arc slot with
        unacked := (s.arc slot).unacked.map fun (t : TxMsg) => { t with sent := false, resends := 0 } }
    else
      let s := (s.setArc slot b).loseArc slot 0x0C02
      s.setArc slot { s.arc slot with next := 0, unacked := [], applied := 0, window := [], sinceAck := 0 }

/-! ### The commands -/

/-- ARC_CREATE (R279, R363). -/
def execArcCreate (fn : Nat) (s : State) : Res := onUnit s (isFn fn) (s.control fn 0x47 [(0, 63, 2), (1, 63, 32)] fun s v => s.arcCreate fn v)
/-- ARC_DESTROY (R279). -/
def execArcDestroy (fn : Nat) (s : State) : Res :=
  onUnit s (isFn fn) (s.control fn 0x48 [(0, 63, 32), (1, 63, 0), (2, 63, 0), (3, 63, 0), (4, 63, 0), (5, 63, 0)] fun s v => s.arcDestroy fn v)
/-- MESSAGE_TRANSMIT (R356). -/
def execMessageTransmit (arc : Nat) (s : State) : Res := .next (s.messageTransmit arc)
/-- MSG_WRITE (R365). -/
def execMsgWrite (l : Nat) (m : PMsg) (s : State) : Res := onUnit s (isLink l) (s.arcIn l m 0 fun s a => s.numbered a m)
/-- MSG_REDUCE (R365). -/
def execMsgReduce (l : Nat) (m : PMsg) (s : State) : Res := onUnit s (isLink l) (s.arcIn l m 1 fun s a => s.numbered a m)
/-- MSG_READ_REQ (R365). -/
def execMsgReadReq (l : Nat) (m : PMsg) (s : State) : Res := onUnit s (isLink l) (s.arcIn l m 2 fun s a => s.numbered a m)
/-- MSG_READ_DATA (R365). -/
def execMsgReadData (l : Nat) (m : PMsg) (s : State) : Res := onUnit s (isLink l) (s.arcIn l m 3 fun s a => s.numbered a m)
/-- MSG_ATOMIC (R365). -/
def execMsgAtomic (l : Nat) (m : PMsg) (s : State) : Res := onUnit s (isLink l) (s.arcIn l m 4 fun s a => s.numbered a m)
/-- MSG_ATOMIC_RSP (R365). -/
def execMsgAtomicRsp (l : Nat) (m : PMsg) (s : State) : Res := onUnit s (isLink l) (s.arcIn l m 5 fun s a => s.numbered a m)
/-- MSG_ARRIVE (R343, R365). -/
def execMsgArrive (l : Nat) (m : PMsg) (s : State) : Res := onUnit s (isLink l) (s.arcIn l m 12 fun s a => s.numbered a m)
/-- MSG_ACK (R365). -/
def execMsgAck (l : Nat) (m : PMsg) (s : State) : Res := onUnit s (isLink l) (s.arcIn l m 6 fun s a => s.ackUpTo a m.mseq)
/-- ACK_TIMER (R365). -/
def execAckTimer (arc : Nat) (s : State) : Res := .next (s.ackTimer arc)
/-- NACK_STALE (R373). -/
def execNackStale (l : Nat) (m : PMsg) (s : State) : Res := onUnit s (isLink l) (s.nackIn l m 1 fun s a => s.nackStale a)
/-- NACK_AUTH (R370). -/
def execNackAuth (l : Nat) (m : PMsg) (s : State) : Res := onUnit s (isLink l) (s.nackIn l m 2 fun s a => s.nackAuth a m.mseq)
/-- NACK_NOKEY (R371). -/
def execNackNokey (l : Nat) (m : PMsg) (s : State) : Res :=
  onUnit s (isLink l) (s.nackIn l m 3 fun s a => s.setArc a { s.arc a with keywait := true })
/-- MSG_OPEN (R364). -/
def execMsgOpen (l : Nat) (m : PMsg) (s : State) : Res := onUnit s (isLink l) (s.nameIn l m 8 fun s a => s.openIn a m)
/-- OPEN_RSP (R364). -/
def execOpenRsp (l : Nat) (m : PMsg) (s : State) : Res := onUnit s (isLink l) (s.nameIn l m 9 fun s a => s.openRsp a m)
/-- RESOLVE (R373). -/
def execResolve (l : Nat) (m : PMsg) (s : State) : Res := onUnit s (isLink l) (s.nameIn l m 10 fun s a => s.resolveIn a m)
/-- RESOLVE_RSP (R373). -/
def execResolveRsp (l : Nat) (m : PMsg) (s : State) : Res := onUnit s (isLink l) (s.nameIn l m 11 fun s a => s.resolveRsp a m)
/-- ARC_RTO_EXPIRE (R366, R371, R373). -/
def execArcRtoExpire (arc : Nat) (s : State) : Res := .next (s.arcRtoExpire arc)
/-- ARC_RETRY_TIMER (R364, R366). -/
def execArcRetryTimer (arc : Nat) (s : State) : Res := .next (s.arcRetry arc)

end Sys2Proof.Machine
end

