-- ==== Sys2Proof/Machine/Doorbells.lean ====
section
/-! DEFINITION. Signal doorbells (R334, R335) and the arrival of a host port at a chord instance (R340). -/

namespace Sys2Proof.Machine

/-- A write to a signal doorbell page that is ignored: REJECTS wraps (R334). -/
def State.reject (s : State) (fn page : Nat) : State :=
  { s with rejects := Tbl.modify 0 s.rejects (4096 * fn + page) fun n => (n + 1) % 2 ^ 32 }

/-- Whether a page is a signal doorbell page (R275). -/
def isSignalPage (page : Nat) : Bool := 3840 ≤ page && page ≤ 4095

/-- The signal that a function may name by a handle (R335). -/
def State.doorSignal (s : State) (fn h : Nat) : Option SigObj :=
  (s.sigOf h).bind fun x =>
    if fn % 16 = 0 || x.part = s.ctr (oFuncPartition fn) then some x else none

/-- WAKE (R331, R335): the waiters with an entry on the signal's word are examined again. -/
def State.wake (s : State) (fn page v : Nat) : State :=
  if !s.up || !isSignalPage page then s
  else
    match s.doorSignal fn (v % 2 ^ 32) with
    | none => s.reject fn page
    | some x => s.examine fun w => w.entry && s.sigPa w.ctx w.va = s.sigPa x.ctx x.va

/-- ADD_HANDLE (R334). -/
def State.nameHandle (s : State) (fn page v : Nat) : State :=
  if !s.up || !isSignalPage page then s
  else { s with addHandle := Tbl.set s.addHandle (4096 * fn + page) (v % 2 ^ 32) }

/-- ADD_VALUE (R335). -/
def State.addValue (s : State) (fn page v : Nat) : State :=
  if !s.up || !isSignalPage page then s
  else
    match s.doorSignal fn (Tbl.get 0 s.addHandle (4096 * fn + page)) with
    | none => s.reject fn page
    | some x => s.addSignal ⟨x.ctx, x.va, v % 2 ^ 64, .host (fn / 16), 0, 0⟩

/-- CHORD_ARRIVE (R335, R340, R341): the function's host port arrives. -/
def State.portArrive (s : State) (fn page v : Nat) : State :=
  if !s.up || !isSignalPage page then s
  else
    let i := bits 5 0 v
    let b := 128 + fn / 16
    let ok := bits 31 6 v = 0 && (fn % 16 = 0 || s.ctr (oFuncPartition fn) = s.objD 0xFF (oOwner i)) &&
      (s.ctr (oMembers i)).testBit b && s.ctr (oChordState i) ≠ 3
    if !ok then s.reject fn page
    else
      match s.arriveChord i b with
      | none => s.reject fn page
      | some t => t

/-! ### What a page reads as (R275, R334) -/

/-- A location of a ring's page: the index that the module writes, and STATE; PROD of a driver-produced ring, CONS of the others, REPLAY and what is
not listed read zero. -/
def ringLocation (driver : Bool) (prod cons state off : Nat) : Nat :=
  match off with
  | 0x000 => if driver then 0 else prod
  | 0x008 => if driver then cons else 0
  | 0x018 => state
  | _ => 0

/-- What a function reads at an offset of one of its BAR2 pages. No read has a side effect. -/
def State.pageRead (s : State) (fn page off : Nat) : Nat :=
  if isSignalPage page then (if off = 0x020 then Tbl.get 0 s.rejects (4096 * fn + page) else 0)
  else if page = 0 then ringLocation true (s.ctl fn).prod (s.ctl fn).cons 0 off
  else
    match s.ringAt fn page with
    | none => 0
    | some key => ringLocation ((s.ring key).kind < 4) (s.ring key).prod (s.ring key).cons (s.ringState key) off

/-- WAKE (R335). -/
def execWake (fn page v : Nat) (s : State) : Res := onUnit s (isFn fn) (s.wake fn page v)
/-- ADD_VALUE (R335). -/
def execAddValue (fn page v : Nat) (s : State) : Res := onUnit s (isFn fn) (s.addValue fn page v)
/-- CHORD_ARRIVE (R340). -/
def execChordArrive (fn page v : Nat) (s : State) : Res := onUnit s (isFn fn) (s.portArrive fn page v)

end Sys2Proof.Machine
end

