-- ==== Sys2Proof/Machine/Lanes.lean ====
section
/-! DEFINITION. The instructions of the lane sets: classes INT, FP32, FP64, CVT, SFU, MOVE and FPENV (R179, R180, R183). -/

namespace Sys2Proof.Machine

/-! ### Shapes -/

/-- An INT row: D = f width A B, with `n` registers an operand. -/
def State.intOp (s : State) (k g : Nat) (i : TInstr) (op : Nat) (w64 : Bool) (f : Nat → Nat → Nat → Nat) : State :=
  let n := intRegs i
  s.laneOp k g i (intForm i op w64) fun x ln y =>
    y.setRegN ln (fDst i) (f (32 * n) (x.regN ln (fA i) n) (opB x i ln n) % 2 ^ (32 * n)) n

/-- A shift by B[4:0], or by B[5:0] in the 64-bit form (R180). -/
def shiftBy (w b : Nat) : Nat := b % w

/-- The relation of SETP's OP (R180): EQ, NE, LT.S, LE.S, LT.U, LE.U. -/
def setpRel (op w a b : Nat) : Bool :=
  match op % 0x40 - 0x28 with
  | 0 => a = b
  | 1 => a ≠ b
  | 2 => sext w a < sext w b
  | 3 => sext w a ≤ sext w b
  | 4 => a < b
  | _ => a ≤ b

/-- A floating-point row that writes a register: `f` takes the format, the attribute and the operands, and answers the pattern and the flags raised. -/
def State.fpLane (s : State) (k g : Nat) (i : TInstr) (op : Nat) (srcs : List Nat) (f : Nat → Rnd → List Nat → Nat × Nat) : State :=
  s.laneOp k g i (fpForm i [op] srcs false) fun x ln y =>
    let r := f (fpFmt i) (rndFor x i) (srcs.zipIdx.map fun r => fpSrc x i ln r.2 r.1)
    (y.setRegN ln (fDst i) r.1 (fpRegs i)).raise ln r.2

/-- Two operands of a list. -/
def two (f : Nat → Nat → Nat × Nat) (l : List Nat) : Nat × Nat := f (l.getD 0 0) (l.getD 1 0)

/-- A SFU row (R179): one operand, no flags, and a draw for what its error bound leaves open. -/
def State.sfuOp (s : State) (k g : Nat) (i : TInstr) (op : Nat) (f : Nat → Nat → Nat) : State :=
  s.threadOp k g i { keys := [0x400 + op], imm := false, modMask := 0, ok := true, regs := [(fDst i, 1), (fA i, 1)], inLock := false }
    fun s x ls => .done ((s.setGroup k g (ls.foldl (fun (y : Group) ln => y.setReg ln (fDst i) (f (x.reg ln (fA i)) (32 * s.free + ln))) x)).drew)

/-- A lane exchange (R180): A of the lane that `f` names from the lane and B, or the lane's own where that is outside 0 to 31 or inactive. B is a signed number, as the immediate is (log entry 85). -/
def State.shfl (s : State) (k g : Nat) (i : TInstr) (op : Nat) (f : Nat → Int → Int) : State :=
  s.laneOp k g i (moveForm op true 0 true ([(fDst i, 1), (fA i, 1)] ++ bRegs i 1)) fun x ln y =>
    let j := f ln (if i.immb then fImm i else sext 32 (x.reg ln (fB i)))
    let src := if 0 ≤ j && j < 32 && x.active.testBit j.toNat then j.toNat else ln
    y.setReg ln (fDst i) (x.reg src (fA i))

/-- Bitwise XOR with a lane exchange's operand: an operand outside 0 to 31 names no lane. -/
def xorLane (ln : Nat) (b : Int) : Int := if 0 ≤ b && b < 32 then ((ln ^^^ b.toNat : Nat) : Int) else -1

/-- The active lanes whose predicate named by MOD [2:0] is true (R180). -/
def voteMask (x : Group) (i : TInstr) : Nat := maskOf ((bitsOf 32 x.active).filter fun ln => x.pred ln (fMod i % 8))

/-- Predicate logic (R180): the predicates named by A[2:0] and B[2:0]. -/
def State.predOp (s : State) (k g : Nat) (i : TInstr) (op : Nat) (f : Bool → Bool → Bool) : State :=
  s.laneOp k g i (moveForm op false 0 (fDst i < 8) []) fun x ln y =>
    y.setPred ln (fDst i) (f (x.pred ln (fA i % 8)) (x.pred ln (fB i % 8)))

/-- A FPENV row. -/
def envForm (i : TInstr) (op : Nat) (imm : Bool) (ok : Bool) (regs : List (Nat × Nat)) : OpForm :=
  { keys := [0xD00 + op], imm := imm, modMask := 0, ok := ok && i.immb == imm, regs := regs, inLock := false }

/-- Registers of a format of CVT (R84, R180): a carry form takes four, binary64 two. -/
def cvtRegs (f : Nat) : Nat := if f = 9 then 4 else if f = 10 then 2 else 1

/-- Whether an element of a format is narrower than a register (R180). -/
def narrow (f : Nat) : Bool := fmtBits f < 32
/-- Whether an element number of a narrow format lies within its register. -/
def elemOk (f e : Nat) : Bool := !narrow f || fmtBits f * (e + 1) ≤ 32

/-! ### Meanings -/

/-- ADD (R180). -/
def execAdd (k g : Nat) (i : TInstr) (s : State) : Res :=
  onUnit s (isCore k && isGroup g) (s.intOp k g i 0x00 true (fun w a b => (a + b) % 2 ^ w))
/-- SUB (R180). -/
def execSub (k g : Nat) (i : TInstr) (s : State) : Res :=
  onUnit s (isCore k && isGroup g) (s.intOp k g i 0x01 true (fun w a b => twos w ((a : Int) - b)))
/-- MUL_LO (R180). -/
def execMulLo (k g : Nat) (i : TInstr) (s : State) : Res :=
  onUnit s (isCore k && isGroup g) (s.intOp k g i 0x02 false (fun w a b => a * b % 2 ^ w))
/-- MUL_HI_S (R180). -/
def execMulHiS (k g : Nat) (i : TInstr) (s : State) : Res :=
  onUnit s (isCore k && isGroup g) (s.intOp k g i 0x03 false (fun w a b => twos (2 * w) (sext w a * sext w b) / 2 ^ w))
/-- MUL_HI_U (R180). -/
def execMulHiU (k g : Nat) (i : TInstr) (s : State) : Res :=
  onUnit s (isCore k && isGroup g) (s.intOp k g i 0x04 false (fun w a b => a * b / 2 ^ w))
/-- AND (R180). -/
def execAndOp (k g : Nat) (i : TInstr) (s : State) : Res :=
  onUnit s (isCore k && isGroup g) (s.intOp k g i 0x08 true (fun _ a b => a &&& b))
/-- OR (R180). -/
def execOrOp (k g : Nat) (i : TInstr) (s : State) : Res :=
  onUnit s (isCore k && isGroup g) (s.intOp k g i 0x09 true (fun _ a b => a ||| b))
/-- XOR (R180). -/
def execXorOp (k g : Nat) (i : TInstr) (s : State) : Res :=
  onUnit s (isCore k && isGroup g) (s.intOp k g i 0x0A true (fun _ a b => a ^^^ b))
/-- ANDN (R180). -/
def execAndn (k g : Nat) (i : TInstr) (s : State) : Res :=
  onUnit s (isCore k && isGroup g) (s.intOp k g i 0x0B true (fun w a b => a &&& (2 ^ w - 1 - b)))
/-- SHL (R180). -/
def execShl (k g : Nat) (i : TInstr) (s : State) : Res :=
  onUnit s (isCore k && isGroup g) (s.intOp k g i 0x10 true (fun w a b => a * 2 ^ shiftBy w b))
/-- SHR_U (R180). -/
def execShrU (k g : Nat) (i : TInstr) (s : State) : Res :=
  onUnit s (isCore k && isGroup g) (s.intOp k g i 0x11 true (fun w a b => a / 2 ^ shiftBy w b))
/-- SHR_S (R180). -/
def execShrS (k g : Nat) (i : TInstr) (s : State) : Res :=
  onUnit s (isCore k && isGroup g) (s.intOp k g i 0x12 true (fun w a b => twos w (sext w a / 2 ^ shiftBy w b)))
/-- MIN_S (R180). -/
def execMinS (k g : Nat) (i : TInstr) (s : State) : Res :=
  onUnit s (isCore k && isGroup g) (s.intOp k g i 0x18 true (fun w a b => if sext w a ≤ sext w b then a else b))
/-- MIN_U (R180). -/
def execMinU (k g : Nat) (i : TInstr) (s : State) : Res :=
  onUnit s (isCore k && isGroup g) (s.intOp k g i 0x19 true (fun _ a b => min a b))
/-- MAX_S (R180). -/
def execMaxS (k g : Nat) (i : TInstr) (s : State) : Res :=
  onUnit s (isCore k && isGroup g) (s.intOp k g i 0x1A true (fun w a b => if sext w a ≤ sext w b then b else a))
/-- MAX_U (R180). -/
def execMaxU (k g : Nat) (i : TInstr) (s : State) : Res :=
  onUnit s (isCore k && isGroup g) (s.intOp k g i 0x1B true (fun _ a b => max a b))
/-- SEL (R180). -/
def execSel (k g : Nat) (i : TInstr) (s : State) : Res :=
  onUnit s (isCore k && isGroup g) (s.laneOp k g i
    { keys := [0x20], imm := false, modMask := 7, ok := true, regs := [(fDst i, 1), (fA i, 1), (fB i, 1)], inLock := true }
    fun x ln y => y.setReg ln (fDst i) (x.reg ln (if x.pred ln (fMod i % 8) then fA i else fB i)))
/-- SETP (R180). -/
def execSetp (k g : Nat) (i : TInstr) (s : State) : Res :=
  onUnit s (isCore k && isGroup g) (s.laneOp k g i (setpForm i [0x28, 0x29, 0x2A, 0x2B, 0x2C, 0x2D]) fun x ln y =>
    let n := intRegs i
    y.setPred ln (fDst i) (setpRel i.op.toNat (32 * n) (x.regN ln (fA i) n) (opB x i ln n)))
/-- FADD (R55, R180). -/
def execFadd (k g : Nat) (i : TInstr) (s : State) : Res :=
  onUnit s (isCore k && isGroup g) (s.fpLane k g i 0 [fA i, fB i] (fun f rm => two (fAdd f rm)))
/-- FSUB (R55, R180). -/
def execFsub (k g : Nat) (i : TInstr) (s : State) : Res :=
  onUnit s (isCore k && isGroup g) (s.fpLane k g i 1 [fA i, fB i] (fun f rm => two (fSub f rm)))
/-- FMUL (R55, R180). -/
def execFmul (k g : Nat) (i : TInstr) (s : State) : Res :=
  onUnit s (isCore k && isGroup g) (s.fpLane k g i 2 [fA i, fB i] (fun f rm => two (fMul f rm)))
/-- FFMA (R55, R180). -/
def execFfma (k g : Nat) (i : TInstr) (s : State) : Res :=
  onUnit s (isCore k && isGroup g) (s.fpLane k g i 3 [fA i, fB i, fC i] (fun f rm l => fFma f rm (l.getD 0 0) (l.getD 1 0) (l.getD 2 0)))
/-- FMIN (R55, R180). -/
def execFmin (k g : Nat) (i : TInstr) (s : State) : Res :=
  onUnit s (isCore k && isGroup g) (s.fpLane k g i 4 [fA i, fB i] (fun f _ => two (fMinMax f false)))
/-- FMAX (R55, R180). -/
def execFmax (k g : Nat) (i : TInstr) (s : State) : Res :=
  onUnit s (isCore k && isGroup g) (s.fpLane k g i 5 [fA i, fB i] (fun f _ => two (fMinMax f true)))
/-- FDIV (R55, R180). -/
def execFdiv (k g : Nat) (i : TInstr) (s : State) : Res :=
  onUnit s (isCore k && isGroup g) (s.fpLane k g i 6 [fA i, fB i] (fun f rm => two (fDiv f rm)))
/-- FSQRT (R55, R180). -/
def execFsqrt (k g : Nat) (i : TInstr) (s : State) : Res :=
  onUnit s (isCore k && isGroup g) (s.fpLane k g i 7 [fA i] (fun f rm l => fSqrt f rm (l.getD 0 0)))
/-- FSETP (R180). -/
def execFsetp (k g : Nat) (i : TInstr) (s : State) : Res :=
  onUnit s (isCore k && isGroup g) (s.laneOp k g i (fpForm i [8, 9, 0xA, 0xB, 0xC, 0xD] [fA i, fB i] true) fun x ln y =>
    let r := fRel (fpFmt i) (fpOp i - 8) (fpSrc x i ln 0 (fA i)) (fpSrc x i ln 1 (fB i))
    (y.setPred ln (fDst i) r.1).raise ln r.2)
/-- CVT (R84 to R86, R180): OP names the destination format and the source format. -/
def execCvt (k g : Nat) (i : TInstr) (s : State) : Res :=
  onUnit s (isCore k && isGroup g) (s.laneOp k g i
    { keys := [0x300 + i.op.toNat], imm := false, modMask := 0x3F, inLock := true
      ok := fRnd i ≤ 5 && i.op.toNat / 16 ≤ 10 && i.op.toNat / 16 ≠ 9 && i.op.toNat % 16 ≤ 10 &&
        elemOk (i.op.toNat % 16) (fMod i % 8) && elemOk (i.op.toNat / 16) (fMod i / 8)
      regs := [(fDst i, cvtRegs (i.op.toNat / 16)), (fA i, cvtRegs (i.op.toNat % 16))] }
    fun x ln y =>
      let d := i.op.toNat / 16
      let f := i.op.toNat % 16
      let a := x.regN ln (fA i) (cvtRegs f)
      let r := convert d f (rndFor x i) (if narrow f then lane (fmtBits f) (fMod i % 8) a else a)
      let v := if narrow d then putLane (fmtBits d) (fMod i / 8) (x.reg ln (fDst i)) r.1 else r.1
      (y.setRegN ln (fDst i) v (cvtRegs d)).raise ln r.2)
/-- RCP (R179, R180). -/
def execRcp (k g : Nat) (i : TInstr) (s : State) : Res :=
  onUnit s (isCore k && isGroup g) (s.sfuOp k g i 0 sfuRcp)
/-- RSQ (R179, R180). -/
def execRsq (k g : Nat) (i : TInstr) (s : State) : Res :=
  onUnit s (isCore k && isGroup g) (s.sfuOp k g i 1 sfuRsq)
/-- EX2 (R179, R180). -/
def execEx2 (k g : Nat) (i : TInstr) (s : State) : Res :=
  onUnit s (isCore k && isGroup g) (s.sfuOp k g i 2 sfuEx2)
/-- LG2 (R179, R180). -/
def execLg2 (k g : Nat) (i : TInstr) (s : State) : Res :=
  onUnit s (isCore k && isGroup g) (s.sfuOp k g i 3 sfuLg2)
/-- MOVI (R180). -/
def execMovi (k g : Nat) (i : TInstr) (s : State) : Res :=
  onUnit s (isCore k && isGroup g) (s.laneOp k g i
    (moveForm 0 false 0xFF (pl i 35 32 = 0) [(fDst i, 1)])
    fun _ ln y => y.setReg ln (fDst i) (fImm32 i))
/-- MOV (R180). -/
def execMov (k g : Nat) (i : TInstr) (s : State) : Res :=
  onUnit s (isCore k && isGroup g) (s.laneOp k g i (moveForm 1 false 0 true [(fDst i, 1), (fA i, 1)])
    fun x ln y => y.setReg ln (fDst i) (x.reg ln (fA i)))
/-- SHFL_IDX (R180). -/
def execShflIdx (k g : Nat) (i : TInstr) (s : State) : Res :=
  onUnit s (isCore k && isGroup g) (s.shfl k g i 8 (fun _ b => b))
/-- SHFL_UP (R180). -/
def execShflUp (k g : Nat) (i : TInstr) (s : State) : Res :=
  onUnit s (isCore k && isGroup g) (s.shfl k g i 9 (fun ln b => (ln : Int) - b))
/-- SHFL_DOWN (R180). -/
def execShflDown (k g : Nat) (i : TInstr) (s : State) : Res :=
  onUnit s (isCore k && isGroup g) (s.shfl k g i 10 (fun ln b => (ln : Int) + b))
/-- SHFL_XOR (R180). -/
def execShflXor (k g : Nat) (i : TInstr) (s : State) : Res :=
  onUnit s (isCore k && isGroup g) (s.shfl k g i 11 (xorLane))
/-- VOTE_ALL (R180). -/
def execVoteAll (k g : Nat) (i : TInstr) (s : State) : Res :=
  onUnit s (isCore k && isGroup g) (s.laneOp k g i (moveForm 0x10 false 7 (fDst i < 8) [])
    fun x ln y => y.setPred ln (fDst i) (voteMask x i = x.active))
/-- VOTE_ANY (R180). -/
def execVoteAny (k g : Nat) (i : TInstr) (s : State) : Res :=
  onUnit s (isCore k && isGroup g) (s.laneOp k g i (moveForm 0x11 false 7 (fDst i < 8) [])
    fun x ln y => y.setPred ln (fDst i) (voteMask x i ≠ 0))
/-- VOTE_BALLOT (R180). -/
def execVoteBallot (k g : Nat) (i : TInstr) (s : State) : Res :=
  onUnit s (isCore k && isGroup g) (s.laneOp k g i (moveForm 0x12 false 7 true [(fDst i, 1)])
    fun x ln y => y.setReg ln (fDst i) (voteMask x i))
/-- PAND (R180). -/
def execPand (k g : Nat) (i : TInstr) (s : State) : Res :=
  onUnit s (isCore k && isGroup g) (s.predOp k g i 0x18 (fun a b => a && b))
/-- POR (R180). -/
def execPor (k g : Nat) (i : TInstr) (s : State) : Res :=
  onUnit s (isCore k && isGroup g) (s.predOp k g i 0x19 (fun a b => a || b))
/-- PXOR (R180). -/
def execPxor (k g : Nat) (i : TInstr) (s : State) : Res :=
  onUnit s (isCore k && isGroup g) (s.predOp k g i 0x1A (fun a b => a != b))
/-- PNOT (R180). -/
def execPnot (k g : Nat) (i : TInstr) (s : State) : Res :=
  onUnit s (isCore k && isGroup g) (s.predOp k g i 0x1B (fun a _ => !a))
/-- The next reading of CLK (R179): later than the last, by a number of CORE cycles that is free (log entry 5). -/
def State.clkNext (s : State) (k : Nat) : Nat := (s.core k).clk + 1 + (Config.freeNat 8 s.free).toNat

/-- RDSR (R179, R180). A read of CLK advances the model's count of the shard's CORE cycles. -/
def execRdsr (k g : Nat) (i : TInstr) (s : State) : Res :=
  onUnit s (isCore k && isGroup g) (s.threadOp k g i
    (moveForm 0x20 false 0 (fA i ≤ 6) [(fDst i, if fA i = 5 || fA i = 6 then 2 else 1)])
    fun s x ls =>
      let clk := s.clkNext k
      let v (ln : Nat) : Nat := match fA i with
        | 0 => ln
        | 1 => g
        | 2 => x.index
        | 3 => k
        | 4 => k / 12
        | 5 => (s.block k x.block).arg
        | _ => clk
      let n := if fA i = 5 || fA i = 6 then 2 else 1
      let t := s.setGroup k g (ls.foldl (fun (y : Group) ln => y.setRegN ln (fDst i) (v ln) n) x)
      .done (if fA i = 6 then (t.setCore k { t.core k with clk := clk }).drew else t))
/-- SETRND (R183). -/
def execSetrnd (k g : Nat) (i : TInstr) (s : State) : Res :=
  onUnit s (isCore k && isGroup g) (s.laneOp k g i (envForm i 0 true (1 ≤ fImm i && fImm i ≤ 5) [])
    fun _ _ y => { y with rnd := (fImm i).toNat })
/-- RDFLG (R183). -/
def execRdflg (k g : Nat) (i : TInstr) (s : State) : Res :=
  onUnit s (isCore k && isGroup g) (s.laneOp k g i (envForm i 1 false true [(fDst i, 1)])
    fun x ln y => y.setReg ln (fDst i) (Tbl.get 0 x.flags ln))
/-- CLRFLG (R183). -/
def execClrflg (k g : Nat) (i : TInstr) (s : State) : Res :=
  onUnit s (isCore k && isGroup g) (s.laneOp k g i (envForm i 2 false true [])
    fun _ ln y => { y with flags := Tbl.set y.flags ln 0 })

end Sys2Proof.Machine
end

