-- ==== Sys2Proof/Machine/Ledger.lean ====
section
/-! DEFINITION. The ledger's commits and trend, units that return STALE, the trace ring's and the watch points' objects, and the test access port
(R393, R401 to R405, R414 to R420). -/

namespace Sys2Proof.Machine

/-! ### Units returning STALE (R402, R403) -/

/-- The number of an array as a unit that returns STALE; cores and copy engines go by their SOURCE codes (R415). -/
def arrayUnit (a : Nat) : Nat := 0x1000 + a

/-- An array is cleared (R102, R121): nothing is in it, and it is IN SERVICE. -/
def State.clearArray (s : State) (a : Nat) : State :=
  (s.setArray a { ArrayU.reset with wants := (s.array a).wants, fault := (s.array a).fault }).put (oArrayState a) 0

/-- The arc ends that a copy engine serves take the next epoch (R403 step 4). -/
def State.advanceArcs (s : State) (e : Nat) : State :=
  { s with arcs := s.arcs.map fun (x : Nat × Arc) =>
    (x.1, if x.2.live && x.2.ce = e then { x.2 with epoch := (x.2.epoch + 1) % 65536 } else x.2) }

/-- The STALE record of a unit's clear (R415). -/
def State.clearedTrace (s : State) (d unit : Nat) : State := s.trace 0x11 (0x200 + d) 0 0 (d * 2 ^ 317 + unit * 2 ^ 301)

/-- Steps 1 to 3 of R403 for a core: its caches, written back first, and its TLB are empty, its SRAM is zero, its arrays are clear. -/
def State.wipeCore (s : State) (k : Nat) : State :=
  let s := ((s.l1Clear true k true).l1Clear false k true).tlbDrop fun t => t.unit = tlbCore k
  let s := { s with
    seqs := Tbl.erase s.seqs k
    tables := (s.tables.filter fun e => e.1 / 2 ≠ k)
    groups := s.groups.filter fun e => e.1 / 64 ≠ k
    blocks := s.blocks.filter fun e => e.1 / 16 ≠ k }
  forUpTo 4 s fun s j => let st := s.ctr (oArrayState (4 * k + j)); if st = 2 || st = 4 then s else s.clearArray (4 * k + j)

/-- Whether some core of a cluster lies in a partition's core mask. -/
def State.clusterUsed (s : State) (c : Nat) : Bool := (List.range 4).any fun i => s.corePart (4 * c + i) < 16

/-- A cluster may be power-gated (R402): none of its cores lies in a mask, runs a shard or is STALE. -/
def State.mayGate (s : State) (c : Nat) : Bool :=
  !s.clusterUsed c && (List.range 4).all fun i => (s.core (4 * c + i)).shard.isNone && s.ctr (oCoreState (4 * c + i)) ≠ 1

/-- The power gating of a cluster judged (R402): one that may be gated is, with its caches drained, or is not, as is free (log entry 90); one whose
cores serve again returns from it, and its cores are STALE. -/
def State.judgeGate (s : State) (c : Nat) : State :=
  let u := s.cluster c
  if u.gated then
    (if s.clusterUsed c then forUpTo 4 (s.setCluster c { u with gated := false }) fun s i => s.staleCore (4 * c + i) else s)
  else if s.mayGate c then
    (if (Config.freeNat 13 s.free).toNat % 2 = 1 then
      forUpTo 4 (s.setCluster c { u with gated := true }) fun s i => s.wipeCore (4 * c + i)
    else s).drew
  else s

/-- A STALE core is cleared and IN SERVICE (R403). -/
def State.clearStaleCore (s : State) (k : Nat) : State :=
  ((((s.wipeCore k).freed k).put (oCoreState k) 0).recount.clearedTrace (k / 12) k).judgeGate (k / 4)

/-- STALE_CLEAR_DONE (R403): the unit is IN SERVICE; a clear that failed is an event at its site, and the unit stays STALE. -/
def State.staleClearDone (s : State) (u : Nat) (ok : Bool) : State :=
  if isCore u then
    if s.ctr (oCoreState u) ≠ 1 then s
    else if ok then (s.clearStaleCore u).judge
    else s.report (u / 12) (48 + 4 * (u % 12)) .failedTest
  else if 0x1000 ≤ u then
    let a := u - 0x1000
    if s.ctr (oArrayState a) ≠ 3 then s
    else if ok then (((s.clearArray a).freed (a / 4)).recount.clearedTrace (a / 48) (a / 4)).judge
    else s.report (a / 48) (a % 48) .failedTest
  else
    let e := u - 0x100
    if s.ctr (oCeState e) ≠ 3 then s
    else if ok then
      ((((s.tlbDrop fun t => t.unit = tlbCe e).advanceArcs e).put (oCeState e) 0).clearedTrace (e / 4) u).judge
    else s.report (e / 4) (396 + e % 4) .failedTest

/-! ### Sites by hand (R401) -/

/-- SITE_CLEAR's effect (R401): a LASTING site is CLEAN with an empty window. -/
def State.siteClear (s : State) (d x : Nat) : State :=
  if s.siteState d x ≠ 2 then s
  else
    let w := s.ctr (oSite d x)
    let u := { Tbl.get SiteW.reset s.sites (512 * d + x) with buckets := List.replicate 16 0, acting := false }
    let s := { s with sites := Tbl.set s.sites (512 * d + x) u }
    (s.setSite d x 0 (bits 60 56 w) 0 (bits 31 0 w)).judge

/-! ### Commits and the trend (R393, R404, R405) -/

/-- Whether an object is committed only every 10 minutes (R393): bins, lifetime totals and margin minima. -/
def inLedger (key : Nat) : Bool :=
  let i := key / 256
  let j := (i - 0x8700) % 0x20
  0x8700 ≤ i && i < 0x8800 && (j = 1 || (6 ≤ j && j ≤ 0x12))

/-- The totals and minima as they stand are in flash (R393); a read-only ledger takes nothing (R422). -/
def State.commit (s : State) : State :=
  if s.ctr oLedgerState = 2 then s else { s with ledger := s.obj.filter fun e => inLedger e.1 }

/-- LEDGER_COMMIT (R393): the clock comes to the next 10 minutes. -/
def State.ledgerCommit (s : State) : State := (s.atTime ((s.now / 600000000000 + 1) * 600000000000)).commit

/-- The number of a free value of a trend record: a margin that was not sampled in its day. -/
def trendFree : Nat := 10

/-- The margins of a die's trend record in order (R405): the object, the bytes it takes, and its kind: 0 clipped to a signed field, 1 unsigned, saturating. -/
def trendFields (d : Nat) : List (Nat × Nat × Nat) :=
  ((List.range 3).map fun c => (oTimingMin d c, 2, 0)) ++ ((List.range 12).map fun k => (oSramVmin d k, 2, 1)) ++
    ((List.range 192).map fun i => (oHbmMargin d i, 1, 1)) ++ ((List.range 48).map fun n => (oLaneEye d n, 2, 0))

/-- One field of a trend record. -/
def State.trendField (s : State) (f : Nat × Nat × Nat) (i : Nat) : List Byte :=
  let w := 8 * f.2.1
  let v : Nat := match s.val f.1 with
    | none => (Config.freeNat trendFree (512 * s.free + i)).toNat
    | some v =>
      if f.2.2 = 0 then twos w (max (-(2 ^ (w - 1) : Nat)) (min ((2 ^ (w - 1) : Nat) - 1) (sext 32 v)))
      else if f.2.1 = 1 then (max 0 (min 255 (sext 32 v))).toNat
      else min (2 ^ w - 1) v
  leBytes f.2.1 v

/-- A die's trend record as it closes (R405). -/
def State.trendRecord (s : State) (d : Nat) : List Byte :=
  let fs := trendFields d
  let b := leBytes 8 (s.lifeSec d) ++ ((List.range fs.length).flatMap fun i => s.trendField (fs.getD i (0, 0, 0)) i)
  let b := b ++ List.replicate (508 - b.length) 0
  b ++ leBytes 4 (crc32c b)

/-- TREND_RECORD (R405): the die's life clock comes to the next 24 h; the minima begin again, and the recommendation is judged (R406). -/
def State.closeTrend (s : State) (d : Nat) : State :=
  let left := 86400 - s.lifeSec d % 86400
  let s := s.atTime (s.now + left * 1000000000)
  let rec512 := s.trendRecord d
  let days := forUpTo 3 s.timingDays fun t c =>
    match s.val (oTimingMin d c) with
    | none => t
    | some v => Tbl.set t (3 * d + c) ((sext 32 v :: Tbl.get [] t (3 * d + c)).take 30)
  let s := { s with
    trend := Tbl.set s.trend d ((rec512 :: Tbl.get [] s.trend d).take 4096)
    timingDays := days }.drew
  ((trendFields d).foldl (fun (s : State) f => s.unset f.1) s).judge

/-! ### The trace ring's and the watch points' objects (R414, R416, R417) -/

/-- TRACE_ENABLE's effect (R414): turning the ring on sets PROD, CONS and TSEQ to 0. -/
def State.traceEnable (s : State) (v : Nat) : State :=
  let on := v ≠ 0 && s.nat oTraceEnable = 0
  let s := s.put oTraceEnable v
  if on then { s with traceProd := 0, traceCons := 0, traceSeq := 0, traceLoss := none } else s

/-- TRACE_CONS's effect (R276, R414, R416): an index that moves past PROD is ignored and counted. -/
def State.setTraceCons (s : State) (v : Nat) : State :=
  if moves s.traceCons v (ringUsed s.traceProd s.traceCons) then { s with traceCons := v % 2 ^ 32 }.traceCatchUp
  else s.bump 4 oDoorbellErrors 1

/-- WATCH_CFG's effect (R417): an open window closes, and the point is armed or disabled. -/
def State.setWatchCfg (s : State) (u v : Nat) : State :=
  let s := (s.watchClose u).put (oWatchCfg u) v
  (s.setWatchU u WatchU.reset).put (oWatchState u) (if v.testBit 63 then 1 else 0)

/-! ### The test access port (R420) -/

/-- An instruction selects a data register, and what that held or captured is shifted out. -/
def State.tap (s : State) (ir : Nat) (dr : List Bool) : State := { s with tapIr := ir }.send (.tdo dr)

/-- The pins as the boundary register captures them; they are outside the module's state. -/
def State.pins (s : State) : List Bool := Config.boundary s.free

/-- The bits of octets, least significant first. -/
def bitsOfBytes (l : List Byte) : List Bool := l.flatMap fun b => (List.range 8).map fun i => b.toNat.testBit i

/-! ### The commands -/

/-- STALE_CLEAR_DONE (R403). -/
def execStaleClearDone (u : Nat) (ok : Bool) (s : State) : Res := onUnit s (isStaleUnit u) (s.staleClearDone u ok)
/-- LEDGER_COMMIT (R393). -/
def execLedgerCommit (s : State) : Res := .next s.ledgerCommit
/-- TREND_RECORD (R405). -/
def execTrendRecord (d : Nat) (s : State) : Res := onUnit s (isDie d) (s.closeTrend d)
/-- BYPASS (R420): the bypass register captures 0. -/
def execBypass (s : State) : Res := .next (s.tap 0 [false])
/-- IDCODE (R420). -/
def execIdcode (s : State) : Res := .next (s.tap 1 ((List.range 32).map fun i => Config.idcode.toNat.testBit i))
/-- SAMPLE/PRELOAD (R420): the pins are captured, and `v` is loaded. -/
def execSamplePreload (v : List Bool) (s : State) : Res := .next { (s.tap 2 s.pins).drew with tapDr := v }
/-- EXTEST (R420): the pins are captured and driven as the boundary register holds; only in AUX-ONLY and SAFE, else BYPASS. -/
def execExtest (s : State) : Res :=
  .next (if s.nat oModuleState = 0 || s.nat oModuleState = 4 then (s.tap 3 s.pins).drew else s.tap 0 [false])

end Sys2Proof.Machine
end

