-- ==== Sys2Proof/Machine/Locks.lean ====
section
/-! DEFINITION. Locked sequences (R194 to R196), and the instructions of class SEQ (R197). -/

namespace Sys2Proof.Machine

/-! ### LOCK.BEGIN and the lock's acquisition (R194) -/

/-- LOCK.BEGIN: an ATM message asks for the line at its home (R214), once nothing of the group or its core is on its way to it. -/
def State.lockBegin (s : State) (k g : Nat) (i : TInstr) : State :=
  s.threadOp k g i { keys := [0xB00], imm := false, modMask := 0xFF, ok := pl i 12 0 = 0, regs := [(pl i 23 16, 2)], inLock := false }
    fun s x ls =>
      match ls, (s.core k).shard with
      | [], _ => .done s
      | _, none => .wait s
      | ln :: _, some h =>
        match x.addr ln (pl i 23 16) 0 1 with
        | none => .fault s 0x0502
        | some va =>
          if s.acquiring k g then .wait s
          else
            match s.translate (groupAccess h k g 2 va) with
            | (t, none) => .wait t
            | (t, some (.peer _ _)) => .fault t 0x0509
            | (t, some (.mem pa _)) =>
              let base := 4 * (pa / 512)
              if 8 * octantBytes ≤ pa then .fault t 0x0509
              else if (List.range 4).any fun j => t.coreWrites k (base + j) || t.clash k g (va / 512 * 512 + 128 * j) then .wait t
              else
                let l : LockSt := { line := pa / 512, pd := pl i 15 13, fail := x.pc + 8 * fTgt i, lanes := maskOf ls, active := x.active, stack := x.stack
                                    count := 0, held := false, since := 0, buf := [] }
                .done ((t.setGroup k g { t.group k g with lock := some l, wait := .lock }).postAtom k
                  { op := .lock, pa := pa, va := va, width := 0, b := 0, c := 0, group := g, lane := ln, ret := false, acq := false })

/-- Whether a home can grant a group's lock now: the request is the first of its line that waits, no transaction is open on the line's sectors, the
line is not locked, and the home holds fewer than 16 locked lines. -/
def State.lockFree (s : State) (k g line : Nat) : Bool :=
  let d := homeDie (512 * line)
  (s.txq.find? fun w => w.1 / 4 = line) = some (4 * line, HomeReq.lock k g) && !s.rangeBusy (512 * line) 512 &&
    (s.hlocks.filter fun h => homeDie (512 * h.line) = d).length < 16

/-- LOCK_ACQUIRED: every L1 copy of the line is invalidated, the line is locked, and the group's predicate is set. -/
def State.lockAcquired (s : State) (k g : Nat) : State :=
  let x := s.group k g
  match x.lock with
  | none => s
  | some l =>
    if l.held || !s.running k || !s.lockFree k g l.line then s
    else
      let p := s.corePart k
      let s := forUpTo 4 (s.bump 8 oHomeRequests 1) fun s j => s.snoopInv p (4 * l.line + j) none
      let s := { s with
        txq := dropFirst (fun (w : Nat × HomeReq) => w.2 = HomeReq.lock k g) s.txq
        lattice := s.lattice.filter fun m => !(m.src = k && m.atom.any fun (a : AtomMsg) => a.op = AtomOp.lock && a.group = g)
        hlocks := s.hlocks ++ [(⟨l.line, k, g⟩ : HomeLock)] }
      let x := (bitsOf 32 l.lanes).foldl (fun (x : Group) ln => x.setPred ln l.pd true) x
      s.setGroup k g { x with lock := some { l with held := true, since := s.now }, wait := .none }

/-! ### LOCK.END and failure (R196) -/

/-- The buffered stores of a locked sequence at the home: each sector is looked up once, and a word that they cover whole is written whole. -/
def State.writeLock (s : State) (k : Nat) (l : LockSt) : State :=
  let p := s.corePart k
  let at_ (o : Nat) : Option Byte := (l.buf.find? fun e => e.1 = o).map fun e => e.2
  let s := s.lockMove k (512 * l.line) l.buf.length true
  let s := forUpTo 4 s fun s q => if l.buf.any fun e => e.1 / 128 = q then s.dcCount p (512 * l.line + 128 * q) else s
  forUpTo 16 s fun s w =>
    let bs := (List.range 32).map fun o => at_ (32 * w + o)
    let pa := 512 * l.line + 32 * w
    if bs.all Option.isSome then s.dcPut p pa 0 32 (leNat (bs.map fun b => b.getD 0)) false
    else bs.zipIdx.foldl (fun (s : State) b => match b.1 with | some v => s.dcPut p pa b.2 1 v.toNat false | none => s) s

/-- LOCK.END: the buffered stores are written and the lock is released in one operation of the home. Outside a locked sequence there is nothing to
write or release. -/
def State.lockEnd (s : State) (k g : Nat) (i : TInstr) : State :=
  s.threadOp k g i { keys := [0xB01], imm := false, modMask := 0, ok := i.payload = 0, regs := [], inLock := true } fun s x ls =>
    match ls, x.lock with
    | [], _ => .done s
    | _, none => .done s
    | _, some l => .done (((s.writeLock k l).setGroup k g { x with lock := none }).unlock k g)

/-- LOCK_INSTR_LIMIT: a 65th instruction comes up. -/
def State.lockLimit (s : State) (k g : Nat) : State :=
  match (s.group k g).lock with
  | some l => if l.held && 64 ≤ l.count && s.canIssue k g then s.lockFail k g else s
  | none => s

/-- LOCK_TIMEOUT: 2 µs have passed since the lock was acquired. -/
def State.lockTimeout (s : State) (k g : Nat) : State :=
  match (s.group k g).lock with
  | some l => if l.held then (s.atTime (l.since + 2000)).lockFail k g else s
  | none => s

/-! ### APUSH, SIGWAIT and SIGADD (R197) -/

/-- APUSH: one address entry, a record a lane. It waits for room, and until the group's earlier writes are performed (R160). -/
def State.apush (s : State) (k g : Nat) (i : TInstr) : State :=
  s.threadOp k g i { keys := [0xC00], imm := false, modMask := 0x1F, ok := true, regs := [(fA i, 2)], inLock := false } fun s x ls =>
    let q := fMod i % 32
    let live := match (s.core k).shard with
      | some h => (s.seq k).loaded && !h.seqDone
      | none => false
    if ls.isEmpty then .done s
    else if !live || !s.isKind k q 2 then .fault s 0x0508
    else if s.acquiring k g || s.storesOut k || (s.qdesc k q).depth ≤ (s.queue k q).occ then .wait s
    else
      let data := packLanes 64 ((List.range 32).map fun ln => if ls.contains ln then x.regN ln (fA i) 2 else 0)
      .done (s.pushFrom k q (16 + g) ⟨data, 0, false, 0, 0⟩)

/-- A signal row: it acts on the signal of the first executing lane, whose value operand is pair B; a word on a peer is passed on as such. -/
def State.signalOp (s : State) (k g : Nat) (i : TInstr) (op : Nat) (f : State → Shard → Nat → Nat → Target → Ran) : State :=
  s.threadOp k g i { keys := [0xC00 + op], imm := false, modMask := 0, ok := true, regs := [(fA i, 2), (fB i, 2)], inLock := false } fun s x ls =>
    match ls, (s.core k).shard with
    | [], _ => .done s
    | _, none => .wait s
    | ln :: _, some h =>
      match x.addr ln (fA i) 0 8 with
      | none => .fault s 0x0502
      | some va =>
        if s.acquiring k g then .wait s
        else
          match s.translate (groupAccess h k g (op - 1) va) with
          | (t, none) => .wait t
          | (t, some tg) => f t h va (x.regN ln (fB i) 2) tg

/-- SIGWAIT: the group waits until the signal reaches its threshold (R331, R332). A word on a peer is refused (R333). -/
def State.sigWaitGroup (s : State) (k g : Nat) (i : TInstr) : State :=
  s.signalOp k g i 1 fun s h va v tg =>
    match tg with
    | .peer _ _ => .failed (s.failGroup k g 0x0B01)
    | .mem _ _ => .done ((s.setGroup k g { s.group k g with wait := .sig va v }).watchFor (.group k g) h.ctx va v)

/-- SIGADD: a release at SYSTEM scope, then the addition leaves the core (R330). -/
def State.sigAddGroup (s : State) (k g : Nat) (i : TInstr) : State :=
  s.signalOp k g i 2 fun s h va v tg =>
    if !s.fenced k g 4 then .wait s
    else
      match tg with
      | .peer x _ =>
        (match s.peerArc h.ctx x with
          | .error c => .failed (s.failGroup k g c)
          | .ok _ => .done { s with sigAdds := s.sigAdds ++ [⟨h.ctx, va, v, .core k, h.ring, h.aseq⟩] })
      | .mem _ _ => .done { s with sigAdds := s.sigAdds ++ [⟨h.ctx, va, v, .core k, h.ring, h.aseq⟩] }

/-! ### Meanings -/

/-- LOCK_BEGIN (R194). -/
def execLockBegin (k g : Nat) (i : TInstr) (s : State) : Res := onUnit s (isCore k && isGroup g) (s.lockBegin k g i)
/-- LOCK_ACQUIRED (R194). -/
def execLockAcquired (k g : Nat) (s : State) : Res := onUnit s (isCore k && isGroup g) (s.lockAcquired k g)
/-- LOCK_END (R196). -/
def execLockEnd (k g : Nat) (i : TInstr) (s : State) : Res := onUnit s (isCore k && isGroup g) (s.lockEnd k g i)
/-- LOCK_INSTR_LIMIT (R196). -/
def execLockInstrLimit (k g : Nat) (s : State) : Res := onUnit s (isCore k && isGroup g) (s.lockLimit k g)
/-- LOCK_TIMEOUT (R196). -/
def execLockTimeout (k g : Nat) (s : State) : Res := onUnit s (isCore k && isGroup g) (s.lockTimeout k g)
/-- APUSH (R197). -/
def execApush (k g : Nat) (i : TInstr) (s : State) : Res := onUnit s (isCore k && isGroup g) (s.apush k g i)
/-- SIGWAIT (R197). -/
def execSigwait (k g : Nat) (i : TInstr) (s : State) : Res := onUnit s (isCore k && isGroup g) (s.sigWaitGroup k g i)
/-- SIGADD (R197). -/
def execSigadd (k g : Nat) (i : TInstr) (s : State) : Res := onUnit s (isCore k && isGroup g) (s.sigAddGroup k g i)

end Sys2Proof.Machine
end

