-- ==== Sys2Proof/Machine/TileExp.lean ====
section
/-! DEFINITION. The tile expander (R106 to R114, R135 to R137, R153): it folds one TILE word into swaps, row-loads, column-parameter
loads and vectors, one MATRIX cycle at a time. -/

namespace Sys2Proof.Machine

/-! ### The shape of a folded tile (R106 to R108, R113, R136) -/

/-- The sweeps of a K-chunk: activation and weight piece (R113). -/
def tileSweeps (afmt passes : Nat) : List (Nat × Nat) :=
  if afmt ≠ 6 then [(0, 0)]
  else if passes = 1 then [(1, 1)]
  else if passes = 2 then [(1, 1), (2, 1), (1, 2)]
  else [(1, 1), (2, 1), (3, 1), (1, 2), (2, 2), (1, 3)]

/-- A tile folded onto its arrays. -/
structure Fold where
  named : List Nat                        -- arrays of the word, ascending; R136
  n : Nat                                 -- products a cell; R91
  m : Nat                                 -- rows; R106
  cols : Nat                              -- N; R106
  mb : Nat                                -- rows of an M-block; R108
  blocks : Nat                            -- M-blocks
  chunks : Nat                            -- K-chunks; R107
  rowsLast : Nat                          -- ungated rows of the last K-chunk; R107
  tailLast : Nat                          -- products of the last of them; R107
  sweeps : List (Nat × Nat)               -- R113
  pieces : Nat                            -- weight sets of a K-chunk; R113
  groups : Nat                            -- N-groups; R107

/-- A count divided up to a whole number of pieces. -/
def ceilDiv (a b : Nat) : Nat := (a + b - 1) / b

/-- Whether a tile is run in one pass over one K-chunk, which uses no partial sums (R108). -/
def Fold.single (f : Fold) : Bool := f.chunks = 1 && f.sweeps.length = 1

/-- The folding of a TILE word on a core. -/
def State.foldTile (s : State) (k w : Nat) : Fold :=
  let named := bitsOf 4 (bits 91 88 w)
  let a := bits 87 84 w
  let n := s.pairOn k (named.headD 0) a (bits 83 80 w) (bits 75 74 w)
  let kk := bits 159 140 w + 1
  let chunks := ceilDiv kk (32 * n)
  let sweeps := tileSweeps a (bits 73 72 w)
  let m := bits 175 160 w
  let psq := bits 49 45 w
  let depth := (named.map fun j => (s.qdesc k (psq + j)).depth).foldl min 65535
  let mb := if chunks = 1 && sweeps.length = 1 then m else min m depth
  { named := named, n := n, m := m, cols := bits 139 92 w + 1, mb := mb, blocks := ceilDiv m mb, chunks := chunks
    rowsLast := ceilDiv (kk - (chunks - 1) * (32 * n)) n
    tailLast := kk - (chunks - 1) * (32 * n) - n * (ceilDiv (kk - (chunks - 1) * (32 * n)) n - 1), sweeps := sweeps
    pieces := (sweeps.map fun x => x.2).foldl max 1
    groups := ceilDiv (bits 139 92 w + 1) (32 * named.length) }

/-- The columns of an N-group. -/
def Fold.width (f : Fold) (g : Nat) : Nat := min (32 * f.named.length) (f.cols - 32 * f.named.length * g)
/-- The arrays that an N-group uses (R107, R136). -/
def Fold.used (f : Fold) (g : Nat) : List Nat := f.named.take (ceilDiv (f.width g) 32)
/-- The extent masks of an N-group (R136). -/
def Fold.extents (f : Fold) (g : Nat) : List (Nat × Nat) :=
  ((List.range f.named.length).zip (f.used g)).map fun x => (x.2, 2 ^ min 32 (f.width g - 32 * x.1) - 1)
/-- Rows of an M-block. -/
def Fold.blockRows (f : Fold) (b : Nat) : Nat := min f.mb (f.m - b * f.mb)
/-- Ungated rows of a K-chunk (R107). -/
def Fold.rowsOf (f : Fold) (c : Nat) : Nat := if c + 1 = f.chunks then f.rowsLast else 32

/-- The number of the weight set that a place in the loop uses, in the order of R109: sweeps on one weight piece share a set
(R113). -/
def Fold.setNo (f : Fold) (t : Tile) : Nat :=
  ((t.ngroup * f.blocks + t.mblock) * f.chunks + t.chunk) * f.pieces + ((f.sweeps.getD t.sweep (0, 1)).2 - 1)
/-- Weight sets of the whole tile. -/
def Fold.setCount (f : Fold) : Nat := f.groups * f.blocks * f.chunks * f.pieces
/-- N-group, K-chunk and weight piece of a set. -/
def Fold.setAt (f : Fold) (i : Nat) : Nat × Nat × Nat :=
  (i / f.pieces / f.chunks / f.blocks, i / f.pieces % f.chunks, if (f.sweeps.headD (0, 0)).2 = 0 then 0 else i % f.pieces + 1)
/-- Row-loads of a set. -/
def Fold.setLoads (f : Fold) (i : Nat) : Nat := (f.used (f.setAt i).1).length * f.rowsOf (f.setAt i).2.1

/-- Whether every vector of the tile has issued. -/
def Fold.finished (f : Fold) (t : Tile) : Bool := f.groups ≤ t.ngroup
/-- Whether a place is in the last sweep of the last K-chunk (R109). -/
def Fold.final (f : Fold) (t : Tile) : Bool := t.chunk + 1 = f.chunks && t.sweep + 1 = f.sweeps.length

/-- The place after one more vector (R109). -/
def Fold.advance (f : Fold) (t : Tile) : Tile :=
  if t.row + 1 < f.blockRows t.mblock then { t with row := t.row + 1 }
  else
    let t := { t with row := 0 }
    if t.sweep + 1 < f.sweeps.length then { t with sweep := t.sweep + 1 }
    else if t.chunk + 1 < f.chunks then { t with sweep := 0, chunk := t.chunk + 1 }
    else if t.mblock + 1 < f.blocks then { t with sweep := 0, chunk := 0, mblock := t.mblock + 1 }
    else { t with sweep := 0, chunk := 0, mblock := 0, ngroup := t.ngroup + 1 }

/-- The arrays whose output queue gets its last entry of the tile at a place (R149). -/
def Fold.lasts (f : Fold) (t : Tile) : Nat :=
  if f.final t && t.row + 1 = f.blockRows t.mblock && t.mblock + 1 = f.blocks then
    maskOf ((f.used t.ngroup).filter fun a =>
      (List.range 2).all fun j => !(t.ngroup + 1 + j < f.groups && (f.used (t.ngroup + 1 + j)).contains a))
  else 0

/-! ### What one cycle asks of the arrays -/

/-- A cycle of a TILE word that issues nothing yet. -/
def tileDrive (w : Nat) (f : Fold) (t : Tile) (gens : Tbl Gen) : Drive :=
  let arrays := bits 91 88 w
  let outq := bits 44 40 w
  let wq := bits 59 55 w
  let one (q : Nat) : Nat × List Nat := (q, [q])
  let start := bits 33 26 w
  let b32 := bits 87 84 w = 6
  { vec := false, swap := false, inj := false, toPs := false, arrays := 0
    afmt := bits 87 84 w, wfmt := bits 83 80 w, ofmt := bits 79 76 w, xmode := bits 75 74 w
    apiece := if b32 then 1 else 0, wpiece := if b32 then 1 else 0
    ascEn := w.testBit 71, wscEn := w.testBit 60
    actq := bits 70 66 w, ascq := bits 65 61 w, wq := wq, wscq := bits 54 50 w, psq := bits 49 45 w, outq := outq
    fullcol := false, rows := 32, tail := 0, loads := [], cpq := bits 38 34 w, cps := []
    ownCols := !w.testBit 39, extents := [], lasts := 0
    start := if t.awaited.testBit 32 then 0 else start
    wordPops := [one (bits 70 66 w), (wq, groupQs wq arrays)] ++ (if w.testBit 71 then [one (bits 65 61 w)] else []) ++
      (if w.testBit 60 then [one (bits 54 50 w)] else []) ++ (if w.testBit 39 then [(bits 38 34 w, groupQs (bits 38 34 w) arrays)] else [])
    wordPushes := [(outq, groupQs outq arrays)] ++
      (((bitsOf 8 start).map fun g => Tbl.get Gen.reset gens g).filter fun x => x.configured && !x.store).map fun x => (x.dq, [x.dq])
    wordSums := if f.single then [] else groupQs (bits 49 45 w) arrays
    seen := t.awaited
    early := if t.awaited.testBit 32 then [] else
      [bits 70 66 w, bits 65 61 w] ++ (f.used 0).map (wq + ·) ++ (f.used 0).map (bits 38 34 w + ·) }

/-- The same with the next vector, and the swap when its weight set is not yet in (R109). -/
def withVector (f : Fold) (t : Tile) (d : Drive) : Drive :=
  { d with
    vec := true
    arrays := maskOf (f.used t.ngroup)
    swap := t.swapped ≤ f.setNo t
    inj := !(t.chunk = 0 && t.sweep = 0)
    toPs := !f.final t
    apiece := (f.sweeps.getD t.sweep (0, 0)).1
    rows := f.rowsOf t.chunk
    tail := if t.chunk + 1 = f.chunks then f.tailLast else 0
    extents := f.extents t.ngroup
    lasts := f.lasts t }

/-- The last swap issued to an array, one before the program's first cycle where there was none. -/
def lastSwap (ops : List ArrOp) : Int :=
  ops.foldl (fun (a : Int) o => match o with | .swap p => max a p | _ => a) (-64)

/-- The row-loads that can issue in a cycle (R95, R98, R105): those next in the set being loaded, one an array, as many as the
read budget leaves and their queues hold, each after the swap of the set before has passed its row. With weight scales, of which a row-load
cycle pops one entry (R103), all that fit go together. -/
def State.tileLoads (s : State) (k : Nat) (f : Fold) (t : Tile) (d : Drive) : List (Nat × Nat) :=
  let i := t.sets
  let us := f.used (f.setAt i).1
  let u := us.length
  let n := f.n
  let c := s.issueCycle k
  let left := 8192 - (if d.vec then actBytes d.afmt n + (if d.ascEn then 32 else 0) + (if d.inj then 512 * (bitsOf 4 d.arrays).length else 0) else 0)
  let per := rowBytes d.wfmt n + if d.wscEn then 32 else 0
  let ent := entriesOf (rowBytes d.wfmt n)
  let late := i < t.swapped
  let nextUp := i = t.swapped || (d.swap && i = t.swapped + 1)
  if f.setCount ≤ i || !(late || nextUp) || us.isEmpty then []
  else
    let cand := (List.range (min (min u (left / per)) (f.setLoads i - t.loaded))).map fun j =>
      (us.getD ((t.loaded + j) % u) 0, (t.loaded + j) / u)
    let ok (x : Nat × Nat) : Bool :=
      let sw : Int := if d.swap && i = t.swapped + 1 then (c : Int) else if late || (d.swap && i = t.swapped) then -64
        else lastSwap (s.array (4 * k + x.1)).ops
      sw ≤ (c : Int) - x.2 && ent.1 ≤ (s.queue k (d.wq + x.1)).entries.length &&
        (x.2 ≠ 0 || d.ownCols || 1 ≤ (s.queue k (d.cpq + x.1)).entries.length)
    let l := cand.takeWhile ok
    if d.wscEn && ((s.queue k d.wscq).entries.isEmpty || l.length < cand.length) then [] else l

/-- The same cycle with its row-loads and the column parameters that go with row 0 (R100, R136). -/
def withLoads (f : Fold) (t : Tile) (l : List (Nat × Nat)) (d : Drive) : Drive :=
  { d with
    loads := l
    wpiece := if l.isEmpty then d.wpiece else (f.setAt t.sets).2.2
    cps := if d.ownCols then [] else
      (l.filter fun x => x.2 = 0).map fun x => (x.1, Tbl.get 0 (f.extents (f.setAt t.sets).1) x.1) }

/-- Whether the vector at a place may issue as far as its weight set goes (R98, R109): the set is in; or it is wholly loaded; or
its first row is, its other rows are in their queues, and one more goes with every cycle from this one. The tile's last set has as many vectors
as rows to come, since the next word becomes current after the last vector (R136). -/
def State.tileReady (s : State) (k w : Nat) (f : Fold) (t : Tile) : Bool :=
  let i := f.setNo t
  if i < t.swapped then true
  else if i < t.sets then true
  else
    let us := f.used (f.setAt i).1
    let rem := f.rowsOf (f.setAt i).2.1 - t.loaded / us.length
    t.sets = i && us.length ≤ t.loaded && t.loaded % us.length = 0 && bits 87 84 w ≠ 6 &&
      us.all (fun a => rem ≤ (s.queue k (bits 59 55 w + a)).entries.length) && (i + 1 < f.setCount || rem ≤ f.blockRows t.mblock) &&
      (!w.testBit 60 || rem ≤ (s.queue k (bits 54 50 w)).entries.length)

/-- The expander's place after row-loads. -/
def Fold.loadedMore (f : Fold) (t : Tile) (n : Nat) : Tile :=
  if t.sets < f.setCount && f.setLoads t.sets ≤ t.loaded + n then { t with sets := t.sets + 1, loaded := 0 } else { t with loaded := t.loaded + n }

/-- The queues that a cycle popped from or whose heads it saw, and that something has issued, kept (R151, R153, R157). The head that the first
cycle sees is the entry that the first pop takes. -/
def tileSeen (t : Tile) (early : List Nat) (got : List (Nat × Nat)) : Nat :=
  got.foldl (fun m x => setBit m x.1) (setBit (t.awaited ||| maskOf early) 32)

/-- One cycle put to the arrays, and the expander's place after it; a tile whose vectors and rows are all out completes its word
(R136). -/
def State.tileGo (s : State) (k w : Nat) (f : Fold) (t : Tile) (d : Drive) : Drove :=
  match s.drive k w (!t.awaited.testBit 32) d with
  | .issued x c got =>
    let t := { t with awaited := tileSeen t d.early got }
    let i := f.setNo t
    let t := if d.vec then f.advance { t with swapped := max t.swapped (i + 1) } else t
    let t := f.loadedMore t d.loads.length
    let x := x.setSeq k { x.seq k with tile := some t }
    .issued (if f.finished t then x.wordDone k true else x) c got
  | r => r

/-- Whether a tile's first vector would issue while one of its partial-sum queues holds an entry or a reservation (R137). -/
def State.sumsHeld (s : State) (k w : Nat) (f : Fold) (t : Tile) : Bool :=
  t.row = 0 && t.ngroup = 0 && t.mblock = 0 && t.chunk = 0 && t.sweep = 0 && !f.single &&
    (f.named.map (bits 49 45 w + ·)).any fun q => (s.queue k q).occ ≠ 0

/-- TILE_EXPANDER_ISSUE (R109): a vector with the row-loads that fit beside it, or row-loads alone while it stalls. -/
def State.tileIssue (s : State) (k : Nat) : State :=
  if !s.onClass k 1 then s
  else
    let w := s.curWord k
    match (s.seq k).tile with
    | none => s
    | some t =>
      let f := s.foldTile k w
      let d := tileDrive w f t (s.seq k).gens
      let alone := withLoads f t (s.tileLoads k f t d) d
      let rest (u : State) : State :=
        if alone.loads.isEmpty then u else s.settleDrove k (s.tileGo k w f t alone) fun x _ _ => x
      let idle := s.stallCycle k 0
      if f.finished t || !s.tileReady k w f t then rest idle
      else
        let v := withVector f t d
        let v := withLoads f t (s.tileLoads k f t v) v
        let late := t.sets < t.swapped || (v.swap && t.sets = f.setNo t)
        if late && v.loads.isEmpty then rest idle
        else
          match s.tileGo k w f t v with
          | .fault c => s.seqFault k c
          | .stalled u => rest u
          | .issued x _ _ => if s.sumsHeld k w f t then s.seqFault k 0x0409 else x

/-- TILE (R135, R136): the tile is handed to the expander; its operand pair and partial-sum queues must suit it. -/
def State.tileWord (s : State) (k : Nat) : State :=
  if !s.onClass k 1 || (s.seq k).tile.isSome then s
  else
    let w := s.curWord k
    let f := s.foldTile k w
    let same := f.named.all fun a => s.pairOn k a (bits 87 84 w) (bits 83 80 w) (bits 75 74 w) = f.n
    if f.n = 0 || !same then s.seqFault k 0x0404
    else if !f.single && !(f.named.all fun a => s.isData k (bits 49 45 w + a) 512) then s.seqFault k 0x0405
    else s.setSeq k { s.seq k with tile := some { Tile.reset with word := w, serial := (s.seq k).serial } }

/-- TILE (R136). -/
def execTile (k : Nat) (s : State) : Res := onUnit s (isCore k) (s.tileWord k)
/-- TILE_EXPANDER_ISSUE (R109). -/
def execTileExpanderIssue (k : Nat) (s : State) : Res := onUnit s (isCore k) (s.tileIssue k)

end Sys2Proof.Machine
end

