-- ==== Sys2Proof/Machine/Movers.lean ====
section
/-! DEFINITION. Address generators and memory movers (R155 to R161). -/

namespace Sys2Proof.Machine

/-! ### Addresses (R155, R159) -/

/-- A stream of a core. -/
def State.stream (s : State) (k g : Nat) : Option Stream := ((s.seq k).streams.find? fun e => e.1 = g).map fun e => e.2
/-- The same replaced. -/
def State.setStream (s : State) (k g : Nat) (x : Stream) : State := s.setSeq k { s.seq k with streams := Tbl.set (s.seq k).streams g x }

/-- A generator of a core. -/
def State.gen_ (s : State) (k g : Nat) : Gen := Tbl.get Gen.reset (s.seq k).gens g

/-- Runs of one loop nest. -/
def Gen.total (x : Gen) : Nat := (x.bounds.take x.levels).foldl (· * ·) 1

/-- The address of a run, its place in the nest counted with i0 fastest. -/
def Gen.addr (x : Gen) (base pos : Nat) : Nat :=
  let z := (List.range x.levels).foldl (fun (a : Int × Nat) j =>
    let b := max 1 (x.bounds.getD j 1)
    (a.1 + (a.2 % b : Nat) * x.strides.getD j 0, a.2 / b)) ((base : Int), pos)
  twos 56 z.1

/-- The next usable address record of a list: it with those after it, or the fault of reserved bits (R159). A record that is not
VALID is skipped, its END with it. -/
def nextRec : List Nat → Except Nat (Option (Nat × List Nat))
  | [] => .ok none
  | r :: l => if bits 61 56 r ≠ 0 then .error 0x040A else if r.testBit 63 then .ok (some (r, l)) else nextRec l

/-- The base in use of a stream: an INDIRECT one takes its next record, popping an address entry when it has none left. None
while the address queue is empty, or while every record left was skipped. -/
def State.streamBase (s : State) (k g : Nat) (st : Stream) : State × Except Nat (Option (Stream × Nat)) :=
  match st.base with
  | some b => (s, .ok (some (st, b)))
  | none =>
    let x := s.gen_ k g
    let q := s.queue k x.aq
    match st.recs, q.entries with
    | [], [] => (s, .ok none)
    | recs, es =>
      let fresh := recs.isEmpty
      let s := if fresh then s.setQueue k x.aq { q with entries := es.drop 1 } else s
      let recs := if fresh then (List.range 32).map fun i => lane 64 i ((es.headD Entry.reset).data) else recs
      match nextRec recs with
      | .error c => (s, .error c)
      | .ok none => (s.setStream k g { st with recs := [] }, .ok none)
      | .ok (some (r, l)) =>
        let st := { st with base := some (bits 55 0 r), recs := l, lastRec := r.testBit 62 }
        (s.setStream k g st, .ok (some (st, bits 55 0 r)))

/-- A stream after one more run: its nest wraps, and the stream ends after its last one (R155, R159). -/
def Stream.ran (st : Stream) (x : Gen) : Stream :=
  if st.pos + 1 < x.total then { st with pos := st.pos + 1 }
  else if x.indirect && !st.lastRec then { st with pos := 0, base := none }
  else { st with pos := 0, finished := true, recs := [] }

/-! ### What a mover may do -/

/-- Whether a core's movers are at work: they run on while the core is halted, and stand while it is held (R163, R165). -/
def State.movers (s : State) (k : Nat) : Bool := s.running k && s.seqState k ≠ 4 && (s.seq k).loaded

/-- A mover's access (R261). -/
def moverAccess (h : Shard) (k g kind va : Nat) : Access :=
  { ctx := h.ctx, tag := h.tag, engine := k, source := 0x40 + g, kind := kind, va := va, rep := 0, since := none }

/-- A stream's entry goes into its queue when it has room; the last one carries LAST (R146, R149, R158). -/
def State.pushStream (s : State) (k g : Nat) (st : Stream) : State :=
  let x := s.gen_ k g
  if (s.qdesc k x.dq).depth ≤ (s.queue k x.dq).occ then s.setStream k g st
  else
    (s.setStream k g { st with partEntry := 0, partData := 0 }).pushFrom k x.dq (4 + g) ⟨st.partData, st.stamp.getD 0, st.finished, 0, 0⟩

/-- MOVER_READ_RETURN (R158): the next run's bytes go into the entry being packed, and a full or last entry is pushed. An entry that
found its queue full is tried again. -/
def State.moverRead (s : State) (k g : Nat) : State :=
  match s.stream k g, (s.core k).shard with
  | some st, some h =>
    let x := s.gen_ k g
    let width := (s.qdesc k x.dq).width
    if !s.movers k || x.store then s
    else if st.partEntry = width || (st.finished && st.partEntry ≠ 0) then s.pushStream k g st
    else if st.finished then s
    else
      match s.streamBase k g st with
      | (t, .error c) => t.seqFault k c
      | (t, .ok none) => t
      | (t, .ok (some (st, b))) =>
        let va := x.addr b st.pos
        if va % 32 ≠ 0 then t.seqFault k 0x040C
        else
          match t.unitRead (.mover k g) (moverAccess h k g 0 va) x.run h.ring h.aseq with
          | (t, .wait) => t.setStream k g { st with stalled := true }
          | (t, .fail c) => t.failShard k c
          | (t, .data v bad) =>
            let t := (t.setStream k g { st with stalled := false }).count k 5 1 1
            if bad then t.seqFault k 0x040B
            else
              let st := { st with stalled := false, partData := st.partData + v * 2 ^ (8 * st.partEntry), partEntry := st.partEntry + x.run }
              let st := st.ran x
              if st.partEntry = width || st.finished then t.pushStream k g st else t.setStream k g st
  | _, _ => s

/-- STORE_MOVER_WRITE (R158): an entry is popped when the one before it is written out, and its next run is written. -/
def State.moverWrite (s : State) (k g : Nat) : State :=
  match s.stream k g, (s.core k).shard with
  | some st, some h =>
    let x := s.gen_ k g
    let width := (s.qdesc k x.dq).width
    if !s.movers k || !x.store || st.finished then s
    else
      match s.streamBase k g st with
      | (t, .error c) => t.seqFault k c
      | (t, .ok none) => t
      | (t, .ok (some (st, b))) =>
        let q := t.queue k x.dq
        match (if st.partEntry = 0 then q.entries.head?.map fun e => e.data else some st.partData) with
        | none => t
        | some data =>
          let va := x.addr b st.pos
          if va % 32 ≠ 0 then t.seqFault k 0x040C
          else
            let t := if st.partEntry = 0 then t.setQueue k x.dq { q with entries := q.entries.drop 1 } else t
            let st := if st.partEntry = 0 then { st with partEntry := width, partData := data } else st
            match t.unitWrite (.mover k g) (moverAccess h k g 1 va) x.run (st.partData % 2 ^ (8 * x.run)) h.ring h.aseq with
            | (t, .wait) => t.setStream k g { st with stalled := true }
            | (t, .fail c) => t.failShard k c
            | (t, .data n _) =>
              let st := { st with
                stalled := false, acks := st.acks + n, partEntry := st.partEntry - x.run
                partData := st.partData / 2 ^ (8 * x.run) }
              let st := st.ran x
              (t.setStream k g (if st.finished then { st with partEntry := 0, partData := 0 } else st)).count k 5 1 1
  | _, _ => s

/-- Whether a stream has nothing left to do (R157): a LOAD has pushed its last entry, a STORE's writes are all acknowledged, those
on a peer by its messages. -/
def State.streamOver (s : State) (k g : Nat) (st : Stream) (h : Shard) : Bool :=
  st.finished && st.partEntry = 0 && st.acks = 0 &&
    (!(s.gen_ k g).store || ((s.ring h.ring).accepted.all fun c => c.aseq ≠ h.aseq || c.arcWait = 0))

/-- STREAM_COMPLETE (R157): the generator is free again. -/
def State.streamComplete (s : State) (k g : Nat) : State :=
  match s.stream k g, (s.core k).shard with
  | some st, some h =>
    if s.movers k && s.streamOver k g st h then
      (s.setSeq k { s.seq k with streams := Tbl.erase (s.seq k).streams g }).finishSeq k
    else s
  | _, _ => s

/-- MOVER_READ_RETURN (R158). -/
def execMoverReadReturn (k g : Nat) (s : State) : Res := onUnit s (isCore k && isGen g) (s.moverRead k g)
/-- STORE_MOVER_WRITE (R158). -/
def execStoreMoverWrite (k g : Nat) (s : State) : Res := onUnit s (isCore k && isGen g) (s.moverWrite k g)
/-- STREAM_COMPLETE (R157). -/
def execStreamComplete (k g : Nat) (s : State) : Res := onUnit s (isCore k && isGen g) (s.streamComplete k g)

end Sys2Proof.Machine
end

