-- ==== Sys2Proof/Machine/Security.lean ====
section
/-! DEFINITION. Acrun and tenant isolation (R424 to R436): SPDM, the link keys, core masks and the teardown of a partition. -/

namespace Sys2Proof.Machine

/-! ### SPDM (R426 to R428) -/

/-- The codes of SPDM answers (DSP0274). -/
def spdmCertificate : Nat := 0x02
def spdmChallengeAuth : Nat := 0x03
def spdmMeasurements : Nat := 0x60
def spdmKeyExchange : Nat := 0x64
def spdmVendor : Nat := 0x7E
def spdmError : Nat := 0x7F

/-- Whether Acrun runs (R467, R468): with V3P3_AUX and REFCLK. -/
def State.acrunUp (s : State) : Bool := s.aux && s.refclk

/-- An SPDM error answer with its code: 1 InvalidRequest, 3 Busy. -/
def State.spdmFail (s : State) (code : Nat) : State := s.send (.spdm spdmError [BitVec.ofNat 8 code])

/-- A signature of the identity key over a message (R426). -/
def State.idSign (s : State) (m : List Byte) : List Byte := beBytes 96 (Config.identitySign m s.free).toNat

/-- An object's value in the bytes of its type (R13). -/
def State.objBytes (s : State) (key : Nat) : List Byte := leBytes (((rowOf key).map fun r => r.size).getD 0) (s.nat key)

/-- The objects of the isolation configuration in ascending order, then SVC_ENABLE and SVC_PUBKEY (R428). -/
def isolationKeys : List Nat :=
  ((List.range 8).flatMap fun d => (List.range 16).map fun p => oWaymask d p) ++
    ((List.range 8).flatMap fun d => (List.range 17).map fun p => oRegionBase d p) ++
    ((List.range 8).flatMap fun d => (List.range 16).map fun p => oTlbSetmask d p) ++
    ((List.range 32).map oCePartition) ++
    ((List.range 48).flatMap fun c => (List.range 32).map fun n => oChanOwner c n) ++
    ((List.range 64).map oOwner) ++ ((List.range 16).map oCoreMask) ++ ((List.range 32).map oFuncPartition) ++
    [oSvcEnable] ++ ((List.range 4).map oSvcPubkey)

/-- A measurement block (R428): none where the index names none. -/
def State.measureBlock (s : State) (i : Nat) : Option (List Byte) :=
  match i with
  | 1 => some (beBytes 48 (Config.acrunMeasure 1).toNat)
  | 2 => some (beBytes 48 (Config.acrunMeasure 2).toNat)
  | 3 => some (s.objBytes oFwMeasure)
  | 4 => some (sha384 (s.objBytes oSvnFused ++ beBytes 48 (Config.acrunMeasure 4).toNat))
  | 5 => some (sha384 (isolationKeys.flatMap fun k => s.objBytes k))
  | i => if 16 ≤ i ∧ i < 24 then some (beBytes 48 (Config.acrunMeasure i).toNat) else none

/-- GET_MEASUREMENTS (R428): 0 asks for the number of blocks, 0xFF for all of them. -/
def State.measurements (s : State) (i : Nat) (nonce : List Byte) : State :=
  let all := [1, 2, 3, 4, 5] ++ (List.range 8).map (16 + ·)
  let body := if i = 0 then some [BitVec.ofNat 8 all.length]
    else if i = 0xFF then some (all.flatMap fun j => (s.measureBlock j).getD [])
    else s.measureBlock i
  match body with
  | none => s.spdmFail 1
  | some b => (s.send (.spdm spdmMeasurements (b ++ s.idSign (nonce ++ b)))).drew

/-- KEY_EXCHANGE (R427): a fifth secured session is answered Busy. -/
def State.keyExchange (s : State) : State :=
  if 4 ≤ s.spdm then s.spdmFail 3
  else ({ s with spdm := s.spdm + 1 }.send (.spdm spdmKeyExchange (s.idSign []))).drew

/-- GET_CERTIFICATE (R427): slot 0 only. -/
def State.certificate (s : State) (slot : Nat) : State :=
  if slot = 0 then s.send (.spdm spdmCertificate Config.certChain) else s.spdmFail 1

/-- CHALLENGE (R427). -/
def State.challenge (s : State) (slot : Nat) (nonce : List Byte) : State :=
  if slot = 0 then (s.send (.spdm spdmChallengeAuth (s.idSign nonce))).drew else s.spdmFail 1

/-! ### Link keys (R431 to R433) -/

/-- A key slot by 16 × partition + slot. -/
def State.keySlot (s : State) (n : Nat) : KeySlot := Tbl.get KeySlot.reset s.keys n
/-- The same replaced. -/
def State.setKeySlot (s : State) (n : Nat) (k : KeySlot) : State := { s with keys := Tbl.set s.keys n k }

/-- KEY_SLOTS (R438). -/
def State.keysHeld (s : State) (p : Nat) : Nat := maskOf ((List.range 16).filter fun i => (s.keySlot (16 * p + i)).cur ≠ 0)

/-- The key of a SET (R432). -/
def derivedKey (q : KeyReq) : Nat := leNat (hkdf384 q.secret (leBytes 8 q.job ++ leBytes 4 q.epoch) (ascii "XELUM-ARC-KEY"))

/-- A vendor request's answer (R431). -/
def State.keyAnswer (s : State) (code : Nat) : State := s.send (.spdm spdmVendor [BitVec.ofNat 8 code])

/-- Whether a request is one over a secured session under the vendor's identifier (R431). -/
def State.keyHeard (s : State) (q : KeyReq) : Bool := q.secured && s.spdm ≠ 0 && q.vendor = Config.vendorId.toNat

/-- Whether a request's bytes are in range (R431). -/
def keyInRange (q : KeyReq) : Bool := q.part < 16 && q.slot < 16 && q.rsv = 0

/-- SET (R431 to R433): the current key becomes the previous one, the derived key is current, and its counter begins at 0 on every die. -/
def State.keySet (s : State) (q : KeyReq) : State :=
  if !s.keyHeard q then s
  else if !keyInRange q || q.secret.length ≠ 32 then s.keyAnswer 1
  else if s.ctr (oPartState q.part) = 2 then s.keyAnswer 3
  else if s.triples.contains (q.part, q.job, q.epoch) then s.keyAnswer 2
  else
    let n := 16 * q.part + q.slot
    let k := s.keySlot n
    let s := s.setKeySlot n { cur := derivedKey q + 1, prev := k.cur, kctr := [], installs := k.installs + 1 }
    let t := s.triples ++ [(q.part, q.job, q.epoch)]
    { s with triples := t.drop (t.length - 1024) }.keyAnswer 0

/-- CLEAR (R432): both keys of the slot are gone. -/
def State.keyClear (s : State) (q : KeyReq) : State :=
  if !s.keyHeard q then s
  else if !keyInRange q then s.keyAnswer 1
  else
    let n := 16 * q.part + q.slot
    (s.setKeySlot n { s.keySlot n with cur := 0, prev := 0 }).keyAnswer 0

/-! ### Core masks (R435) -/

/-- The cores that a mask loses: STALE at once without a shard, else when it ends (R402, R435). -/
def State.looseCore (s : State) (k : Nat) : State :=
  if (s.core k).shard.isNone then s.staleCore k else s.setCore k { s.core k with pendStale := true }

/-- CORE_MASK's effect on the named partitions (R435), and on the clusters whose cores it moves: one that serves again returns from power gating
(R402). -/
def State.setCoreMasks (s : State) (ms : List (Nat × Nat)) : State :=
  let old (m : Nat × Nat) (k : Nat) : Bool := (s.nat (oCoreMask m.1)).testBit k
  let lost := (List.range 96).filter fun k => ms.any fun m => old m k && !m.2.testBit k
  let moved := (((List.range 96).filter fun k => ms.any fun m => old m k != m.2.testBit k).map fun k => k / 4).dedup
  let s := lost.foldl (fun (s : State) k => s.looseCore k) s
  let s := ms.foldl (fun (s : State) m => s.put (oCoreMask m.1) m.2) s
  moved.foldl (fun (s : State) c => s.judgeGate c) s

/-! ### Teardown (R436) -/

/-- TEARDOWN's effect (R436): TEARING-DOWN, with the key slots empty. -/
def State.teardown (s : State) (p : Nat) : State :=
  let s := s.put (oPartState p) 2
  forUpTo 16 { s with teardowns := Tbl.set s.teardowns p (s.now + 1) } fun s i =>
    if (s.keySlot (16 * p + i)).cur = 0 && (s.keySlot (16 * p + i)).prev = 0 then s
    else s.setKeySlot (16 * p + i) { s.keySlot (16 * p + i) with cur := 0, prev := 0 }

/-- The lines of a slice's victim cache whose channels belong to a partition leave it without write-back (R436). -/
def State.victimForget (s : State) (n p : Nat) : State :=
  { s with victim := Tbl.set s.victim n ((Tbl.get [] s.victim n).filter fun l => s.linePart (512 * l.line) 99 ≠ p) }

/-- Steps 2 and 3 of R436: cores, ways with what their slices' victim caches hold, and set groups. -/
def State.tearCaches (s : State) (p : Nat) : State :=
  let mine := (List.range 96).filter fun k => s.corePart k = p
  let s := mine.foldl (fun (s : State) k => s.wipeCore k) s
  forUpTo 8 s fun s d =>
    let ways := s.wayMask d p
    let s := forUpTo 6 s fun s j => (s.sliceFlush (6 * d + j) false fun l => ways.testBit l.way).victimForget (6 * d + j) p
    let gs := s.tlbGroups d p
    s.tlbDrop fun t => t.unit = tlbDie d && gs.contains (t.set / 128)

/-- Steps 4 to 6 of R436: channels, copy engines, chord instances and totals. -/
def State.tearRest (s : State) (p : Nat) : State :=
  let s := forUpTo 1536 s fun s c => if s.chanOwner c = p then s.chanClear c else s
  let s := forUpTo 32 s fun s e => if s.nat (oCePartition e) = p then s.tlbDrop fun t => t.unit = tlbCe e else s
  let s := forUpTo 64 s fun s i => if s.objD 0xFF (oOwner i) = p then ((s.setMembers i 0).put (oOwner i) 0xFF).chordState i else s
  [oEngineNs p, oMemBytes p, oLinkBytes p, oHostBytes p, oEnergyMj p].foldl (fun (s : State) k => s.put k 0) s

/-- TEARDOWN_DONE (R436): the steps are done in order, and the partition leaves TEARING-DOWN. -/
def State.teardownDone (s : State) (p : Nat) : State :=
  match Tbl.get 0 s.teardowns p with
  | 0 => s
  | t + 1 =>
    let s := ((s.tearCaches p).tearRest p).put (oPartState p) 0
    { s with teardowns := Tbl.erase s.teardowns p }.put (oTeardownLast p) (s.now - t)

/-! ### The commands -/

/-- KEY_SET (R431 to R433). -/
def execKeySet (q : KeyReq) (s : State) : Res := .next (s.keySet q)
/-- KEY_CLEAR (R432). -/
def execKeyClear (q : KeyReq) (s : State) : Res := .next (s.keyClear q)
/-- GET_MEASUREMENTS (R428). -/
def execGetMeasurements (idx : Nat) (nonce : List Byte) (s : State) : Res := .next (if s.acrunUp then s.measurements idx nonce else s)
/-- KEY_EXCHANGE (R427). -/
def execKeyExchange (s : State) : Res := .next (if s.acrunUp then s.keyExchange else s)
/-- GET_CERTIFICATE (R427). -/
def execGetCertificate (slot : Nat) (s : State) : Res := .next (if s.acrunUp then s.certificate slot else s)
/-- CHALLENGE (R427). -/
def execChallenge (slot : Nat) (nonce : List Byte) (s : State) : Res := .next (if s.acrunUp then s.challenge slot nonce else s)
/-- TEARDOWN_DONE (R436). -/
def execTeardownDone (part : Nat) (s : State) : Res := onUnit s (isPart part) (s.teardownDone part)

end Sys2Proof.Machine
end

