-- ==== Sys2Proof/Machine/Starts.lean ====
section
/-! DEFINITION. Starts (R439 to R451), supplies and the reference clock (R467 to R470), and the thermal trip (R387). -/

namespace Sys2Proof.Machine

/-! ### The values of MODULE_STATE and START_KIND (R50, R449) -/

def msAuxOnly : Nat := 0
def msConfiguring : Nat := 1
def msReady : Nat := 2
def msSafe : Nat := 4
def kWarm : Nat := 1
def kCold : Nat := 2
def kExtended : Nat := 3

/-- MODULE_STATE. -/
def State.mstate (s : State) : Nat := s.nat oModuleState

/-! ### Stopping work (R441) -/

/-- Steps 1 and 2 of R441: nothing is fetched, every shard and copy stops, without capture records. -/
def State.stopWork (s : State) : State :=
  let s := { s with fetchStop := true }
  let s := forUpTo 96 s fun s k => if (s.core k).shard.isSome then s.stopShard k true else s
  let s := (s.dropUnit fun a => 256 ≤ a.engine).peerForget fun _ => true
  { s with rings := s.rings.map fun (e : Nat × Ring) =>
      (e.1, { e.2 with accepted := e.2.accepted.map fun (c : Cmd) => if c.op = 3 && c.begun then { c with begun := false } else c }) }

/-- Dirty data on their way to a home reach it: write-back buffers, answers of owners, and writes whose data their home holds (R217, R218, R221). -/
def State.landData (s : State) : State :=
  let s := forUpTo 96 s fun s k => (s.core k).wbb.foldl (fun (s : State) w => s.takeWb (s.corePart k) k w.1) s
  let s := (s.lattice.filter fun m => m.kind = "SNPDAT").foldl
    (fun (s : State) m => s.mergeSectors (s.corePart m.src) m.line (m.mask % 16) m.data (m.mask / 16)) s
  let reqs := (s.tx.map fun t => t.req) ++ s.txq.map fun q => q.2
  reqs.foldl (fun (s : State) q =>
    match q with
    | .iwr r pa bm d => if d.isEmpty then s else s.maskedStore (s.agentPart r) pa bm d
    | _ => s) s

/-- Step 3 of R441: every dirty sector of every L1, slice and victim cache is written back. -/
def State.writeBackAll (s : State) : State :=
  let s := s.landData
  let s := forUpTo 96 s fun s k => (s.l1Clear false k true).l1Clear true k true
  forUpTo 48 s fun s n => (s.sliceFlush n true fun _ => true).victimFlush n true

/-- Nothing is left in the dies but memory and what tables and flash hold: every unit of State that a start begins afresh. -/
def State.wipeDies (s : State) : State :=
  { s with
    seqs := []
    arrays := s.arrays.map fun (e : Nat × ArrayU) => (e.1, { ArrayU.reset with wants := e.2.wants, fault := e.2.fault })
    tables := []
    groups := []
    blocks := []
    cores := []
    l1d := []
    l1i := []
    dc := []
    victim := []
    reclaim := []
    layout := []
    dup := []
    tx := []
    txq := []
    lattice := []
    hlocks := []
    ramp := []
    buckets := []
    bucketAt := []
    bucketQ := []
    train := []
    tlbs := []
    walks := []
    faults := []
    peers := []
    parkq := []
    watch := []
    sigAdds := []
    addHandle := []
    rejects := []
    ctls := []
    chords := []
    clusters := s.clusters.map fun (e : Nat × ClusterU) => (e.1, { ClusterU.reset with calibrated := e.2.calibrated })
    duty := []
    grants := [6600, 1540, 480, 0]
    powerAt := s.now
    overCap := 0
    traceProd := 0
    traceCons := 0
    traceSeq := 0
    traceLoss := none
    watches := []
    throttle := s.throttle
    currentLimit := false
    hot := false
    teardowns := [] }

/-- Links are down, with nothing on them; cables stay where they are (R358). Their messages are to be sent again (R366). -/
def State.dropLinks (s : State) : State :=
  { s with
    links := s.links.map fun (e : Nat × Link) => (e.1, { Link.reset with
      prsntSince := e.2.prsntSince, eyes := e.2.eyes, prsntChanged := e.2.prsntChanged })
    arcs := s.arcs.map fun (e : Nat × Arc) => (e.1, { e.2 with
      unacked := e.2.unacked.map fun (t : TxMsg) => { t with sent := false, ring := 0, aseq := 0 } }) }

/-! ### Objects at a start (R19, R123, R394, R424) -/

/-- Whether an object is not the dictionary's to reset: fused words, the accepted image, and the level of a pin or of the Ethernet link. -/
def startKeeps (key : Nat) : Bool :=
  (fusedDefault key).isSome || key = oPresence || key = oLatchState || key = oEthLink

/-- The objects as a start of a kind leaves them (R19), those of a session and of a context among them (R412, R422). -/
def State.defaults (s : State) (kind : Nat) : State :=
  { s with
    obj := s.obj.filter fun e =>
      startKeeps e.1 || (match rowOf e.1 with
        | some r => r.persist = 2 || (r.persist = 1 && kind = kWarm)
        | none => false)
    sess := s.sess.map fun (c : Sess) => { c with ctxSel := 0, trendSel := 0 }
    ctxs := s.ctxs.map fun (e : Nat × Ctx) => (e.1, { e.2 with cntCfg := 0, cnt := [] }) }

/-- The fuse load of a cold start (R123): soft skips are burnt into an array's fuses where that is permitted. -/
def State.burnSkips (s : State) : State :=
  if s.nat oArrayHardRepair = 0 then s
  else forUpTo 384 s fun s a =>
    [true, false].foldl (fun (s : State) col =>
      let soft := s.softSkips col a
      if soft = 0xFFFF then s
      else
        let w := (skipsIn soft).foldl addSkip (s.fuseSkips col a)
        (s.put (if col then oFuseCols a else oFuseRows a) w).put (if col then oSoftCols a else oSoftRows a) 0xFFFF) s

/-- The fuses that mirror life and cold starts follow their counts (R394). -/
def State.burnFloors (s : State) : State :=
  forUpTo 8 s fun s d =>
    let up (f : Tbl Nat) (i v : Nat) : Tbl Nat := if v ≤ Tbl.get 0 f i then f else Tbl.set f i v
    { s with floors := up (up s.floors (4 * d) (min 2048 (s.lifeSec d / 230400))) (4 * d + 1) (min 512 (s.ctr (oColdStarts d) / 16)) }

/-- Counts below the floors of their fuses are raised, and sites whose fuse is burnt are RETIRED; LEDGER_STATE shows it (R394). -/
def State.raiseFloors (s : State) : State :=
  let s := forUpTo 8 s fun s d =>
    let f (i : Nat) : Nat := Tbl.get 0 s.floors (4 * d + i)
    let low := s.lifeSec d < 230400 * f 0 || s.ctr (oColdStarts d) < 16 * f 1 || s.ctr (oRepairs d) < f 2
    if low then
      let s := if s.lifeSec d < 230400 * f 0 then
        { s with life := Tbl.set s.life d (230400 * f 0 - s.now / 1000000000) } else s
      ((s.put (oColdStarts d) (max (s.ctr (oColdStarts d)) (16 * f 1))).put (oRepairs d) (max (s.ctr (oRepairs d)) (f 2))).put oLedgerState 1
    else s
  (s.retFuse.filter fun e => e.2).foldl (fun (s : State) e =>
    let d := e.1 / 512
    let x := e.1 % 512
    if s.siteState d x = 3 then s
    else
      let w := s.ctr (oSite d x)
      (s.put (oSite d x) (siteWord 3 (bits 60 56 w) (bits 55 40 w) (bits 31 0 w))).put oLedgerState 1) s

/-- What the sites say of their units holds again after the defaults (R397, R399): retired cores, ways, channels, links and engines. A fuse-disabled
core reads RETIRED (R476). -/
def State.reapplySites (s : State) : State :=
  let core (s : State) (k : Nat) : State := forUpTo 4 (s.put (oCoreState k) 2) fun s j => s.put (oArrayState (4 * k + j)) 4
  let s := forUpTo 8 s fun s d => forUpTo 409 s fun s x =>
    let w := s.ctr (oSite d x)
    let act := bits 60 56 w
    match bits 63 61 w, siteKind x with
    | 3, 0 => if act = 10 then core s (12 * d + x / 4) else s
    | 3, 1 => if act = 10 then core s (12 * d + (x - 48) / 4) else s
    | 3, 3 => s.put (kChanState (192 * d + (x - 192))) csRetired
    | 2, 3 => if act = 11 then s.put (kChanState (192 * d + (x - 192))) csDegraded else s
    | 3, 4 => if s.siteState d (otherHalf x) = 3 then s.put (oLinkState (6 * d + (x - 384) / 2)) lsRetired else s
    | 3, 5 => s.put (oCeState (4 * d + (x - 396))) 4
    | 3, 7 => forUpTo 4 s fun s j => core s (4 * (3 * d + (x - 406)) + j)
    | _, _ => s
  let s := forUpTo 8 s fun s d => (s.targetsOf d).foldl (fun (s : State) i =>
    if s.chanState (192 * d + i) = csRetired then s else s.put (kChanState (192 * d + i)) csTarget) s
  let s := offCores.foldl core s
  { s with sites := s.sites.map fun (e : Nat × SiteW) => (e.1, { e.2 with acting := false }) }.recount

/-- An image is accepted (R424): which of the two slots, and what it is, is the image's own. -/
def State.acceptImage (s : State) : State :=
  let n := s.free + 1
  ((((s.put oFwVersion (Config.fwVersion n).toNat).put oFwMeasure (Config.fwMeasure n).toNat).put oFwSlot (Config.fwSlot n).toNat).put
    oFwSvn (Config.fwSvn n).toNat).drew

/-- Migrations that a start cuts short: the target is spare again, and the channel's site begins its action anew (R244, R400; log entry 88). -/
def State.endMigrations (s : State) : State :=
  (s.chan.filter fun e => s.chanBase e.1 = csMigrating).foldl (fun (s : State) e => s.put (kChanOwner e.2.target) 0xFF) s

/-- What a channel keeps over a warm start: the writes that it holds and the place of the patrol scrub (R241, R243). -/
def ChanU.warm (u : ChanU) : ChanU := { u with fails := [], retries := [], suspect := [], was := 0, target := 0, trainHeld := false }

/-! ### The beginning of a start (R439, R440, R444) -/

/-- What every start does to the tables (R272, R278, R369, R439): key slots are empty, the levels of pins stay. -/
def State.startTables (s : State) : State :=
  { s with keys := [], sids := [], fetchStop := true, thermTrip := false, latchStop := false, hostTraining := [(0, true), (1, true)], failedStart := none }

/-- A start's records and state at its beginning (R440, R449). -/
def State.startMarks (s : State) (kind cause step : Nat) : State :=
  (((s.put oModuleState msConfiguring).put oStartKind kind).put oStartCause cause).put oStartStep step

/-- The root PLLs lock (R444 step 3). -/
def State.lockPlls (s : State) : State := forUpTo 8 s fun s d => s.put (oPllLock d) 1

/-- Arc ends after a cold start (R372, R373, R439): the next epoch, and everything begins again. -/
def State.coldArcs (s : State) : State :=
  { s with arcs := s.arcs.map fun (e : Nat × Arc) =>
      let a := e.2
      let n := (a.epoch + 1) % 65536
      (e.1, if a.live then
        { Arc.reset with
          live := true, kind := a.kind, ctx := a.ctx, part := a.part, fn := a.fn, vertex := a.vertex, keySlot := a.keySlot, name := a.name, rto := a.rto
          state := if a.kind = 0 then 1 else 0, epoch := n, keptFrom := n, ctlAt := s.now, ce := a.ce }
      else { a with epoch := n }) }

/-- A cold or extended cold start begins and comes to its step 5 (R439, R444). -/
def State.beginCold (s : State) (kind cause : Nat) (fromSafe : Bool) : State :=
  let life := s.lifeSec 0
  let began := s.now
  let s := ((s.stopWork.endMigrations.wipeDies.dropLinks.burnSkips.burnFloors.raiseFloors.lockPlls).acceptImage).startTables
  let s := { s with hbm := [], poison := [], chan := [], clusters := [], timeZero := s.now, powered := true, safeThermal := false, warmFails := [] }
  let s := ((s.coldArcs.defaults kind).reapplySites.lockPlls).startMarks kind cause 5
  let s := forUpTo 48 s fun s n => s.put (oStackState n) 1
  { s with starting := some { kind := kind, cause := cause, began := began, life := life, fromSafe := fromSafe, quiescing := false } }.judge

/-- A warm start begins with its quiesce (R441, R444); memory holds every completed write. Its N objects take their defaults. -/
def State.beginWarm (s : State) (cause : Nat) : State :=
  let life := s.lifeSec 0
  let s := (s.stopWork.writeBackAll.endMigrations.wipeDies.dropLinks.burnFloors.raiseFloors).startTables
  let s := { s with chan := s.chan.map fun (e : Nat × ChanU) => (e.1, e.2.warm) }
  let s := ((s.defaults kWarm).reapplySites.lockPlls).startMarks kWarm cause 1
  let s := forUpTo 48 s fun s n => s.put (oStackState n) 3
  { s with starting := some { kind := kWarm, cause := cause, began := s.now, life := life, fromSafe := false, quiescing := true } }.judge

/-- A start of a kind. -/
def State.beginStart (s : State) (kind cause : Nat) (fromSafe : Bool) : State :=
  if kind = kWarm then s.beginWarm cause else s.beginCold kind cause fromSafe

/-! ### Ends of starts (R445, R447, R449, R450) -/

/-- A START_HISTORY entry, the newest first (R450). -/
def State.history (s : State) (st : Start) (result step die code : Nat) : State :=
  let e := leNat (leBytes 4 st.life ++ [BitVec.ofNat 8 st.kind, BitVec.ofNat 8 st.cause, BitVec.ofNat 8 result, BitVec.ofNat 8 step,
    BitVec.ofNat 8 die, 0] ++ leBytes 2 code ++ leBytes 4 ((s.now - st.began) / 1000000))
  let s := (List.range 15).foldl (fun (s : State) i => s.put (oStartHistory (15 - i)) (s.nat (oStartHistory (14 - i)))) s
  s.put (oStartHistory 0) e

/-- Every VIN48 load is off (R442, R448, R467): the dies hold nothing. -/
def State.powerOff (s : State) : State :=
  let s := s.stopWork.wipeDies.dropLinks
  let s := forUpTo 48 s fun s l => if s.linkState l = lsRetired then s else s.linkDown l
  { s with hbm := [], poison := [], chan := [], powered := false, latchStop := false, starting := none, hostTraining := [(0, true), (1, true)] }

/-- SAFE (R448): both host links are down. -/
def State.enterSafe (s : State) (thermal : Bool) : State :=
  let s := (s.powerOff.put oModuleState msSafe).put oStartStep 0
  { s with safeThermal := thermal, hostLost := [(0, true), (1, true)], failedStart := none }.judge

/-- The kind of the start that follows a failed one, 0 for SAFE (R447). `warm` and `cold` count this failure. -/
def nextStart (st : Start) (warm cold : Nat) : Nat :=
  if st.fromSafe then 0
  else if st.kind = kWarm then (if warm < 2 then kWarm else kCold)
  else if st.kind = kCold then (if cold < 2 then kCold else kExtended)
  else 0

/-- A start fails at a step, by a die or none, with a code (R445, R447, R451). -/
def State.failStart (s : State) (step die code : Nat) : State :=
  match s.starting with
  | none => s
  | some st =>
    let s := forUpTo 8 s fun s d => s.bump 4 (oFailedStarts d) 1
    let warm := if st.kind = kWarm then
      s.mtime :: s.warmFails.filter (fun t => s.mtime < t + 600000000000) else s.warmFails
    let s := { s with warmFails := warm, starting := none }.put oWarmFailsRecent warm.length
    let s := if st.kind = kWarm then s else s.bump 1 oColdFails 1
    let next := nextStart st warm.length (s.ctr oColdFails)
    let s := if st.kind ≠ kWarm && 2 ≤ s.ctr oColdFails then
      forUpTo 8 s fun s d => s.put (oReasons d) (setBit (s.ctr (oReasons d)) 8) else s
    { s.history st (if next = 0 then 3 else 2) step die code with failedStart := some (next, code) }.judge

/-- START_ESCALATION (R447): the next start, with cause 5, or SAFE. -/
def State.escalate (s : State) : State :=
  match s.failedStart with
  | none => s
  | some (0, _) => s.enterSafe s.safeThermal
  | some (k, _) => s.beginStart k 5 false

/-- START_TIMEOUT (R424, R445): the bound of R444 has passed; or a start that verifies the firmware finds no image that a die accepts (log entry 80). -/
def State.startTimeout (s : State) (noImage : Option Nat) : State :=
  match s.starting, noImage with
  | none, _ => s
  | some st, none =>
    let bound := if st.kind = kWarm then 5 else if st.kind = kCold then 10 else 180
    (s.atTime (st.began + bound * 1000000000)).failStart (s.nat oStartStep) 0xFF 0x1004
  | some st, some d => if st.kind = kWarm then s else s.failStart 4 d 0x1001

/-- QUIESCE_TIMEOUT (R441): the warm start is recorded, and becomes a cold one with cause 6. -/
def State.quiesceTimeout (s : State) : State :=
  match s.starting with
  | none => s
  | some st =>
    if !st.quiescing then s
    else ((s.atTime (st.began + 2000000)).history st 2 1 0xFF 0x1005).beginCold kCold 6 false

/-- WATCHDOG (R440, R445): a die's management core has been silent for 100 ms. -/
def State.watchdog (s : State) (d : Nat) : State :=
  if s.starting.isSome then s.failStart (s.nat oStartStep) d 0x1003
  else if s.up then s.beginWarm 4
  else s

/-- The submitting rings, in ascending order. -/
def State.submitRings (s : State) : List Nat := (s.rings.filter fun e => e.2.live && e.2.kind < 4).map fun e => e.1

/-- A stack is trained in full (R246): what its channels' training margins then are, is free (R404; log entry 5). -/
def State.fullTrain (s : State) (n : Nat) : State :=
  (forUpTo 32 (s.put (oLastFullTrain n) s.mtime) fun s i =>
    let c := 32 * n + i
    s.minI32 (oHbmMargin (c / 192) (c % 192)) (sext 32 (Config.freeNat 15 (1536 * s.free + c)).toNat)).drew

/-- A stack whose quick verify failed (R246): it is trained in full, and its words are written with the poison mark. -/
def State.poisonStack (s : State) (n : Nat) : State :=
  { s with
    chan := (List.range 32).foldl (fun t i => Tbl.modify ChanU.reset t (32 * n + i) fun u => { u with held := [] }) s.chan
    poison := s.poison.filter (fun a => a / 2 ^ 31 ≠ n) ++ List.range' (n * 2 ^ 31) (2 ^ 31) }.fullTrain n

/-- START_COMPLETE (R246, R272, R388, R444 steps 6 to 13): the clusters run at their points, host objects are rebuilt and every ring is reconciled; slices enter SERVICE. `bad` lists the stacks
whose quick verify failed, which only a warm start makes. -/
def State.completeStart (s : State) (bad : List Nat) : State :=
  match s.starting with
  | none => s
  | some st =>
    let cold := st.kind ≠ kWarm
    let s := forUpTo 48 s fun s n => (s.evictMode n 0).put (oStackState n) 0
    let s := if cold then forUpTo 48 s fun s n => s.fullTrain n
      else bad.foldl (fun (s : State) n => s.poisonStack n) s
    let s := { s with
      starting := none, fetchStop := false
      links := s.links.map fun (e : Nat × Link) => (e.1, { e.2 with prsntChanged := false })
      rings := s.rings.map fun (e : Nat × Ring) => (e.1, { e.2 with fetched := none, able := false, resumed := false }) }
    let s := forUpTo 24 s fun s c => s.enterPoint c (s.ctr (oPointLimit c)) 3
    let s := s.rebuildObjects
    let s := s.submitRings.foldl (fun (s : State) k => s.reconcile k) s
    let s := forUpTo 8 s fun s d => s.bump 4 (if cold then oColdStarts d else oWarmStarts d) 1
    let s := forUpTo 8 s fun s d => s.put (oReasons d) (clrBit (clrBit (s.ctr (oReasons d)) 8) 9)
    let s := ((s.put oWarmFailsRecent 0).put oColdFails 0).burnFloors
    let s := ((({ s with warmFails := [], hostLost := [] }.put oModuleState msReady).put oStartStep 0).put oStartDuration (s.now - st.began)).judge
    s.history st (if s.mstate = msReady then 0 else 1) 0 0xFF 0

/-- STOP (R442): work stops, the completion state is persisted, the ledger is committed, and the loads are off. -/
def State.stopModule (s : State) : State :=
  let s := s.stopWork
  let s := s.submitRings.foldl (fun (s : State) k => s.persist k) s
  let s := (s.commit).powerOff
  (((s.defaults kWarm).reapplySites).put oModuleState msAuxOnly).put oStartStep 0

/-- Whether START_REQ takes a kind now (R448, R449). In AUX-ONLY a start needs VIN48, and memory has lost what a warm start keeps. -/
def State.startOk (s : State) (kind : Nat) : Bool :=
  if s.mstate = msConfiguring then false
  else if s.mstate = msSafe then (kind = kCold || kind = kExtended) && !(s.safeThermal && s.hot)
  else if s.mstate = msAuxOnly then (kind = kCold || kind = kExtended) && s.vin48
  else true

/-- START_REQ's effect (R440, R442). -/
def State.startReq (s : State) (v : Nat) : State :=
  if v = 4 then s.stopModule else s.beginStart v 2 (s.mstate = msSafe)

/-! ### Supplies and the reference clock (R467, R468, R470) -/

/-- AUX-ONLY (R467): the dictionary answers, with every N and W object at its default. -/
def State.auxOnly (s : State) : State :=
  let s := (s.defaults kCold).reapplySites
  let s := [oFwVersion, oFwMeasure, oFwSlot, oFwSvn].foldl (fun (s : State) k => s.unset k) s
  { s with ctlReady := true }.put oModuleState msAuxOnly

/-- AUX_POWER_ON (R467): where VIN48 is already there, a POWER-ON start follows at once. -/
def State.auxUp (s : State) (mv : Nat) : State :=
  if s.aux || mv < 3000 then s
  else
    let s := { s with aux := true }
    if !s.refclk then s
    else
      let s := (s.auxOnly).put oAuxMv mv
      if s.vin48 then s.beginCold kCold 1 false else s

/-- POWER_ON (R440): VIN48 rises above 40 V; without AUX-ONLY nothing follows. -/
def State.powerOn (s : State) (mv : Nat) : State :=
  if mv ≤ 40000 then s
  else
    let s := { s with vin48 := true }
    if s.ctlReady && s.mstate = msAuxOnly then (s.beginCold kCold 1 false).put oVin48Mv mv else s

/-- A start cut short by the loss of its supply (R447, R450). -/
def State.cutShort (s : State) : State :=
  match s.starting with
  | none => s
  | some st => { s with starting := none }.history st 4 (s.nat oStartStep) 0xFF 0

/-- VIN48_LOSS (R467). -/
def State.vin48Loss (s : State) (mv : Nat) : State :=
  if 38000 ≤ mv || !s.vin48 then s
  else
    let s := { s.cutShort.powerOff with vin48 := false, failedStart := none, safeThermal := false }
    if s.ctlReady then (((s.defaults kWarm).reapplySites.put oModuleState msAuxOnly).put oStartStep 0).put oVin48Mv mv else s

/-- A WRITE that flash did not take: every object of it holds its old value (R20). -/
def State.unwrite (s : State) (f : FlashRec) : State :=
  f.old.foldl (fun (s : State) o =>
    match o.2 with
    | some v => s.put o.1 v
    | none => { s with obj := Tbl.erase s.obj o.1 }) s

/-- WRITEs that flash did not hold when the power failed (R20): the first of them, as many as is free, are in flash, and the others undone, the newest
first, so that every object of one holds its old value, or every one its new one. -/
def State.flashLost (s : State) : State :=
  let n := ((List.range s.flash.length).takeWhile fun i => Config.flashKept (s.free + i)).length
  let s := (s.flash.drop n).reverse.foldl (fun (s : State) f => s.unwrite f) (s.bump 8 oFlashWrites n)
  { s with flash := [] }.drew

/-- The dictionary answers no more (R468): sessions, subscriptions and mailboxes are gone. A start and a reset of a host port leave the mailboxes as
they are (log entry 83). -/
def State.silence (s : State) : State :=
  { s with ctlReady := false, sess := [], sids := [], subs := [], mbx := [], fails := [], spdm := 0 }

/-- AUX_LOSS (R20, R393, R467): the whole module is off; totals are as last committed. -/
def State.auxLoss (s : State) (mv : Nat) : State :=
  if 3000 ≤ mv || !s.aux then s
  else
    let s := (s.cutShort.powerOff.flashLost).silence
    let s := s.defaults kCold
    let s := { s with
      aux := false
      obj := s.ledger.foldl (fun (o : Tbl (Option Nat)) (e : Nat × Option Nat) => Tbl.set o e.1 e.2) (s.obj.filter fun e => !inLedger e.1) }
    { s with keys := [], locks := [], identifyEnds := [], latchTimer := none, tapIr := 0, tapDr := [], tapRsp := [], failedStart := none, safeThermal := false
             warmFails := [] }

/-- REFCLK_LOSS (R468): the AON domain is held in reset, and every VIN48 load is off. -/
def State.refclkLoss (s : State) : State :=
  if !s.refclk then s else { (s.cutShort.powerOff.flashLost).silence with refclk := false, failedStart := none }

/-- REFCLK_RESTORED (R468). -/
def State.refclkBack (s : State) : State :=
  if s.refclk then s
  else
    let s := { s with refclk := true }
    if s.aux then s.auxOnly else s

/-- A host port counts as lost, and what it hits of the work that runs ends (R310, R314, R443). -/
def State.loseHost (s : State) (p : Nat) : State :=
  if Tbl.get false s.hostLost p then s else { s with hostLost := Tbl.set s.hostLost p true }.partLost

/-- PLL_LOCK_LOSS (R445, R470): every domain of the die stops; the host port of die 0 or 7 is lost; a start in progress fails. -/
def State.pllLoss (s : State) (d : Nat) : State :=
  let s := s.put (oPllLock d) 0
  let s := if d = 0 then s.loseHost 0 else if d = 7 then s.loseHost 1 else s
  if s.starting.isSome then s.failStart 3 d 0x1002 else s

/-! ### Heat (R387) -/

/-- Every shard ends with a code, and the records of what this ends are written. -/
def State.endAllShards (s : State) (code : Nat) : State :=
  let s := forUpTo 96 s fun s k =>
    if (s.core k).shard.isSome then
      let s := forUpTo 4 s fun s j => s.setArray (4 * k + j) { s.array (4 * k + j) with vecs := [] }
      (s.failShard k code).shardEnd k
    else s
  s.submitRings.foldl (fun (s : State) key => (List.range (s.ring key).accepted.length).foldl (fun (s : State) _ => s.terminal key) s) s

/-- THERMAL_TRIP (R387, R448, R472): at 110 °C compute is off, every shard ends with THERMAL-TRIP, and the module enters SAFE. -/
def State.thermalTrip (s : State) (sensor : Nat) (mdeg : Int) : State :=
  if mdeg < 110000 || s.mstate = msAuxOnly || s.mstate = msSafe then s
  else
    let s := { s.endAllShards 0x0D01 with thermTrip := true, hot := true }
    let d := sensor % 8
    ((s.put (oReasons d) (setBit (s.ctr (oReasons d)) 9)).cutShort).enterSafe true

/-! ### The commands -/

/-- AUX_POWER_ON (R467). -/
def execAuxPowerOn (mv : Nat) (s : State) : Res := .next (s.auxUp mv)
/-- POWER_ON (R440). -/
def execPowerOn (mv : Nat) (s : State) : Res := .next (s.powerOn mv)
/-- WATCHDOG (R440). -/
def execWatchdog (d : Nat) (s : State) : Res := onUnit s (isDie d) (s.watchdog d)
/-- QUIESCE_TIMEOUT (R441). -/
def execQuiesceTimeout (s : State) : Res := .next s.quiesceTimeout
/-- START_TIMEOUT (R445). -/
def execStartTimeout (noImage : Option Nat) (s : State) : Res := onUnit s (noImage.all isDie) (s.startTimeout noImage)
/-- START_ESCALATION (R447). -/
def execStartEscalation (s : State) : Res := .next s.escalate
/-- START_COMPLETE (R444). -/
def execStartComplete (bad : List Nat) (s : State) : Res := onUnit s (bad.all isStack) (s.completeStart bad)
/-- VIN48_LOSS (R467). -/
def execVin48Loss (mv : Nat) (s : State) : Res := .next (s.vin48Loss mv)
/-- AUX_LOSS (R467). -/
def execAuxLoss (mv : Nat) (s : State) : Res := .next (s.auxLoss mv)
/-- REFCLK_LOSS (R468). -/
def execRefclkLoss (s : State) : Res := .next s.refclkLoss
/-- REFCLK_RESTORED (R468). -/
def execRefclkRestored (s : State) : Res := .next s.refclkBack
/-- PLL_LOCK_LOSS (R470). -/
def execPllLockLoss (d : Nat) (s : State) : Res := onUnit s (isDie d) (s.pllLoss d)
/-- THERMAL_TRIP (R387). -/
def execThermalTrip (sensor : Nat) (mdeg : Int) (s : State) : Res := .next (s.thermalTrip sensor mdeg)

end Sys2Proof.Machine
end

