-- ==== Sys2Proof/Machine/Service.lean ====
section
/-! DEFINITION. The service panel (R452 to R458), the commands that end a drain or take a link down with what a latch's stop waits for,
host ports and management Ethernet as links (R443, R446, R52), and board signals (R472). -/

namespace Sys2Proof.Machine

/-! ### Host ports (R314, R443, R446) -/

/-- Whether a host port's functions can be reached: its link is up and its configuration space ready (R446). -/
def State.portReady (s : State) (p : Nat) : Bool := s.powered && !Tbl.get false s.hostTraining p

/-- HOST_CONFIG_READY (R446): from step 6 of a start, whose quiesce has then ended, and after a port has retrained; the port is no
longer lost. From there on the tests of an extended cold start hold the slices in TEST (R222, R444; log entry 88). -/
def State.configReady (s : State) (p : Nat) : Bool × State :=
  let t := { s with hostTraining := Tbl.set s.hostTraining p false, hostLost := Tbl.set s.hostLost p false }
  let locked := s.powered && s.ctr (oPllLock (7 * p)) = 1
  match s.starting with
  | some st =>
    let t := { t with starting := some { st with quiescing := false } }.put oStartStep 6
    (locked, if st.kind = kExtended then forUpTo 48 t fun s n => s.put (oEvictMode n) 2 else t)
  | none => (locked && s.up, t)

/-- A port's link is down and retrains: it counts as lost until it is ready again (R443). -/
def State.portDown (s : State) (p : Nat) : State := { s.loseHost p with hostTraining := Tbl.set s.hostTraining p true }

/-- HOST_PORT_RESET (R443): its functions' control-ring objects take their reset values. -/
def State.portReset (s : State) (p : Nat) : State :=
  forUpTo 16 (s.portDown p) fun s i =>
    let fn := 16 * p + i
    [oCtlRingBase fn, oCtlResultBase fn, oCtlLog2 fn].foldl (fun (s : State) key => { s with obj := Tbl.erase s.obj key }) (s.setCtlEnable fn 0)

/-! ### Identify (R452, R456, R458) -/

/-- How long an identify lasts, ns (R458). -/
def identifyNs : Nat := 60000000000

/-- A write of IDENTIFY: 60 s begin for the set bits (R458). -/
def State.setIdentify (s : State) (v : Nat) : State :=
  { s.put oIdentify v with identifyEnds := (bitsOf 9 v).map fun b => (b, s.now + identifyNs) }

/-- SVC_BTN_PRESS (R452): module identify is toggled. -/
def State.svcPress (s : State) : State :=
  if s.mstate = msConfiguring || s.mstate = msSafe then s.bump 4 oBtnIgnored 1
  else
    let v := s.nat oIdentify
    if v.testBit 8 then { s.put oIdentify (clrBit v 8) with identifyEnds := Tbl.erase s.identifyEnds 8 }
    else { s.put oIdentify (setBit v 8) with identifyEnds := Tbl.set s.identifyEnds 8 (s.now + identifyNs) }

/-- IDENTIFY_EXPIRE (R458): the identifies that end first end, and their bits clear. -/
def State.identifyExpire (s : State) : State :=
  match s.identifyEnds.foldl (fun (m : Option Nat) e => some (match m with | none => e.2 | some x => Nat.min x e.2)) none with
  | none => s
  | some t =>
    let s := s.atTime t
    let v := s.identifyEnds.foldl (fun (v : Nat) e => if e.2 ≤ s.now then clrBit v e.1 else v) (s.nat oIdentify)
    { s.put oIdentify v with identifyEnds := s.identifyEnds.filter fun e => s.now < e.2 }

/-! ### Buttons (R452, R453) -/

/-- SVC_BTN_HOLD (R452): a cold start with cause 3; from SAFE as R448 has it. -/
def State.svcHold (s : State) : State :=
  if s.mstate = msConfiguring || !(s.nat oBtnEnable).testBit 8 then s.bump 4 oBtnIgnored 1
  else if s.startOk kCold then s.beginCold kCold 3 (s.mstate = msSafe)
  else s

/-- The links of a group (R347): six of each die. -/
def groupLinks (d : Nat) : List Nat := (List.range 6).map fun i => 6 * d + i

/-- GRP_BTN_PRESS (R453). -/
def State.grpPress (s : State) (d : Nat) : State :=
  if !(s.nat oBtnEnable).testBit d || s.mstate = msConfiguring || s.mstate = msSafe then s.bump 4 oBtnIgnored 1
  else
    let out (l : Nat) : Bool := s.linkState l = lsDraining || s.linkState l = lsDrained
    let live := (groupLinks d).filter fun l => (s.link l).prsntSince.isSome && !out l
    if live.isEmpty then ((groupLinks d).filter out).foldl (fun (s : State) l => s.linkCtrl l 2) s
    else live.foldl (fun (s : State) l => s.linkCtrl l 1) s

/-! ### The latch (R455) -/

/-- The latch drains every link that can drain. -/
def State.latchDrainAll (s : State) : State := forUpTo 48 s fun s l =>
  if s.linkState l = lsUp then
    let s := s.linkCtrl l 1
    s.setLink l { s.link l with latchDrain := true }
  else s

/-- Whether a link is the last whose drain the latch's STOP waits for (R455). -/
def State.stopDue (s : State) (l : Nat) : Bool :=
  s.latchStop && s.up && s.linkState l = lsDraining && (List.range 48).all fun j => j = l || s.linkState j ≠ lsDraining

/-- The state `t` after an event of a link, which STOP follows where the event ends the last drain of the latch (R455). -/
def State.afterDrain (s : State) (l : Nat) (t : State) : State :=
  if s.stopDue l && t.linkState l ≠ lsDraining then t.stopModule else t

/-- The latch drains every link, and STOP follows once no link is DRAINING (R455). -/
def State.latchDrainStop (s : State) : State :=
  let s := s.latchDrainAll
  if !s.up then s
  else if (List.range 48).any fun l => s.linkState l = lsDraining then { s with latchStop := true }
  else s.stopModule

/-- LATCH_ASSERT (R455). -/
def State.latchOn (s : State) : State :=
  if s.nat oLatchState = 1 then s
  else
    let s := { s.put oLatchState 1 with latchTimer := none }
    match s.nat oLatchAction with
    | 0 => s
    | 1 => s.latchDrainAll
    | _ => s.latchDrainStop

/-- LATCH_DEASSERT (R455): with VIN48 present, the links that the latch drained resume 5 s later. A STOP that still waits for a drain is off
(log entry 60). -/
def State.latchOff (s : State) : State :=
  if s.nat oLatchState = 0 then s
  else { s.put oLatchState 0 with latchStop := false, latchTimer := if s.vin48 then some (s.now + 5000000000) else none }

/-- LATCH_RESUME_TIMER (R455). -/
def State.latchResume (s : State) : State :=
  match s.latchTimer with
  | none => s
  | some t =>
    let s := { s.atTime t with latchTimer := none }
    forUpTo 48 s fun s l => if (s.link l).latchDrain then s.linkCtrl l 2 else s

/-! ### Cables, lights and heat (R358, R456, R472) -/

/-- LINK_PRSNT_ASSERT (R358). -/
def State.prsntCame (s : State) (l : Nat) : State :=
  if (s.link l).prsntSince.isSome then s
  else
    (s.setLink l { s.link l with prsntSince := some s.now, downLate := false, prsntChanged := true }).put oPresence
      (setBit (s.nat oPresence) l)

/-- LINK_DOWN_LED_TIMER (R456): a cable has been present for more than 5 s at a link that is DOWN. -/
def State.ledTimer (s : State) (l : Nat) : State :=
  match (s.link l).prsntSince with
  | none => s
  | some t =>
    if s.linkState l = lsDown then
      let s := s.atTime (t + 5000000000)
      s.setLink l { s.link l with downLate := true }
    else s

/-- What a thermistor reads when it is open or shorted (R472). -/
def noTemp : Nat := 0x80000000

/-- A signed number of 32 bits as an I32 object holds it (R13). -/
def i32 (x : Int) : Nat := (x % 4294967296).toNat

/-- ALERT_N asserts while INLET_TEMP exceeds INLET_LIMIT; an open or shorted thermistor asserts nothing (R472). -/
def State.judgeInlet (s : State) : State :=
  match s.val oInletTemp with
  | none => { s with alert := false }
  | some t => { s with alert := t ≠ noTemp && decide ((s.nat oInletLimit : Int) < (if t < 2147483648 then (t : Int) else (t : Int) - 4294967296)) }

/-- INLET_TEMP_MEASUREMENT (R472). -/
def State.inlet (s : State) (mdeg : Option Int) : State :=
  (s.put oInletTemp (match mdeg with | none => noTemp | some x => i32 x)).judgeInlet

/-! ### Lights (R456, R458) -/

/-- LINK_LED (R456): the first row that applies. -/
def State.linkLed (s : State) (l : Nat) : Nat :=
  let st := s.linkState l
  let since := (s.link l).prsntSince
  let late := (s.link l).downLate || (match since with | some t => t + 5000000000 < s.now | none => false)
  if (s.nat oIdentify).testBit (l / 6) then 0
  else if since.isNone then 1
  else if st = lsDraining then 2
  else if st = lsDrained then 3
  else if st = lsRetired || (st = lsDown && late) then 4
  else if st = lsLooped then 5
  else if st = lsTraining || st = lsDown then 6
  else 7

/-- MODULE_LED (R456): the first row that applies. -/
def State.moduleLed (s : State) : Nat :=
  if (s.nat oIdentify).testBit 8 then 0
  else if s.mstate = msSafe then 1
  else if s.mstate = msAuxOnly then 2
  else if s.mstate = msConfiguring then 3
  else if 2 ≤ s.ctr oRecommendModule then 4
  else if s.mstate = 3 then 5
  else 6

/-- ALERT_N (R472): asserted while ATTN is lit by a row other than module identify, or the inlet is too warm. -/
def State.alertPin (s : State) : Bool := s.alert || s.moduleLed = 1 || s.moduleLed = 4 || s.moduleLed = 5

/-! ### The commands -/

/-- LINK_PRSNT_DEASSERT (R358, R454). -/
def execLinkPrsntDeassert (l : Nat) (s : State) : Res := onUnit s (isLink l) (s.afterDrain l (s.prsntGone l))
/-- HELLO_TIMEOUT (R358). -/
def execHelloTimeout (l : Nat) (s : State) : Res := onUnit s (isLink l) (s.afterDrain l (s.helloTimeout l))
/-- LCTRL_NAK (R355). -/
def execLctrlNak (l lseq : Nat) (s : State) : Res := onUnit s (isLink l) (s.afterDrain l (s.lctrlNak l lseq))
/-- LINK_DRAINED (R374). -/
def execLinkDrained (l : Nat) (s : State) : Res := onUnit s (isLink l) (s.afterDrain l (s.linkDrained l))
/-- DRAIN_TIMEOUT (R374). -/
def execDrainTimeout (l : Nat) (s : State) : Res := onUnit s (isLink l) (s.afterDrain l (s.drainTimeout l))
/-- HOST_CONFIG_READY (R446). -/
def execHostConfigReady (port : Nat) (s : State) : Res :=
  onUnit s (port < 2) (if (s.configReady port).1 then (s.configReady port).2 else s)
/-- HOST_PORT_RESET (R443). -/
def execHostPortReset (port : Nat) (s : State) : Res := onUnit s (port < 2) (s.portReset port)
/-- HOST_LINK_DOWN (R443, R314). -/
def execHostLinkDown (port : Nat) (s : State) : Res := onUnit s (port < 2) (s.portDown port)
/-- ETH_LINK_DOWN (R52). -/
def execEthLinkDown (s : State) : Res := .next (s.put oEthLink 0)
/-- ETH_LINK_UP (R52). -/
def execEthLinkUp (s : State) : Res := .next (s.put oEthLink 1)
/-- SPDM_SESSION_END (R427). -/
def execSpdmSessionEnd (s : State) : Res := .next { s with spdm := s.spdm - 1 }
/-- SVC_BTN_PRESS (R452). -/
def execSvcBtnPress (s : State) : Res := .next s.svcPress
/-- SVC_BTN_HOLD (R452). -/
def execSvcBtnHold (s : State) : Res := .next s.svcHold
/-- GRP_BTN_PRESS (R453). -/
def execGrpBtnPress (d : Nat) (s : State) : Res := onUnit s (isDie d) (s.grpPress d)
/-- LATCH_ASSERT (R455). -/
def execLatchAssert (s : State) : Res := .next s.latchOn
/-- LATCH_DEASSERT (R455). -/
def execLatchDeassert (s : State) : Res := .next s.latchOff
/-- LATCH_RESUME_TIMER (R455). -/
def execLatchResumeTimer (s : State) : Res := .next s.latchResume
/-- IDENTIFY_EXPIRE (R458). -/
def execIdentifyExpire (s : State) : Res := .next s.identifyExpire
/-- LINK_PRSNT_ASSERT (R358). -/
def execLinkPrsntAssert (l : Nat) (s : State) : Res := onUnit s (isLink l) (s.prsntCame l)
/-- LINK_DOWN_LED_TIMER (R456). -/
def execLinkDownLedTimer (l : Nat) (s : State) : Res := onUnit s (isLink l) (s.ledTimer l)
/-- INLET_TEMP_MEASUREMENT (R472). -/
def execInletTempMeasurement (mdeg : Option Int) (s : State) : Res := .next (s.inlet mdeg)

end Sys2Proof.Machine
end

