-- ==== Sys2Proof/Machine/Frames.lean ====
section
/-! DEFINITION. Geind frames: status codes (R25), the bytes of headers and items (R23, R24, R32, R34), and tags (R42). -/

namespace Sys2Proof.Machine

/-! ### Status codes (R25) -/

def stNoObject : Nat := 0x01
def stNoSub : Nat := 0x02
def stAccess : Nat := 0x03
def stLevel : Nat := 0x04
def stType : Nat := 0x05
def stRange : Nat := 0x06
def stUnavailable : Nat := 0x07
def stNoSession : Nat := 0x08
def stTooLarge : Nat := 0x09
def stBadFrame : Nat := 0x0A
def stLimit : Nat := 0x0B
def stChanged : Nat := 0x0C
def stNotApplied : Nat := 0x0D
def stStaleSeq : Nat := 0x0E

/-- A frame is at most 1,232 bytes long (R22). -/
def maxFrame : Nat := 1232

/-! ### Bytes -/

/-- Data padded with zero bytes to a multiple of 8 (R24). -/
def padded (l : List Byte) : List Byte := l ++ List.replicate ((8 - l.length % 8) % 8) 0

/-- An item record (R24). -/
def itemBytes (i : Item) : List Byte :=
  leBytes 8 (i.idx * 2 ^ 48 + i.sub * 2 ^ 40 + i.ty * 2 ^ 36 + i.rsv * 2 ^ 32 + i.istatus * 2 ^ 24 + i.data.length * 2 ^ 12 + i.seg) ++
    padded i.data

/-- What stands in a payload before the items: a sample time (R27), a subscription header (R32), a notification header (R34). -/
def leadBytes (f : Frame) : List Byte :=
  if f.op = 3 && f.flags.testBit 7 && !f.items.isEmpty then leBytes 8 f.time
  else
    match f.hdr with
    | none => []
    | some h =>
      if f.op = 5 then leBytes 8 f.time ++ leBytes 2 h.subid ++ [0, 0] ++ leBytes 4 h.dropped
      else leBytes 16 (h.period * 2 ^ 64 + h.mode * 2 ^ 56 + h.plan * 2 ^ 48 + h.subid * 2 ^ 32)

/-- A frame's payload. -/
def payloadBytes (f : Frame) : List Byte := leadBytes f ++ f.items.flatMap itemBytes

/-- A frame's header (R23). -/
def headBytes (f : Frame) : List Byte :=
  leBytes 16 (f.ver * 2 ^ 120 + f.op * 2 ^ 112 + f.flags * 2 ^ 104 + f.status * 2 ^ 96 + f.session * 2 ^ 64 + f.seq * 2 ^ 32 +
    (payloadBytes f).length * 2 ^ 16 + f.items.length)

/-- A frame without its CRC-32C. -/
def bodyBytes (f : Frame) : List Byte := headBytes f ++ payloadBytes f ++ f.tag.getD []

/-- A whole frame (R22). -/
def frameBytes (f : Frame) : List Byte := bodyBytes f ++ leBytes 4 (crc32c (bodyBytes f))

/-- A frame with its length and a right CRC-32C. -/
def sealed (f : Frame) : Frame :=
  { f with size := 20 + (payloadBytes f).length + (f.tag.getD []).length, crcOk := true, agree := true }

/-! ### Reading bytes -/

/-- `n` items that fill a payload exactly (R24, R480). -/
def itemsFrom : Nat → List Byte → Option (List Item)
  | 0, l => if l.isEmpty then some [] else none
  | n + 1, l =>
    let h := leNat (l.take 8)
    let len := bits 23 12 h
    let room := len + (8 - len % 8) % 8
    if l.length < 8 + room then none
    else
      let it : Item := {
        idx := bits 63 48 h
        sub := bits 47 40 h
        ty := bits 39 36 h
        rsv := bits 35 32 h
        istatus := bits 31 24 h
        seg := bits 11 0 h
        data := (l.drop 8).take len
        padOk := ((l.drop (8 + len)).take (room - len)).all fun b => b = 0 }
      (itemsFrom n (l.drop (8 + room))).map fun r => it :: r

/-- A subscription header (R32). The model's choice: its reserved bits [31:0], and a SUBID in a SUBSCRIBE, are ignored whatever they hold, since
R480 and R481 do not name them among what makes a frame BAD-FRAME (log entry 55). -/
def subHdrFrom (l : List Byte) : SubHdr :=
  let h := leNat (l.take 16)
  { period := bits 127 64 h, mode := bits 63 56 h, plan := bits 55 48 h, subid := bits 47 32 h, dropped := 0 }

/-- The frame that received octets spell (R22 to R24). -/
def frameFrom (l : List Byte) : Frame :=
  let body := l.take (l.length - 4)
  let h := leNat (body.take 16)
  let rest := body.drop 16
  let tagged := (bits 111 104 h).testBit 3 && 16 ≤ rest.length
  let pay := if tagged then rest.take (rest.length - 16) else rest
  let subs := bits 119 112 h = 4
  let its := if subs then (if pay.length < 16 then none else itemsFrom (bits 15 0 h) (pay.drop 16)) else itemsFrom (bits 15 0 h) pay
  { ver := bits 127 120 h
    op := bits 119 112 h
    flags := bits 111 104 h
    status := bits 103 96 h
    session := bits 95 64 h
    seq := bits 63 32 h
    time := 0
    hdr := if subs then some (subHdrFrom pay) else none
    items := its.getD []
    tag := if tagged then some (rest.drop (rest.length - 16)) else none
    size := l.length
    crcOk := 4 ≤ l.length && leNat (l.drop (l.length - 4)) = crc32c body
    agree := its.isSome && bits 31 16 h = pay.length }

/-! ### Tags (R42) -/

/-- The tag of a frame of a session opened by proof. -/
def frameTag (c : Sess) (f : Frame) : List Byte :=
  let sk := hmac256 c.key (ascii "GEIND-SK" ++ c.cnonce ++ c.dnonce)
  (hmac256 sk (headBytes f ++ payloadBytes f)).take 16

/-- Whether a session's frames carry tags (R42): it was opened by proof on management Ethernet. -/
def Sess.tags (c : Sess) : Bool := c.proven && c.port.tr = .eth

/-- A frame to a session as it is sent (R42). -/
def sentTo (c : Sess) (f : Frame) : Frame :=
  if c.tags then
    let g := { f with flags := f.flags % 128 / 16 * 16 + f.flags / 128 * 128 + 8 }
    sealed { g with tag := some (frameTag c g) }
  else sealed { f with tag := none }

/-! ### Frames that the module originates -/

/-- The response to a request (R23): its OP, CONSUME, DESC and CANCEL bits, and RSP. -/
def response (f : Frame) (status : Nat) (items : List Item) : Frame :=
  { ver := 1
    op := f.op
    flags := 128 + f.flags % 128 / 16 * 16
    status := status
    session := f.session
    seq := f.seq
    time := 0
    hdr := none
    items := items
    tag := none
    size := 0
    crcOk := true
    agree := true }

/-- The WRITE of one object that a row of the table stands for, by whom. -/
def writeOf (w : Who) (key : Nat) (data : List Byte) : Frame :=
  let it : Item := { idx := key / 256, sub := key % 256, ty := 0xF, rsv := 0, istatus := 0, seg := 0, data := data, padOk := true }
  sealed {
    ver := 1
    op := 2
    flags := if w.tag.isSome then 8 else 0
    status := 0
    session := w.sess
    seq := w.seq
    time := 0
    hdr := none
    items := [it]
    tag := w.tag
    size := 0
    crcOk := true
    agree := true }

end Sys2Proof.Machine
end

