-- ==== Sys2Proof/Machine/Dict.lean ====
section
/-! DEFINITION. Reading the Geind dictionary: which objects there are and who may see them (R12 to R18, R48, R49), the values that follow from
the rest of the state, and one item of a read (R15, R16, R26, R27, R31). -/

namespace Sys2Proof.Machine

/-! ### Objects and who sees them -/

/-- The reader or writer of a sessionless request (R37). -/
def anon (p : Port) : Sess :=
  { id := 0, level := 0, part := 0, port := p, pending := false, slot := 0, cnonce := [], dnonce := [], key := [], scope := 0
    proven := false, lastSeq := none, kept := [], opened := 0, lastUse := 0, tokenEnd := none, seg0 := [], ctxSel := 0, trendSel := 0
    ntfSeq := 0 }

/-- The rows of an index. -/
def idxRows (idx : Nat) : List ObjRow := objRows.filter fun r => r.i0 ≤ idx && idx ≤ r.i1 && (idx - r.i0) % r.stride == 0

/-- Subindex 0x00 of an index whose table does not list it (R12): the highest subindex, at the lowest level of the others. -/
def countRow (idx : Nat) : Option ObjRow :=
  match idxRows idx with
  | [] => none
  | r :: rs => some {
      i0 := idx
      i1 := idx
      stride := 1
      s0 := 0
      s1 := 0
      ty := 0
      size := 1
      acc := 3
      level := rs.foldl (fun (m : Nat) (x : ObjRow) => Nat.min m x.level) r.level
      dflt := some (rs.foldl (fun (m : Nat) (x : ObjRow) => Nat.max m x.s1) r.s1)
      persist := 0
      onChange := false }

/-- The row of an object, with the unlisted counts (R12). -/
def objRow (key : Nat) : Option ObjRow :=
  match rowOf key with
  | some r => some r
  | none => if key % 256 = 0 then countRow (key / 256) else none

/-- OBJECT_COUNT (R50): every index and subindex pair in 0x1000 to 0xBFFF. -/
def objectCount : Nat :=
  objRows.foldl (fun (n : Nat) (r : ObjRow) =>
    let units := (r.i1 - r.i0) / r.stride + 1
    let lone := r.s0 = 1 && !(objRows.any fun q => q.i0 = r.i0 && q.s0 = 0)
    n + units * (r.s1 - r.s0 + 1) + if lone then units else 0) 0

/-- The resident context of a hardware slot. -/
def State.slotCtx (s : State) (n : Nat) : Option (Nat × Ctx) := s.ctxs.find? fun e => e.2.live && e.2.hw = some n

/-- Whether an index is hidden from a session (R18, R304): another partition's contexts and other host functions, at L1. -/
def State.hides (s : State) (c : Sess) (idx : Nat) : Bool :=
  c.level = 1 &&
  if 0xA000 ≤ idx && idx ≤ 0xAFFF then
    match s.slotCtx (idx - 0xA000) with
    | some e => e.2.part ≠ c.part
    | none => true
  else if 0xB100 ≤ idx && idx ≤ 0xB1FF then
    !((c.port.tr = .mbx || c.port.tr = .vdm) && (idx - 0xB100) / 8 = c.port.fn)
  else false

/-- The context that a session has selected (R412), if it may see it. -/
def State.selCtx (s : State) (c : Sess) (h : Nat) : Option Ctx :=
  (s.ctxOf h).bind fun x => if c.level = 1 && x.part ≠ c.part then none else some x

/-- Whether a session's selected context is none that it may see (R412). -/
def State.noCtx (s : State) (c : Sess) (key : Nat) : Bool :=
  (key = oCtxCntCfg || key = oCtxCnt) && c.ctxSel ≠ 0 && (s.selCtx c c.ctxSel).isNone

/-- The first checks of an item naming a Jurad vendor object (R48): a session below L3 receives LEVEL for every index of the range. Which indexes
hold an object, and of which level, is free (log entry 81). -/
def vendorGate (c : Sess) (idx sub : Nat) : Nat :=
  if c.level < 3 then stLevel
  else
    match (Config.vendorIndex idx).toNat with
    | 0 => stNoObject
    | 1 => if (vendorRow (idx * 256 + sub)).isNone then stNoSub else 0
    | _ => stLevel

/-- The first checks of an item (R482): 0, or NO-OBJECT, NO-SUB or LEVEL. -/
def State.gate (s : State) (c : Sess) (idx sub : Nat) : Nat :=
  if 0xF000 ≤ idx then vendorGate c idx sub
  else if (idxRows idx).isEmpty || s.hides c idx then stNoObject
  else
    match objRow (idx * 256 + sub) with
    | none => stNoSub
    | some r =>
      if s.noCtx c (idx * 256 + sub) then stNoObject
      else if c.level < r.level || 4 ≤ r.level then stLevel
      else 0

/-! ### Units that are off, STALE or retired (R25, R402, R448) -/

/-- The core whose objects an index holds, and whether the object is its state. -/
def coreOfIdx (idx : Nat) : Option Nat :=
  if 0x8000 ≤ idx && idx ≤ 0x85FF then some ((idx - 0x8000) / 16)
  else if 0x2900 ≤ idx && idx ≤ 0x295F then some (idx - 0x2900)
  else if 0x3500 ≤ idx && idx ≤ 0x355F then some (idx - 0x3500)
  else if 0x6A00 ≤ idx && idx ≤ 0x6A5F then some (idx - 0x6A00)
  else if 0x6B00 ≤ idx && idx ≤ 0x6C7F then some ((idx - 0x6B00) / 4)
  else none

/-- Whether an index belongs to a unit that VIN48 powers. -/
def vin48Idx (idx : Nat) : Bool :=
  (coreOfIdx idx).isSome || (0x3410 ≤ idx && idx ≤ 0x3417) || (0x3C10 ≤ idx && idx ≤ 0x3C17) || (0x3600 ≤ idx && idx ≤ 0x362F) || (0x8600 ≤ idx && idx ≤ 0x86FF) || (0x8800 ≤ idx && idx ≤ 0x8EFF) ||
    (0x9000 ≤ idx && idx ≤ 0x97FF) || (0xB100 ≤ idx && idx ≤ 0xB1FF)

/-- Whether an object's unit cannot serve it: it is off, STALE, retired, or not yet trained, as a link is until its training ends and a stack until its
start does (R25, R246). What flash keeps can be reached all the same (log entry 89). -/
def State.unitOff (s : State) (r : ObjRow) (key : Nat) : Bool :=
  let idx := key / 256
  let keeps := r.persist ≠ 0
  if r.acc = 3 then false
  else if !s.powered && vin48Idx idx && !keeps then true
  else
    match coreOfIdx idx with
    | some k =>
      if key = oCoreState k then false
      else
        let st := s.ctr (oCoreState k)
        st = 1 || (s.cluster (k / 4)).gated || (st = 2 && !keeps)
    | none =>
      if 0x8600 ≤ idx && idx ≤ 0x86FF then
        let e := (idx - 0x8600) / 8
        let st := s.ctr (oCeState e)
        key ≠ oCeState e && (st = 3 || (st = 4 && !keeps))
      else if 0x9000 ≤ idx && idx ≤ 0x917F then
        let st := s.ctr (oArrayState (idx - 0x9000))
        key ≠ oArrayState (idx - 0x9000) && (st = 3 || (st = 4 && !keeps))
      else if 0x8C00 ≤ idx && idx ≤ 0x8EFF then
        let l := (idx - 0x8C00) / 16
        key ≠ oLinkState l && (s.linkState l = lsRetired || (s.linkState l = lsTraining && !(s.link l).trained)) && !keeps
      else if 0x8800 ≤ idx && idx ≤ 0x8AFF then
        let n := (idx - 0x8800) / 16
        key ≠ oStackState n && (s.ctr (oStackState n) = 1 || s.ctr (oStackState n) = 3) && !keeps
      else false

/-! ### Values that follow from the rest of the state -/

/-- The divider of a clock domain (R469): none while its root does not run. -/
def State.clkDiv (s : State) (n : Nat) : Option Nat :=
  if n = 56 then some 0
  else
    let d := if n < 56 then n / 7 else if n = 58 then 7 else 0
    if !s.powered || s.ctr (oPllLock d) = 0 then none
    else
      let fast := (List.range 3).foldl (fun (m : Nat) c => Nat.min m (s.ctr (oPoint (3 * d + c)))) 3
      if n = 57 || n = 58 then some 12
      else if n = 59 then some 480
      else
        match n % 7 with
        | 0 => some ([6, 8, 10, 12].getD fast 6)
        | 1 => some ([8, 10, 12, 16].getD fast 8)
        | 2 => some 8
        | 6 => some 30
        | _ => some 10

/-- Its frequency in kHz (R469). -/
def State.clkKhz (s : State) (n : Nat) : Option Nat :=
  if n = 56 then some 100000 else (s.clkDiv n).map fun d => 12000000 / d

/-- Spare rows and columns that nothing uses (R124). -/
def State.sparesFree (s : State) : Nat :=
  forUpTo 384 0 fun n a => n + (2 - (s.skipped false a).length) + (2 - (s.skipped true a).length)

/-- CE_STATE (R303). -/
def State.ceState (s : State) (e : Nat) : Nat :=
  let st := s.ctr (oCeState e)
  if 3 ≤ st then st
  else
    let r := s.ring (kCopyRing e)
    if r.accepted.any fun c => c.op = 3 && c.begun && c.ended.isNone then 1
    else if r.accepted.any fun c => c.waitSince.isSome then 2
    else 0

/-- PART_STATE (R438). -/
def State.partState (s : State) (p : Nat) : Nat :=
  if s.ctr (oPartState p) = 2 then 2 else if s.ctxs.any fun e => e.2.live && e.2.part = p then 1 else 0

/-- The value of a slot's object by its subindex (R302). A context is FAULTED by its outstanding faults and by those that wait for a record (R250); one
that is being destroyed is named by the handle that it had. -/
def State.slotValue (s : State) (n j : Nat) : Option Nat :=
  if j = 4 then some (s.ctr (oSlotLastUse n))
  else
    match s.slotCtx n with
    | none => some (if j = 3 then 0xFF else 0)
    | some e =>
      let h := if e.2.destroying then e.2.formerly else s.handle 1 e.1
      match j with
      | 1 => some (if e.2.destroying then 4 else if e.2.error then 3 else if s.faults.any fun f => f.acc.ctx = h then 2 else 1)
      | 2 => some h
      | 3 => some e.2.part
      | _ => some (s.rings.foldl (fun (n : Nat) r => n + (r.2.accepted.filter fun c => c.ctx = h).length) 0)

/-- The selected group's object of a core by its subindex (R201). -/
def State.groupValue (s : State) (k j : Nat) : Option Nat :=
  let x := s.group k (s.ctr (oGrpSel k))
  if !x.live then (if j = 6 then none else some 0)
  else
    match j with
    | 4 => some (x.pc % 18446744073709551616).toNat
    | 5 => some x.active
    | 6 => some (packLanes 32 ((List.range 8160).map fun i => Tbl.get 0 x.regs (256 * (i / 255) + i % 255)))
    | 7 => some (match x.lock with
      | some l => if l.held then 512 * l.line else 0
      | none => 0)
    | _ => some (Tbl.get 0 x.flags 0 + 256 * x.rnd)

/-- A sequencer's queues' occupancy, the slots reserved with the entries present (R146, R167): none before its first program (R479). -/
def State.queueOcc (s : State) (k : Nat) : Option Nat :=
  if s.seqs.any fun e => e.1 = k then
    some (packLanes 32 ((List.range 32).map fun q => (Tbl.get Queue.reset (s.seq k).queues q).occ))
  else none

/-- A session's trend record (R405, R422). -/
def State.trendValue (s : State) (c : Sess) : Nat :=
  leNat ((Tbl.get [] s.trend (c.trendSel / 65536)).getD (c.trendSel % 65536) [])

/-- Values of the module's own objects that are not stored. -/
def State.calcModule (s : State) (c : Sess) (key : Nat) : Option (Option Nat) :=
  let idx := key / 256
  let j := key % 256
  if key = oModuleTime then some (some s.mtime)
  else if key = oObjectCount then some (some objectCount)
  else if key = oSessionsOpen then some (some s.sess.length)
  else if key = oSubsOpen then some (some s.subs.length)
  else if key = oL3Sessions then some (some (s.sess.filter fun x => x.level = 3 && !x.pending).length)
  else if idx = 0x2010 then some (s.clkDiv (j - 1))
  else if idx = 0x2011 then some (s.clkKhz (j - 1))
  else if key = oSparesFree then some (some s.sparesFree)
  else if key = oContextsResident then some (some (s.ctxs.filter fun e => e.2.live && e.2.hw.isSome).length)
  else if key = oContextsParked then some (some (s.ctxs.filter fun e => e.2.live && e.2.hw.isNone).length)
  else if idx = 0x5810 || (0x5830 ≤ idx && idx ≤ 0x583F && j = 3) then some (s.thrTick.val key)
  else if key = oTrendSel then some (some c.trendSel)
  else if key = oTrend then some (some (s.trendValue c))
  else if key = oCtxSel then some (some c.ctxSel)
  else if key = oCtxCntCfg then some (some (((s.selCtx c c.ctxSel).map fun x => x.cntCfg).getD 0))
  else if key = oCtxCnt then
    some (some (((s.selCtx c c.ctxSel).map fun x => packLanes 64 ((List.range 16).map fun i => Tbl.get 0 x.cnt i)).getD 0))
  else if idx = 0x7C10 then some (some (s.linkLed (j - 1)))
  else if key = oModuleLed then some (some s.moduleLed)
  else none

/-- Values of units' objects that are not stored. -/
def State.calcUnit (s : State) (key : Nat) : Option (Option Nat) :=
  let idx := key / 256
  let j := key % 256
  if 0x2900 ≤ idx && idx ≤ 0x295F && j = 8 then some (some (s.seq (idx - 0x2900)).pc)
  else if 0x2900 ≤ idx && idx ≤ 0x295F && j = 11 then some (s.queueOcc (idx - 0x2900))
  else if 0x3600 ≤ idx && idx ≤ 0x362F && j = 4 then some (some (Tbl.get [] s.victim (idx - 0x3600)).length)
  else if 0x3C10 ≤ idx && idx ≤ 0x3C17 && j = 0x12 then some (some (s.faultsOn (idx - 0x3C10)).length)
  else if 0x8000 ≤ idx && idx ≤ 0x85FF then
    let k := (idx - 0x8000) / 16
    if idx % 16 = 0 && j = 2 then some (some (s.groups.filter fun e => e.1 / 64 = k && e.2.live).length)
    else if idx % 16 = 1 && 4 ≤ j && j ≤ 8 then some (s.groupValue k j)
    else none
  else if 0x8600 ≤ idx && idx ≤ 0x86FF && j = 2 then some (some (s.ceState ((idx - 0x8600) / 8)))
  else if 0x8C00 ≤ idx && idx ≤ 0x8EFF && j = 0x0B then some (some (s.soleRoutes ((idx - 0x8C00) / 16)))
  else if 0xA000 ≤ idx && idx ≤ 0xAFFF then some (s.slotValue (idx - 0xA000) j)
  else if 0xB000 ≤ idx && idx ≤ 0xB0FF && j = 1 then some (some (s.partState ((idx - 0xB000) / 16)))
  else if 0xB000 ≤ idx && idx ≤ 0xB0FF && j = 4 then some (some (s.keysHeld ((idx - 0xB000) / 16)))
  else if 0xB100 ≤ idx && idx ≤ 0xB1FF && j = 6 then
    some (some (s.rings.filter fun e => e.2.live && e.2.fn = (idx - 0xB100) / 8).length)
  else none

/-- The value of an object as a session reads it: none while it is unset (R479). -/
def State.valueFor (s : State) (c : Sess) (r : ObjRow) (key : Nat) : Option Nat :=
  if r.s0 = 0 && r.s1 = 0 then r.dflt
  else
    match s.calcModule c key with
    | some v => v
    | none =>
      match s.calcUnit key with
      | some v => v
      | none => s.val key

/-- The `n` decimal digits of a number, as ASCII. -/
def digits (n v : Nat) : List Byte := ((List.range n).map fun i => BitVec.ofNat 8 (0x30 + v / 10 ^ (n - 1 - i) % 10))

/-- SERIAL (R50): two letters for the plant, two digits of the year and two of the ISO week, a hyphen, and nine digits. -/
def serialOctets : List Byte :=
  let n (i : Nat) : Nat := (Config.serialPart i).toNat
  [BitVec.ofNat 8 (0x41 + n 0 % 26), BitVec.ofNat 8 (0x41 + n 1 % 26)] ++ digits 2 (n 2 % 100) ++ digits 2 (1 + n 3 % 53) ++ ascii "-" ++
    digits 9 (n 4 % 1000000000)

/-- The octets of a text object (R50). -/
def textOf (key : Nat) : Option (List Byte) :=
  if key = oVendor then some (ascii "Jurad Silicon")
  else if key = oProduct then some (ascii (if Config.sample then "JXM-896-ES" else "JXM-896-LC"))
  else if key = oStepping then some (ascii "A2")
  else if key = oSerial then some serialOctets
  else none

/-- The octets of an object's value (R13). -/
def State.valueBytes (s : State) (c : Sess) (r : ObjRow) (key : Nat) : Option (List Byte) :=
  match textOf key with
  | some l => some l
  | none => (s.valueFor c r key).map fun v => leBytes r.size v

/-! ### One item of a read -/

/-- Octet strings and texts are read in segments (R26). -/
def inSegments (r : ObjRow) : Bool := r.ty = 0xA || r.ty = 0xB

/-- DEFAULT of a descriptor (R31): 0 for an object of more than 8 bytes. The model's choice where the object's table shows no default: the value that
it holds from manufacture or from its firmware where R479 gives it one, and else 0 (log entry 82). -/
def descDefault (r : ObjRow) (key : Nat) : Nat :=
  if 8 < r.size then 0
  else
    match textOf key with
    | some l => leNat l
    | none => if r.s0 = 0 && r.s1 = 0 then r.dflt.getD 0 else (dfltOf key).getD 0

/-- An object's descriptor (R31). -/
def descriptor (r : ObjRow) (key : Nat) : List Byte :=
  let d := descDefault r key
  leBytes 16 (r.ty * 2 ^ 124 + r.acc * 2 ^ 120 + r.level * 2 ^ 116 + r.persist * 2 ^ 114 + (if r.onChange then 2 ^ 113 else 0) +
    r.size * 2 ^ 96 + d)

/-- How an item is read. -/
inductive ReadMode where
  | one | multi | desc
  deriving DecidableEq, Repr

/-- One item of a read and its data (R26, R27, R31, R482), without what a CONSUME clears. `peek` is false with CONSUME set. -/
def State.readItem (s : State) (c : Sess) (it : Item) (peek : Bool) (m : ReadMode) (multi : Bool) : Nat × List Byte :=
  let key := it.idx * 256 + it.sub
  let g := s.gate c it.idx it.sub
  if g ≠ 0 then (g, [])
  else
    match objRow key with
    | none => (stNoSub, [])
    | some r =>
      if (m ≠ .desc && r.acc = 2) || (!peek && r.acc ≠ 4) then (stAccess, [])
      else if (it.ty ≠ 0xF && it.ty ≠ r.ty) || (m = .multi && 8 < r.size) then (stType, [])
      else if it.seg ≠ 0 && (multi || m ≠ .one || !inSegments r) then (stRange, [])
      else if m = .desc then (0, descriptor r key)
      else
        match s.valueBytes c r key with
        | none => (stUnavailable, [])
        | some l =>
          if !inSegments r then (if s.unitOff r key then (stUnavailable, []) else (0, l))
          else if it.seg ≠ 0 && l.length ≤ 512 * it.seg then (stRange, [])
          else if s.unitOff r key then (stUnavailable, [])
          else if it.seg ≠ 0 && (c.seg0.any fun e => e.1 = key && e.2 ≠ Tbl.get 0 s.vers key) then (stChanged, [])
          else (0, (l.drop (512 * it.seg)).take 512)

/-- The response's item (R24, R482): the object's own type, or the request's where the object is not to be seen. -/
def answerItem (it : Item) (st : Nat) (data : List Byte) : Item :=
  let own := match objRow (it.idx * 256 + it.sub) with
    | some r => r.ty
    | none => it.ty
  { it with
    ty := if st = stNoObject || st = stNoSub || st = stLevel then it.ty else own
    rsv := 0
    istatus := st
    data := data
    padOk := true }

/-- The frame STATUS of a response (R482): that of the first item that is neither OK nor NOT-APPLIED. -/
def firstBad (l : List Nat) : Nat := (l.find? fun st => st ≠ 0 && st ≠ stNotApplied).getD 0

/-- Items answered LEVEL are counted (R50). -/
def State.countDenials (s : State) (l : List Nat) : State :=
  let n := (l.filter fun st => st = stLevel).length
  if n = 0 then s else s.bump 4 oLevelDenials n

/-! ### Sessions in State -/

/-- A session replaced. -/
def State.setSess (s : State) (c : Sess) : State :=
  { s with sess := s.sess.map fun (x : Sess) => if x.id = c.id then c else x }

/-- Whether a request comes the way a session belongs to (R36). -/
def samePort (a b : Port) : Bool := a.tr = b.tr && ((a.tr ≠ .mbx && a.tr ≠ .vdm) || a.fn = b.fn)

/-- The session of a request (R36). -/
def State.findSess (s : State) (p : Port) (id : Nat) : Option Sess := s.sess.find? fun c => c.id = id && samePort c.port p

/-- A session ends, and its subscriptions with it (R36). -/
def State.endSess (s : State) (id : Nat) : State :=
  { s with
    sess := s.sess.filter fun c => c.id ≠ id
    subs := s.subs.filter fun x => x.sess ≠ id }

/-! ### READ and READ-MULTI -/

/-- A read's items: status and data of each; the objects that a CONSUME read returned are cleared (R16), and a session's view of segment 0 is
kept (R26). -/
def State.readItems (s : State) (c : Sess) (f : Frame) : State × List (Nat × List Byte) :=
  let consume := f.flags.testBit 6
  let m : ReadMode := if f.flags.testBit 5 then .desc else if f.op = 3 then .multi else .one
  f.items.foldl (fun (a : State × List (Nat × List Byte)) it =>
    let s := a.1
    let c := if c.id = 0 then c else (s.sess.find? fun (x : Sess) => x.id = c.id).getD c
    let key := it.idx * 256 + it.sub
    let v := s.readItem c it (!consume) m (f.op = 3)
    let s := if v.1 = 0 && consume then s.put key 0 else s
    let s := match objRow key with
      | some r =>
        if v.1 = 0 && m = .one && c.id ≠ 0 && it.seg = 0 && inSegments r then
          s.setSess { c with seg0 := (key, Tbl.get 0 s.vers key) :: c.seg0.filter fun (e : Nat × Nat) => e.1 ≠ key }
        else s
      | none => s
    (s, a.2 ++ [v])) (s, [])

/-- READ or READ-MULTI performed (R26, R27, R31). -/
def State.doRead (s : State) (c : Sess) (f : Frame) : State × Frame :=
  if (if f.op = 1 then 1 else 64) < f.items.length then (s, response f stTooLarge [])
  else
    let a := s.readItems c f
    let its := (f.items.zip a.2).map fun (e : Item × (Nat × List Byte)) => answerItem e.1 e.2.1 e.2.2
    let sts := a.2.map fun (e : Nat × List Byte) => e.1
    (a.1.countDenials sts, { response f (firstBad sts) its with time := s.mtime })

end Sys2Proof.Machine
end

