-- ==== Sys2Proof/Machine/Sessions.lean ====
section
/-! DEFINITION. Sessions: openings (R38 to R40, R483), proofs (R39, R41), L3 tokens (R429), and how sessions end (R36, R41). -/

namespace Sys2Proof.Machine

/-! ### Transports (R43) -/

/-- Whether a port is a virtual function's mailbox. -/
def isVf (p : Port) : Bool := p.tr = .mbx && p.fn % 16 ≠ 0

/-- The level that a transport grants without proof (R43). -/
def portLevel (p : Port) : Nat :=
  match p.tr with
  | .eth => 0
  | .i3c => 2
  | .vdm => 2
  | .mbx => if isVf p then 1 else 2
  | .tap => 0

/-- The least PERIOD of a subscription, ns (R43); none on the test access port. -/
def leastPeriod (p : Port) : Option Nat :=
  match p.tr with
  | .eth => some 1000000
  | .i3c => some 100000000
  | .vdm => some 10000000
  | .mbx => some 1000000
  | .tap => none

/-! ### Openings (R38, R39, R40, R483) -/

/-- Whether an opening waits for a proof or a token (R39, R429). -/
def opensPending (p : Port) (lvl : Nat) : Bool := portLevel p < lvl

/-- Whether an opening needs a proof (R39, R429). -/
def needsProof (p : Port) (lvl : Nat) : Bool := opensPending p lvl && (lvl < 3 || p.tr = .eth)

/-- Whether a credential slot is locked (R41). -/
def State.slotLocked (s : State) (slot : Nat) : Bool := s.now < Tbl.get 0 s.locks slot

/-- The check of an opening value (R483): 0, LEVEL, RANGE or LIMIT. -/
def State.openStatus (s : State) (p : Port) (v : List Byte) : Nat :=
  let b (i : Nat) : Nat := (v.getD i 0).toNat
  let lvl := b 0
  let partBad := if lvl = 1 then !isVf p && 15 < b 2 else b 2 ≠ 0
  if lvl = 4 || (lvl < 4 && needsProof p lvl && s.slotLocked (b 1)) then stLevel
  else if 4 < lvl || ((v.drop 3).take 13).any (fun x => x ≠ 0) || partBad || (needsProof p lvl && 15 < b 1) then stRange
  else if 32 ≤ s.sess.length then stLimit
  else 0

/-- Whether a value may be a new SESSION (R483). -/
def State.sidFree (s : State) (v : Nat) : Bool := v ≠ 0 && !(s.sess.any fun c => c.id = v) && !s.sids.contains v

/-- A new SESSION value (R483): the random draw, or the next value that it may take. -/
def State.drawSid (s : State) : Nat :=
  let d := (Config.freeSession s.free).toNat
  ((List.range 1100).map fun i => (d + i) % 4294967296).find? (fun v => s.sidFree v) |>.getD d

/-- An opening that is in order (R38, R39, R40): the new session, and the 32 octets of its result. -/
def State.openSession (s : State) (p : Port) (v : List Byte) : State × List Byte :=
  let b (i : Nat) : Nat := (v.getD i 0).toNat
  let lvl := b 0
  let sid := s.drawSid
  let nonce := leBytes 16 (Config.freeNonce s.free).toNat
  let k := s.nat (oCredKey (b 1))
  let c := { anon p with
    id := sid
    level := lvl
    part := if lvl = 1 then (if isVf p then s.nat (oFuncPartition p.fn) else b 2) else 0
    pending := opensPending p lvl
    slot := b 1
    cnonce := (v.drop 16).take 16
    dnonce := nonce
    key := if needsProof p lvl && k ≠ 0 then leBytes 32 k else []
    scope := if needsProof p lvl then s.nat (oCredScope (b 1)) else 0xFF
    opened := s.now
    lastUse := s.now }
  ({ s with sess := s.sess ++ [c], sids := (sid :: s.sids).take 1024 }.drew, leBytes 4 sid ++ List.replicate 12 0 ++ nonce)

/-! ### Proofs (R39, R41, R42) -/

/-- Whether a credential slot's scope permits what a session asks for (R430). -/
def scopeOk (c : Sess) : Bool := c.scope = 0xFF || (c.level = 1 && c.scope = c.part)

/-- The proof that a pending session awaits (R39). -/
def proofOf (c : Sess) : List Byte := hmac256 c.key (c.cnonce ++ c.dnonce ++ leBytes 4 c.id)

/-- The status of a proof (R39): 0, ACCESS or LEVEL. The model's choice: a second proof in an L3 session that is proven and awaits its token
is answered ACCESS, as in an open session (log entry 54). -/
def proofStatus (c : Sess) (v : List Byte) : Nat :=
  if !c.pending || c.proven || (c.level = 3 && c.port.tr ≠ .eth) then stAccess
  else if c.key.isEmpty || !scopeOk c || v ≠ proofOf c then stLevel
  else 0

/-- A right proof (R39): an L3 session still awaits its token. -/
def State.proofGood (s : State) (c : Sess) : State := s.setSess { c with proven := true, pending := c.level = 3, lastUse := s.now }

/-- A wrong proof (R39, R41): the session is discarded, and three within 60 s lock the slot for 300 s. -/
def State.proofBad (s : State) (c : Sess) : State :=
  let l := s.now :: (Tbl.get [] s.fails c.slot).filter fun t => s.now < t + 60000000000
  let s := s.endSess c.id
  if 3 ≤ l.length then
    { s with fails := Tbl.erase s.fails c.slot, locks := Tbl.set s.locks c.slot (s.now + 300000000000) }
  else { s with fails := Tbl.set s.fails c.slot l }

/-! ### L3 tokens (R429) -/

/-- Whether a token verifies for a session (R429). -/
def State.tokenGood (s : State) (c : Sess) (v : List Byte) : Bool :=
  let key := s.nat (oSvcPubkey (v.getD 8 0).toNat)
  let dur := leNat ((v.drop 4).take 4)
  let msg := ascii "GEIND-L3" ++ serialOctets ++ c.cnonce ++ c.dnonce ++ v.take 32
  s.nat oSvcEnable = 1 && (c.port.tr ≠ .eth || (c.proven && c.scope = 0xFF)) && s.now ≤ c.opened + 5000000000 &&
    leNat (v.take 4) = c.id && 1 ≤ dur && dur ≤ 28800 && (v.getD 8 0).toNat ≤ 3 && ((v.drop 9).take 23).all (fun b => b = 0) &&
    key ≠ 0 && ecdsa384 (leBytes 97 key) msg ((v.drop 32).take 96)

/-- The status of a token (R429): 0, ACCESS outside a pending L3 session, or LEVEL. -/
def State.tokenStatus (s : State) (c : Sess) (v : List Byte) : Nat :=
  if !(c.pending && c.level = 3) then stAccess else if s.tokenGood c v then 0 else stLevel

/-- A token that verifies (R429): the session is open for DURATION. -/
def State.grantL3 (s : State) (c : Sess) (v : List Byte) : State :=
  s.setSess { c with pending := false, tokenEnd := some (s.now + 1000000000 * leNat ((v.drop 4).take 4)), lastUse := s.now }

/-- A token that fails (R429): counted, and the session is discarded. -/
def State.denyL3 (s : State) (c : Sess) : State := (s.endSess c.id).bump 4 oL3Denials 1

/-- SVC_ENABLE written (R429): false ends every L3 session. -/
def State.setSvcEnable (s : State) (v : Nat) : State :=
  let s := s.put oSvcEnable v
  if v = 0 then (s.sess.filter fun c => c.level = 3).foldl (fun (s : State) c => s.endSess c.id) s else s

/-! ### Timers -/

/-- Whether a session's time is over: idle (R36), pending for more than 5 s (R41), or past its token's DURATION (R429). -/
def State.expired (s : State) (c : Sess) : Bool :=
  c.lastUse + s.nat oSessionIdle ≤ s.now || (c.pending && c.opened + 5000000000 < s.now) ||
    (match c.tokenEnd with
      | some t => t ≤ s.now
      | none => false)

/-- Sessions whose time is over end, whether or not their timers' commands came (log entry 1). -/
def State.expire (s : State) : State := (s.sess.filter fun c => s.expired c).foldl (fun (s : State) c => s.endSess c.id) s

/-- SESSION_IDLE_TIMEOUT (R36). -/
def State.idleTimeout (s : State) (id : Nat) : State :=
  match s.sess.find? fun c => c.id = id with
  | none => s
  | some c => (s.atTime (c.lastUse + s.nat oSessionIdle)).endSess id

/-- PENDING_SESSION_TIMEOUT (R41). -/
def State.pendingTimeout (s : State) (id : Nat) : State :=
  match s.sess.find? fun c => c.id = id && c.pending with
  | none => s
  | some c => (s.atTime (c.opened + 5000000000)).endSess id

/-- CRED_SLOT_UNLOCK (R41). -/
def State.slotUnlock (s : State) (slot : Nat) : State :=
  match Tbl.get 0 s.locks slot with
  | 0 => s
  | t => { s.atTime t with locks := Tbl.erase s.locks slot }

/-- L3_SESSION_EXPIRE (R429). -/
def State.l3Expire (s : State) (id : Nat) : State :=
  match s.sess.find? fun c => c.id = id with
  | none => s
  | some c =>
    match c.tokenEnd with
    | none => s
    | some t => (s.atTime t).endSess id

/-! ### The commands -/

/-- SESSION_IDLE_TIMEOUT (R36). -/
def execSessionIdleTimeout (sess : Nat) (s : State) : Res := .next (s.idleTimeout sess)
/-- PENDING_SESSION_TIMEOUT (R41). -/
def execPendingSessionTimeout (sess : Nat) (s : State) : Res := .next (s.pendingTimeout sess)
/-- CRED_SLOT_UNLOCK (R41). -/
def execCredSlotUnlock (slot : Nat) (s : State) : Res := .next (s.slotUnlock slot)
/-- L3_SESSION_EXPIRE (R429). -/
def execL3SessionExpire (sess : Nat) (s : State) : Res := .next (s.l3Expire sess)

end Sys2Proof.Machine
end

