-- ==== Sys2Proof/Machine/Writes.lean ====
section
/-! DEFINITION. WRITE (R28): the check of every item against the values that would hold afterwards, the joint checks of masks, regions and
shares, the effect of each object, and RESTORE (R51). -/

namespace Sys2Proof.Machine

/-! ### Ranges that a value alone decides -/

/-- A selector of a counter (R411), of units up to `top`: reserved bits are 0, and the unit and event exist. -/
def selectorOk (top v : Nat) : Bool :=
  let u := bits 15 8 v
  let e := bits 7 0 v
  v = 0 || (bits 30 16 v = 0 && u ≤ top && ((u = 0 && e = 0) || (1 ≤ e && e ≤ [5, 4, 3, 3, 2, 3].getD u 0)))

/-- DOMAIN_ORDER names each domain once (R390). -/
def orderOk (v : Nat) : Bool :=
  let l := [bits 1 0 v, bits 3 2 v, bits 5 4 v]
  v < 64 && l.contains 0 && l.contains 1 && l.contains 2

/-- A window length in seconds (R398). -/
def windowOk (sec : Nat) : Bool := 16 ≤ sec && sec ≤ 2592000 && sec % 16 = 0

/-- Values of the module's own objects that are in range. -/
def moduleRange (key v : Nat) : Bool :=
  let within (lo hi : Nat) : Bool := lo ≤ v && v ≤ hi
  let idx := key / 256
  if key = oRestore then v = 0xA5
  else if key = oSessionClose then v = 1
  else if key = oEthUdpPort then 1 ≤ v
  else if key = oSessionIdle then within 1000000000 3600000000000
  else if 0x1840 ≤ idx && idx ≤ 0x184F && 2 ≤ key % 256 then v % 256 = 0
  else if key = oArrayIdleGate then 16 ≤ v
  else if key = oRepairRequest then bits 31 23 v < 384 && bits 21 16 v < 34 && bits 15 0 v = 0
  else if key = oPatrolPeriod then within 3600000000000 604800000000000
  else if key = oTrainSlotPeriod then v = 0 || within 1000000000 3600000000000
  else if key = oFaultTimeoutDefault then within 1000 3600000000000
  else if idx = 0x4010 || idx = 0x4011 then key % 256 ≠ 1 || v % 4096 = 0
  else if key = oRerunLimit then v ≤ 7
  else if key = oSigPoll then within 1000 1000000
  else if key = oArcRto then within 5000 10000000
  else if key = oArcResendLimit || key = oHopLimit then 1 ≤ v
  else if key = oDrainTimeout then within 1000000 60000000000
  else if key = oRouteSet then routeOk v
  else if key = oPowerCap then within 4000 9600
  else if key = oDomainOrder then orderOk v
  else if key = oThermThrottle then within 85000 105000
  else if key = oExtPoint then within 1 3
  else if key = oTangentHold then within 10000 10000000
  else if key = oDroopThresh then within 20 100
  else if key = oSiteClear then bits 28 20 v < 409 && bits 19 0 v = 0
  else if key = oTrendSel then v < 524288
  else if idx = 0x6010 then v % 1000000000 = 0 && windowOk (v / 1000000000)
  else if idx = 0x6011 then 1 ≤ v
  else if idx = 0x6020 then
    !v.testBit 63 || (bits 50 48 v = 0 && bits 59 51 v < 409 && 1 ≤ bits 47 32 v && windowOk (bits 31 0 v))
  else if key = oTraceBase then v % 4096 = 0
  else if key = oTraceLog2 then within 6 20
  else if key = oTracePort then v ≤ 1
  else if key = oTraceProdAddr then v % 8 = 0
  else if key = oTraceMask then v ≤ 7
  else if key = oCtxCntCfg then (List.range 16).all fun i => selectorOk 4 (lane 32 i v)
  else if idx = 0x7002 && key % 256 ≤ 4 then v = 0 || v % 256 = 4
  else if idx = 0x7005 then v ≤ 15 || v = 0xFF
  else if key = oStartReq then within 1 4
  else if key = oBtnEnable || key = oIdentify then v < 512
  else if key = oLatchAction then v ≤ 2
  else if key = oInletLimit then within 15000 45000
  else true

/-- Values of units' objects that are in range. -/
def unitRange (key v : Nat) : Bool :=
  let within (lo hi : Nat) : Bool := lo ≤ v && v ≤ hi
  let idx := key / 256
  let j := key % 256
  if 0x2900 ≤ idx && idx ≤ 0x295F && j = 1 then v ≤ 7
  else if 0x8000 ≤ idx && idx ≤ 0x85FF && idx % 16 = 1 && j = 1 then v ≤ 2
  else if 0x8000 ≤ idx && idx ≤ 0x85FF && idx % 16 = 1 && j = 3 then v ≤ 63
  else if 0x3500 ≤ idx && idx ≤ 0x362F then v ≤ 2
  else if 0x3810 ≤ idx && idx ≤ 0x3817 then v ≤ 191
  else if 0x3820 ≤ idx && idx ≤ 0x382F && (j = 2 || j = 4) then within 512 2147483648
  else if 0x8800 ≤ idx && idx ≤ 0x8AFF then v ≤ 0x10 || v = 0xFF
  else if 0x8600 ≤ idx && idx ≤ 0x86FF then v ≤ 15
  else if 0xB100 ≤ idx && idx ≤ 0xB1FF then
    match j with
    | 1 => v ≤ 15 && (idx - 0xB100) / 8 % 16 ≠ 0
    | 2 => v % 4096 = 0
    | 3 => v % 4096 = 0
    | 4 => within 6 12
    | _ => true
  else if 0x4410 ≤ idx && idx ≤ 0x441F && j = 1 then v ≤ 1
  else if 0x4410 ≤ idx && idx ≤ 0x441F && (j = 2 || j = 3) then 1 ≤ v
  else if 0x9400 ≤ idx && idx ≤ 0x97FF && j = 1 then v ≤ 15 || v = 0xFF
  else if 0x9400 ≤ idx && idx ≤ 0x97FF && j = 8 then v ≤ 7
  else if 0x8C00 ≤ idx && idx ≤ 0x8EFF then within 1 3
  else if 0x9200 ≤ idx && idx ≤ 0x92BF then v ≤ 3
  else if 0x6A00 ≤ idx && idx ≤ 0x6A5F then selectorOk 5 v
  else if 0x6B00 ≤ idx && idx ≤ 0x6C7F && j = 1 then bits 45 0 v = 0 && bits 57 54 v ≤ 9
  else true

/-! ### Checks against the values that would hold (R28) -/

/-- Whether a partition has a context, resident or parked. -/
def State.hasCtx (s : State) (p : Nat) : Bool := s.ctxs.any fun e => e.2.live && e.2.part = p

/-- Whether a mask meets another partition's mask of the same kind. -/
def masksMeet (mask : Nat → Nat) (p : Nat) : Bool := (List.range 16).any fun q => q ≠ p && mask p &&& mask q ≠ 0

/-- Units that an owner's region of an octant takes after a WRITE (R232). -/
def State.regionUnits (s : State) (post : Nat → Nat) (d p : Nat) : Nat :=
  let ts := s.targetsOf d
  ((List.range 192).filter fun i =>
    post (kChanOwner (192 * d + i)) = p && s.chanBase (192 * d + i) ≠ csTarget && !ts.contains i).length

/-- Whether an owner's region leaves its octant or meets another region after a WRITE (R236). -/
def State.regionBad (s : State) (post : Nat → Nat) (d p : Nat) : Bool :=
  let n := s.regionUnits post d p
  let b := post (oRegionBase d p)
  n ≠ 0 && (192 < b + n || (List.range 17).any fun q =>
    q ≠ p && (let m := s.regionUnits post d q; let c := post (oRegionBase d q); m ≠ 0 && b < c + m && c < b + n))

/-- Whether members are all the owner's (R337). -/
def membersOk (post : Nat → Nat) (i m : Nat) : Bool :=
  let o := post (oOwner i)
  (bitsOf 96 m).all (fun k => o ≤ 15 && (post (oCoreMask o)).testBit k) &&
    (bitsOf 32 (m / 2 ^ 96)).all (fun e => post (oCePartition e) = o) && m / 2 ^ 138 = 0

/-- Whether a core is a member of a chord instance of another partition than `p` (R435). -/
def clashes (post : Nat → Nat) (p k i : Nat) : Bool := (post (oMembers i)).testBit k && post (oOwner i) ≠ p

/-- Whether an object takes part in a check of another that concerns both (R28): the object `key`, against the object `other`, of which the
check is. -/
def takesPart (post : Nat → Nat) (other key : Nat) : Bool :=
  let idx := other / 256
  let j := other % 256
  let i := (idx - 0x9400) / 16
  if 0x9400 ≤ idx && idx ≤ 0x97FF then
    match j with
    | 1 => key = oMembers i
    | 2 => key = oOwner i || (List.range 16).any (fun p => key = oCoreMask p && post (oOwner i) = p) ||
        (bitsOf 32 (post other / 2 ^ 96)).any fun e => key = oCePartition e
    | 3 => key = oOwner i
    | 7 => key = oOwner i
    | _ => false
  else if 0xB000 ≤ idx && idx ≤ 0xB0FF && j = 2 then
    (List.range 64).any fun n => (key = oMembers n || key = oOwner n) &&
      (bitsOf 96 (post other)).any fun k => clashes post ((idx - 0xB000) / 16) k n
  else if idx = 0x4010 || idx = 0x4011 then j = 1 && (List.range 16).any fun n => key = oCtlEnable (16 * (idx - 0x4010) + n)
  else if 0xB100 ≤ idx && idx ≤ 0xB1FF then 2 ≤ j && j ≤ 4 && key = oCtlEnable ((idx - 0xB100) / 8)
  else if other = oTraceBase || other = oTraceLog2 || other = oTracePort then key = oTraceEnable
  else false

/-- Whether every named remote arc is a signal-path arc of the owner's (R343). -/
def State.remoteOk (s : State) (o v : Nat) : Bool :=
  (List.range 8).all fun j =>
    let h := lane 32 j v
    h = 0 || (hKind h = 3 && s.fresh h && (let a := Tbl.get Arc.reset s.arcs (hSlot h); a.live && a.kind = 2 && a.part = o))

/-- RANGE of an item that depends on the state or on the WRITE's other items. `restore` spares VERTEX_ID's own range (R51). -/
def State.badRange (s : State) (c : Sess) (post : Nat → Nat) (restore : Bool) (key v : Nat) : Bool :=
  let idx := key / 256
  let j := key % 256
  if 0x3410 ≤ idx && idx ≤ 0x3417 then masksMeet (fun p => post (oWaymask (idx - 0x3410) p)) (j - 1)
  else if 0x3C10 ≤ idx && idx ≤ 0x3C17 then masksMeet (fun p => post (oTlbSetmask (idx - 0x3C10) p)) (j - 1)
  else if 0xB000 ≤ idx && idx ≤ 0xB0FF && j = 2 then masksMeet (fun p => post (oCoreMask p)) ((idx - 0xB000) / 16)
  else if 0x5830 ≤ idx && idx ≤ 0x583F then 1000 < ((List.range 16).map fun p => post (oShare p)).sum
  else if 0x3810 ≤ idx && idx ≤ 0x3817 then s.regionBad post (idx - 0x3810) (j - 1)
  else if 0x8800 ≤ idx && idx ≤ 0x8AFF then v ≤ 0x10 && s.regionBad post ((idx - 0x8800) / 96) v
  else if 0x9400 ≤ idx && idx ≤ 0x97FF then
    let i := (idx - 0x9400) / 16
    match j with
    | 2 => !membersOk post i v
    | 3 => v ≠ 0 && (match s.sigOf v with
      | some x => x.part ≠ post (oOwner i)
      | none => true)
    | 7 => !s.remoteOk (post (oOwner i)) v
    | _ => false
  else if key = oVertexId then !restore && unassignable v
  else if key = oSvnCommit then s.nat oFwSvn < v || v < s.nat oSvnFused
  else if key = oSiteClear then s.siteState (bits 31 29 v) (bits 28 20 v) = 3
  else if 0x3500 ≤ idx && idx ≤ 0x355F && v = 2 then
    let k := idx - 0x3500
    c.level < 3 || !s.discardOk (if j = 1 then .l1d k else .l1i k)
  else if 0x3600 ≤ idx && idx ≤ 0x362F && v = 2 then
    c.level < 3 || !s.discardOk (.slice ((idx - 0x3600) / 6) ((idx - 0x3600) % 6))
  else false

/-- Whether an object of R434 names a partition that is TEARING-DOWN (R436). -/
def State.tearingDown (s : State) (key v : Nat) : Bool :=
  let idx := key / 256
  let j := key % 256
  let t (p : Nat) : Bool := p ≤ 15 && s.ctr (oPartState p) = 2
  if (0x3410 ≤ idx && idx ≤ 0x3417) || (0x3C10 ≤ idx && idx ≤ 0x3C17) then t (j - 1)
  else if 0xB000 ≤ idx && idx ≤ 0xB0FF && j = 2 then t ((idx - 0xB000) / 16)
  else if (0x8800 ≤ idx && idx ≤ 0x8AFF) || (0x8600 ≤ idx && idx ≤ 0x86FF) || (0xB100 ≤ idx && idx ≤ 0xB1FF && j = 1) ||
      (0x9400 ≤ idx && idx ≤ 0x97FF && j = 1) then t v || t (s.nat key)
  else false

/-- UNAVAILABLE of an item: the state forbids the operation now. -/
def State.busyNow (s : State) (post : Nat → Nat) (key v : Nat) : Bool :=
  let idx := key / 256
  let j := key % 256
  let old := s.nat key
  if s.tearingDown key v then true
  else if 0x3410 ≤ idx && idx ≤ 0x3417 then s.ctr (oWaymaskState (idx - 0x3410)) = 1
  else if 0x3500 ≤ idx && idx ≤ 0x355F then s.nat (key + 1) = 1
  else if 0x3600 ≤ idx && idx ≤ 0x362F then s.nat (key + 1) = 1
  else if 0x8800 ≤ idx && idx ≤ 0x8AFF then
    s.chanState (32 * ((idx - 0x8800) / 16) + (j - 1)) = csMigrating || (v ≠ old && (s.hasCtx old || s.hasCtx v))
  else if 0x3810 ≤ idx && idx ≤ 0x3817 then v ≠ old && j ≤ 16 && s.hasCtx (j - 1)
  else if (idx = 0x4010 || idx = 0x4011) && j = 1 then (List.range 16).any fun i => post (oCtlEnable (16 * (idx - 0x4010) + i)) = 1
  else if 0x8600 ≤ idx && idx ≤ 0x86FF then (s.ring (kCopyRing ((idx - 0x8600) / 8))).live
  else if 0xB100 ≤ idx && idx ≤ 0xB1FF then
    let en := oCtlEnable ((idx - 0xB100) / 8)
    if j = 5 then !s.up else 2 ≤ j && post en = 1
  else if 0x9400 ≤ idx && idx ≤ 0x97FF then
    let i := (idx - 0x9400) / 16
    match j with
    | 1 => post (oMembers i) ≠ 0
    | 2 => s.ctr (oArrived i) ≠ 0 || (s.chordU i).next ≠ 0
    | 8 => !(s.ctr (oMembers i)).testBit (130 + v) || s.ctr (oChordState i) = 3 || (s.arrivalFor i (130 + v)).isNone
    | _ => false
  else if key = oVertexId then s.arcs.any fun e => e.2.live && e.2.kind ≠ 0
  else if key = oTraceBase || key = oTraceLog2 || key = oTracePort then post oTraceEnable = 1
  else if 0xB000 ≤ idx && idx ≤ 0xB0FF && j = 2 then
    let p := (idx - 0xB000) / 16
    (bitsOf 96 v).any fun k => !old.testBit k && (s.ctr (oCoreState k) = 1 ||
      (List.range 64).any fun i => clashes post p k i)
  else if 0xB000 ≤ idx && idx ≤ 0xB0FF && j = 3 then
    let p := (idx - 0xB000) / 16
    v = 1 && (s.hasCtx p || s.ctr (oPartState p) = 2)
  else if key = oStartReq then !s.startOk v
  else false

/-- ACCESS, LEVEL or NO-OBJECT that an object's own rule gives an item, before its type is looked at (R39, R412, R429, R430, R483). -/
def State.ownGate (s : State) (c : Sess) (p : Port) (key : Nat) (v : List Byte) : Nat :=
  let idx := key / 256
  if key = oSessionOpen then (if v.length = 32 && s.openStatus p v = stLevel then stLevel else 0)
  else if key = oSessionProof then (if v.length = 32 || proofStatus c v = stAccess then proofStatus c v else 0)
  else if key = oSvcToken then (if v.length = 128 || s.tokenStatus c v = stAccess then s.tokenStatus c v else 0)
  else if (idx = 0x7001 || idx = 0x7005) && p.tr = .eth then stAccess
  else if key = oCtxSel && c.level = 1 && leNat v ≠ 0 && (s.selCtx c (leNat v)).isNone then stNoObject
  else 0

/-- An item's type (R13, R24, R477). -/
def typeBad (r : ObjRow) (it : Item) : Bool :=
  (it.ty ≠ 0xF && it.ty ≠ r.ty) || (if r.ty = 0xB then r.size < it.data.length else it.data.length ≠ r.size)

/-- The status of one item (R482), against the values that would hold after the WRITE. -/
def State.writeStatus (s : State) (c : Sess) (p : Port) (post : Nat → Nat) (it : Item) : Nat :=
  let key := it.idx * 256 + it.sub
  let v := leNat it.data
  let g := s.gate c it.idx it.sub
  if g ≠ 0 then g
  else
    match objRow key with
    | none => stNoSub
    | some r =>
      let own := s.ownGate c p key it.data
      if r.acc ≠ 1 && r.acc ≠ 2 then (if own = stNoObject || own = stLevel then own else stAccess)
      else if own ≠ 0 then own
      else if typeBad r it then stType
      else if it.seg ≠ 0 || (r.ty = 8 && 1 < v) || !moduleRange key v || !unitRange key v || s.badRange c post false key v ||
          (key = oSessionOpen && s.openStatus p it.data = stRange) then stRange
      else if s.unitOff r key || s.busyNow post key v then stUnavailable
      else if key = oSessionOpen then s.openStatus p it.data
      else 0

/-! ### RESTORE (R51) -/

/-- The objects that RESTORE writes: W and F objects at level L2 or below that accept a WRITE. -/
def restorable (key : Nat) : Bool :=
  match rowOf key with
  | some r => r.persist ≠ 0 && r.level ≤ 2 && (r.acc = 1 || r.acc = 2)
  | none => false

/-- The value of an object after a RESTORE. -/
def State.restored (s : State) (key : Nat) : Nat := if restorable key then (dfltOf key).getD 0 else s.nat key

/-- The objects that differ from their defaults, in ascending order: the others are written with the value they have. -/
def State.restoreKeys (s : State) : List Nat := (s.obj.filter fun e => restorable e.1).map fun e => e.1

/-- Every object that RESTORE writes, whether or not it differs from its default. -/
def restoreSet : List Nat :=
  objRows.flatMap fun r =>
    if r.persist ≠ 0 && r.level ≤ 2 && (r.acc = 1 || r.acc = 2) then
      (List.range ((r.i1 - r.i0) / r.stride + 1)).flatMap fun u =>
        (List.range (r.s1 - r.s0 + 1)).map fun j => (r.i0 + u * r.stride) * 256 + r.s0 + j
    else []

/-- The model's choice: RESTORE spares the range of the objects whose own default no WRITE takes, VERTEX_ID (R357) and FUNC_PARTITION of a physical
function (R304), for a RESTORE could never succeed otherwise (log entry 59). -/
def sparedRange (key : Nat) : Bool := key = oVertexId || key = oFuncPartition 0 || key = oFuncPartition 16

/-- The status of one object of a RESTORE: that of the first check that a WRITE of its default would fail (R51, R482). -/
def State.restoreOne (s : State) (c : Sess) (p : Port) (key : Nat) : Nat :=
  let v := s.restored key
  if s.ownGate c p key [] = stAccess then stAccess
  else if !sparedRange key && (!moduleRange key v || !unitRange key v || s.badRange c s.restored true key v) then stRange
  else if (match rowOf key with
    | some r => s.unitOff r key
    | none => false) || s.busyNow s.restored key v then stUnavailable
  else 0

/-- RESTORE's check: the status of the first object, by index and subindex, that fails. -/
def State.restoreStatus (s : State) (c : Sess) (p : Port) : Nat :=
  (restoreSet.foldl (fun (a : Nat × Nat) key =>
    let st := s.restoreOne c p key
    if st ≠ 0 && (a.2 = 0 || key < a.1) then (key, st) else a) (0, 0)).2

/-! ### The effect of each object -/

/-- A window object takes a new value; the old one is kept for the buckets that have begun (R398). -/
def State.setWindow (s : State) (key v : Nat) : State := { s with winLog := s.winLog ++ [(key, s.nat key)] }.put key v

/-- The effect of a CTRL object (R224). -/
def State.cacheCtrl (s : State) (c : CacheId) (v : Nat) : State :=
  match v with
  | 0 => s.cacheEnable c
  | 1 => s.cacheDrain c
  | _ => s.cacheDiscard c

/-- One unit's object written; `none` where it has no effect but to hold its value. -/
def State.applyUnit (s : State) (key v : Nat) : Option State :=
  let idx := key / 256
  let j := key % 256
  if 0x2900 ≤ idx && idx ≤ 0x295F && j = 9 then some (if v = 1 then s.haltReq (idx - 0x2900) else s)
  else if 0x2900 ≤ idx && idx ≤ 0x295F && j = 10 then some (s.resumeCore (idx - 0x2900) v)
  else if 0x8000 ≤ idx && idx ≤ 0x85FF && idx % 16 = 1 && j = 1 then some (s.haltGroups ((idx - 0x8000) / 16) v)
  else if 0x8000 ≤ idx && idx ≤ 0x85FF && idx % 16 = 1 && j = 3 then
    let k := (idx - 0x8000) / 16
    some (if (s.group k (s.ctr key)).regsDiffer (s.group k v) then (s.put key v).changed (oGrpRegs k) else s.put key v)
  else if 0x8000 ≤ idx && idx ≤ 0x85FF && idx % 16 = 1 && j = 2 then some (if v = 1 then s.stepGroup ((idx - 0x8000) / 16) else s)
  else if 0x3500 ≤ idx && idx ≤ 0x355F then some (s.cacheCtrl (if j = 1 then .l1d (idx - 0x3500) else .l1i (idx - 0x3500)) v)
  else if 0x3600 ≤ idx && idx ≤ 0x362F then some (s.cacheCtrl (.slice ((idx - 0x3600) / 6) ((idx - 0x3600) % 6)) v)
  else if 0x3410 ≤ idx && idx ≤ 0x3417 then some (s.setWaymasks (idx - 0x3410) [(j - 1, v)])
  else if 0x3C10 ≤ idx && idx ≤ 0x3C17 then some (s.setTlbMasks (idx - 0x3C10) [(j - 1, v)])
  else if 0x8800 ≤ idx && idx ≤ 0x8AFF then some (s.giveChan (32 * ((idx - 0x8800) / 16) + (j - 1)) v)
  else if 0xB100 ≤ idx && idx ≤ 0xB1FF && j = 5 then some (s.setCtlEnable ((idx - 0xB100) / 8) v)
  else if 0x9400 ≤ idx && idx ≤ 0x97FF then
    let i := (idx - 0x9400) / 16
    match j with
    | 1 => some ((s.put key v).chordState i)
    | 2 => some (s.setMembers i v)
    | 8 => some ((s.arriveChord i (130 + v)).getD s)
    | _ => none
  else if 0x8C00 ≤ idx && idx ≤ 0x8EFF then some (s.linkCtrl ((idx - 0x8C00) / 16) v)
  else if 0x6B00 ≤ idx && idx ≤ 0x6C7F && j = 1 then some (s.setWatchCfg (idx - 0x6B00) v)
  else if 0xB000 ≤ idx && idx ≤ 0xB0FF && j = 2 then some (s.setCoreMasks [((idx - 0xB000) / 16, v)])
  else if 0xB000 ≤ idx && idx ≤ 0xB0FF && j = 3 then some (if v = 1 then s.teardown ((idx - 0xB000) / 16) else s)
  else none

/-- One object of the module written. -/
def State.applyModule (s : State) (c : Sess) (key v : Nat) : Option State :=
  let idx := key / 256
  if key = oRouteSet then some (s.setRoute v)
  else if key = oStartReq then some (s.startReq v)
  else if key = oSiteClear then some (s.siteClear (bits 31 29 v) (bits 28 20 v))
  else if key = oTraceEnable then some (s.traceEnable v)
  else if key = oTraceCons then some (s.setTraceCons v)
  else if key = oSvnCommit then some (s.put oSvnFused v)
  else if key = oSvcEnable then some (s.setSvcEnable v)
  else if key = oIdentify then some (s.setIdentify v)
  else if key = oInletLimit then some (s.put key v).judgeInlet
  else if idx = 0x6010 || idx = 0x6011 || idx = 0x6020 then some (s.setWindow key v)
  else if 0x3820 ≤ idx && idx ≤ 0x382F then some ((s.bucketSettle (idx - 0x3820)).put key v)
  else if key = oCtxSel then some (s.setSess { c with ctxSel := v })
  else if key = oTrendSel then some (s.setSess { c with trendSel := v })
  else if key = oCtxCntCfg then
    some (match s.selCtx c c.ctxSel with
      | none => s
      | some x => { s with ctxs := Tbl.set s.ctxs (hSlot c.ctxSel) { x with cntCfg := v } })
  else if key = oSessionClose then some (s.endSess c.id)
  else none

/-- One plain object written: its effect, or its value held. -/
def State.applyValue (s : State) (c : Sess) (key v : Nat) : State :=
  match s.applyUnit key v with
  | some t => t
  | none =>
    match s.applyModule c key v with
    | some t => t
    | none => s.put key v

/-- The regions whose layouts an object's new value may change, as 32 × octant + owner (R232, R236): those of a channel's old and new holder, and that
of a region's base. -/
def State.layoutsOf (s : State) (key v : Nat) : List Nat :=
  let idx := key / 256
  if 0x3810 ≤ idx && idx ≤ 0x3817 then [32 * (idx - 0x3810) + (key % 256 - 1)]
  else if 0x8800 ≤ idx && idx ≤ 0x8AFF && idx % 16 = 1 then
    let c := 32 * ((idx - 0x8800) / 16) + (key % 256 - 1)
    [s.chanOwner c, v].filterMap fun p => if p ≤ 0x10 then some (32 * (c / 192) + p) else none
  else []

/-- The layouts in effect of the regions that a list of new values may change. -/
def State.layoutsBefore (s : State) (kvs : List (Nat × Nat)) : List (Nat × Nat × List Nat) :=
  ((kvs.flatMap fun e => s.layoutsOf e.1 e.2).dedup).map fun n => (n, s.layoutOf (n / 32) (n % 32))

/-- The values that RESTORE writes. -/
def State.restoreValues (s : State) : List (Nat × Nat) := s.restoreKeys.map fun key => (key, (dfltOf key).getD 0)

/-- RESTORE performed (R51): each object takes effect as a WRITE of it would. -/
def State.restoreAll (s : State) (c : Sess) : State :=
  s.restoreValues.foldl (fun (s : State) e => s.applyValue c e.1 e.2) s

/-- One item applied, and the result that its response carries (R30). -/
def State.applyItem (s : State) (c : Sess) (p : Port) (it : Item) : State × List Byte :=
  let key := it.idx * 256 + it.sub
  let v := leNat it.data
  if key = oSessionOpen then s.openSession p it.data
  else if key = oSessionProof then (s.proofGood c, [])
  else if key = oSvcToken then (s.grantL3 c it.data, [])
  else if key = oRepairRequest then
    let a := s.repairRequest v
    (a.1, leBytes 4 a.2)
  else if key = oRestore then (s.restoreAll c, [])
  else (s.applyValue c key v, [])

/-! ### A whole WRITE (R28, R30) -/

/-- The values that would hold after every item (R28): a later item of one object stands over an earlier (R29). -/
def State.postOf (s : State) (its : List Item) (key : Nat) : Nat :=
  match its.reverse.find? fun it => it.idx * 256 + it.sub = key with
  | some it => leNat it.data
  | none => s.nat key

/-- The values that a WRITE's items give to objects, those of a RESTORE among them. -/
def State.writtenValues (s : State) (its : List Item) : List (Nat × Nat) :=
  its.flatMap fun it =>
    let key := it.idx * 256 + it.sub
    if key = oRestore then s.restoreValues else [(key, leNat it.data)]

/-- The F objects that a WRITE changes, with what they held (R20). -/
def State.flashOld (s : State) (its : List Item) : List (Nat × Option Nat) :=
  let keys := its.flatMap fun it =>
    let key := it.idx * 256 + it.sub
    if key = oRestore then oEthEnable :: s.restoreKeys
    else if key = oRouteSet then [oRouteTable (bits 63 61 (leNat it.data))]
    else match rowOf key with
      | some r => if r.persist = 2 then [key] else []
      | none => []
  keys.map fun key => (key, Tbl.get none s.obj key)

/-- What failing proofs and tokens do (R39, R429), although the WRITE applies nothing. -/
def State.failedItem (s : State) (c : Sess) (it : Item) (st : Nat) : State :=
  let key := it.idx * 256 + it.sub
  if key = oSessionProof && st = stLevel && c.pending then s.proofBad c
  else if key = oSvcToken && st = stLevel && c.pending && c.level = 3 then s.denyL3 c
  else s

/-- The openings before a place of a WRITE. -/
def opensBefore (its : List Item) (i : Nat) : Nat := ((its.take i).filter fun it => it.idx * 256 + it.sub = oSessionOpen).length

/-- The status that an item takes from a check of another item in which it takes part (R28): RANGE, UNAVAILABLE or 0. The codes of R25 rise in the
order of R482. -/
def State.sharedStatus (s : State) (c : Sess) (p : Port) (post : Nat → Nat) (its : List Item) (key : Nat) : Nat :=
  its.foldl (fun (a : Nat) (e : Item) =>
    let other := e.idx * 256 + e.sub
    let st := s.writeStatus c p post e
    let joint := (st = stRange && s.badRange c post false other (leNat e.data)) || (st = stUnavailable && s.busyNow post other (leNat e.data))
    if joint && takesPart post other key && (a = 0 || st < a) then st else a) 0

/-- The status of an item at its place in a WRITE: its own, or that of a check of another item in which it takes part (R28); RESTORE's is that of the first object it cannot write (R51), and an opening finds the places that the
openings before it take (R36). -/
def State.itemStatus (s : State) (c : Sess) (p : Port) (post : Nat → Nat) (its : List Item) (it : Item) (i : Nat) : Nat :=
  let key := it.idx * 256 + it.sub
  let own := s.writeStatus c p post it
  let shared := s.sharedStatus c p post its key
  let st := if own = 0 || (shared ≠ 0 && shared < own) then shared else own
  if st ≠ 0 then st
  else if key = oRestore then s.restoreStatus c p
  else if key = oSessionOpen && 32 ≤ s.sess.length + opensBefore its i then stLimit
  else 0

/-- The statuses of a WRITE's items. -/
def State.itemStatuses (s : State) (c : Sess) (p : Port) (its : List Item) : List Nat :=
  its.zipIdx.map fun (e : Item × Nat) => s.itemStatus c p (s.postOf its) its e.1 e.2

/-- A WRITE's items applied in their order, with the response's items (R28, R29). The layouts before it stay in effect where they must (R237). -/
def State.applyItems (s : State) (c : Sess) (p : Port) (its : List Item) : State × List Item :=
  let a := its.foldl (fun (a : State × List Item) (it : Item) =>
    let c := if c.id = 0 then c else (a.1.sess.find? fun (x : Sess) => x.id = c.id).getD c
    let r := a.1.applyItem c p it
    (r.1, a.2 ++ [answerItem it 0 r.2])) (s, [])
  let ls := s.layoutsBefore (s.writtenValues its)
  (if ls.isEmpty then a.1 else a.1.relayout ls, a.2)

/-- A WRITE performed: the state, the response, and the F objects that flash must hold before it is sent. -/
def State.doWrite (s : State) (c : Sess) (p : Port) (f : Frame) : State × Frame × List (Nat × Option Nat) :=
  if 64 < f.items.length then (s, response f stTooLarge [], [])
  else
    let sts := s.itemStatuses c p f.items
    if sts.all fun st => st = 0 then
      let a := s.applyItems c p f.items
      (a.1, response f 0 a.2, s.flashOld f.items)
    else
      let t := (f.items.zip sts).foldl (fun (t : State) (e : Item × Nat) => t.failedItem c e.1 e.2) s
      let its := (f.items.zip sts).map fun (e : Item × Nat) => answerItem e.1 (if e.2 = 0 then stNotApplied else e.2) []
      (t.countDenials sts, response f (firstBad sts) its, [])

end Sys2Proof.Machine
end

