-- ==== Sys2Proof/Machine/Server.lean ====
section
/-! DEFINITION. The dictionary's server: requests checked and answered (R22, R36 to R38, R42, R480 to R482), subscriptions and notifications
(R32 to R35), mailboxes (R45 to R47), and durable writes (R20). -/

namespace Sys2Proof.Machine

/-! ### Mailboxes (R45) -/

/-- A mailbox. -/
def State.mbxOf (s : State) (fn : Nat) : Mbx := Tbl.get Mbx.reset s.mbx fn
/-- The same replaced. -/
def State.setMbx (s : State) (fn : Nat) (m : Mbx) : State := { s with mbx := Tbl.set s.mbx fn m }

/-- A mailbox with a response in MBX_RSP, whose octets behind it stay as they are (R45, R46). -/
def Mbx.respond (m : Mbx) (l : List Byte) : Mbx :=
  { m with busy := false, ready := true, rsp := l, stale := (m.rsp ++ m.stale).drop l.length }

/-- A response leaves on the transport of its request: into MBX_RSP with the mailbox vector (R46), or as a frame, on the test access port through
GEIND's data register (R420). A mailbox that cannot be reached
when its response is due (R47) is free again without one, as after a discarded request (log entry 83). -/
def State.answer (s : State) (p : Port) (f : Frame) : State :=
  if p.tr = .mbx then
    if s.portReady (p.fn / 16) then (s.setMbx p.fn ((s.mbxOf p.fn).respond (frameBytes f))).msix p.fn 1
    else s.setMbx p.fn { s.mbxOf p.fn with busy := false }
  else if p.tr = .tap then { s with tapRsp := frameBytes f }.send (.frame p f)
  else s.send (.frame p f)

/-- Whether a transport is on and its port up (R43, R47, R52, R420, R446, R448, R468): frames can pass between it and the server. -/
def State.portOn (s : State) (p : Port) : Bool :=
  s.ctlReady && (match p.tr with
    | .eth => s.nat oEthEnable = 1 && s.nat oEthLink = 1
    | .i3c => s.nat oI3cEnable = 1
    | .vdm => s.nat oVdmEnable = 1 && p.fn < 32 && p.fn % 16 = 0 && s.portReady (p.fn / 16)
    | .mbx => p.fn < 32 && s.portReady (p.fn / 16)
    | .tap => s.tapIr = 4 && s.mstate ≠ msSafe)

/-- Whether a message is for the server: on management Ethernet one to the UDP port of `1800.02` (R43), over MCTP one of type 0x7E with the vendor
identifier of `1000.04` (R44). -/
def State.addressed (s : State) (p : Port) : Bool :=
  match p.tr with
  | .eth => p.udp = s.nat oEthUdpPort
  | .i3c => p.msgType = 0x7E && p.vendor = .jurad
  | .vdm => p.msgType = 0x7E && p.vendor = .jurad
  | .mbx => true
  | .tap => true

/-- Whether a frame that comes in reaches the server. -/
def State.hears (s : State) (p : Port) : Bool := s.portOn p && s.addressed p

/-- The way a function's mailbox carries frames. -/
def mbxPort (fn : Nat) : Port := { tr := .mbx, fn := fn }

/-! ### Headers (R480, R481) -/

/-- Whether a frame is discarded without an answer (R22, R25, R480). -/
def frameLost (f : Frame) : Bool := f.size < 20 || maxFrame < f.size || !f.crcOk || f.flags.testBit 7 || f.op = 5

/-- Whether a session's frame fails its tag (R42, R480). -/
def tagFails (c : Option Sess) (f : Frame) : Bool :=
  match c with
  | none => false
  | some c => c.tags && (!f.flags.testBit 3 || f.tag ≠ some (frameTag c f))

/-- Whether a request is answered BAD-FRAME (R480, R481). `tagged` says that its session's frames carry tags. -/
def frameBad (f : Frame) (tagged : Bool) : Bool :=
  f.ver ≠ 1 || f.status ≠ 0 || f.flags % 8 ≠ 0 || !(1 ≤ f.op && f.op ≤ 4) ||
    ((f.flags.testBit 6 || f.flags.testBit 5) && f.op ≠ 1 && f.op ≠ 3) || (f.flags.testBit 6 && f.flags.testBit 5) ||
    (f.flags.testBit 4 && f.op ≠ 4) || !f.agree || (f.flags.testBit 3 && !tagged) ||
    f.items.any (fun it => it.rsv ≠ 0 || it.istatus ≠ 0 || !it.padOk) || (f.op ≠ 4 && f.items.isEmpty) ||
    (f.op = 4 && (match f.hdr with
      | none => true
      | some h => (f.flags.testBit 4 || h.plan ≠ 0xFF) && !f.items.isEmpty))

/-- Whether a request names only the objects of a list. -/
def namesOnly (f : Frame) (keys : List Nat) : Bool := f.items.all fun it => keys.contains (it.idx * 256 + it.sub)

/-- What a sessionless request may ask for (R37). -/
def sessionlessOk (f : Frame) : Bool :=
  ((f.op = 1 || f.op = 3) && !f.flags.testBit 6) || (f.op = 2 && f.items.length = 1 && namesOnly f [oSessionOpen])

/-- What a pending session's request may ask for (R39). -/
def pendingOk (c : Sess) (f : Frame) : Bool :=
  f.op = 2 && namesOnly f ([oSessionProof, oSessionClose] ++ if c.level = 3 then [oSvcToken] else [])

/-! ### Subscriptions (R32 to R35) -/

/-- The items of a telemetry plan (R35). -/
def State.planItems (s : State) (n : Nat) : List (Nat × Nat) :=
  ((List.range 64).map fun i => s.nat (oPlanItem n i)).filter (fun v => v ≠ 0) |>.map fun v => (bits 31 16 v, bits 15 8 v)

/-- The status of an item of a subscription: the checks of READ-MULTI that do not ask for its value, and ONCHANGE (R32). -/
def State.subStatus (s : State) (c : Sess) (onChange : Bool) (it : Item) : Nat :=
  let st := (s.readItem c it true .multi true).1
  let mayChange := match objRow (it.idx * 256 + it.sub) with
    | some r => r.onChange
    | none => true
  if st = stNoObject || st = stNoSub || st = stLevel then st
  else if st = stAccess || (onChange && !mayChange) then stAccess
  else if st = stUnavailable then 0
  else st

/-- A sampled item's value as it is compared: 0 while it has none. -/
def sampled (v : Nat × List Byte) : Nat := if v.1 = 0 then leNat v.2 + 1 else 0

/-- A request's item for a sampled object. -/
def sampleItem (e : Nat × Nat) : Item :=
  { idx := e.1, sub := e.2, ty := 0xF, rsv := 0, istatus := 0, seg := 0, data := [], padOk := true }

/-- A subscription's items as they read now (R27, R33). -/
def State.sampleAll (s : State) (c : Sess) (l : List (Nat × Nat)) : List (Nat × List Byte) :=
  l.map fun e => s.readItem c (sampleItem e) true .multi true

/-- The next free SUBID (R32). -/
def State.newSub (s : State) : Nat :=
  ((List.range 65).map fun i => (s.nextSub + i) % 65536).find? (fun v => !(s.subs.any fun x => x.id = v)) |>.getD 0

/-- SUBSCRIBE performed (R32, R33, R35, R43). The items are the request's, or those of the plan that it names, and each meets the same checks.
The model's choices (log entry 55): a MODE above 1 or a PLAN of 16 to 254 is refused as a whole with RANGE, for no table names a status for them;
an item that fails opens no subscription, and the items that pass then carry NOT-APPLIED, as in a WRITE (R28); the response of a plan that fails
repeats the plan's items. -/
def State.doSubscribe (s : State) (c : Sess) (p : Port) (f : Frame) (h : SubHdr) : State × Frame :=
  let plan := h.plan ≠ 0xFF
  let named := if plan then (s.planItems h.plan).map sampleItem else f.items
  let items := named.map fun it => (it.idx, it.sub)
  let period := if plan && h.period = 0 then s.nat ((0x1840 + h.plan) * 256 + 1) else h.period
  let onChange := h.mode = 1
  if 64 < f.items.length then (s, response f stTooLarge [])
  else
    match leastPeriod p with
    | none => (s, response f stAccess (f.items.map fun it => answerItem it stAccess []))
    | some least =>
      if 64 ≤ s.subs.length then (s, response f stLimit [])
      else if 1 < h.mode || (plan && 15 < h.plan) || period < least then (s, response f stRange [])
      else
        let sts := named.map fun it => s.subStatus c onChange it
        if firstBad sts ≠ 0 then
          (s.countDenials sts, response f (firstBad sts) ((named.zip sts).map fun (e : Item × Nat) =>
            answerItem e.1 (if e.2 = 0 then stNotApplied else e.2) []))
        else
          let id := s.newSub
          let x : Sub := {
            id := id
            sess := c.id
            period := period
            onChange := onChange
            items := items
            lastTime := s.now
            lastVals := (s.sampleAll c items).map sampled
            dropped := 0 }
          ({ s with subs := s.subs ++ [x], nextSub := (id + 1) % 65536 },
            { response f 0 (f.items.map fun it => answerItem it 0 []) with hdr := some { h with subid := id } })

/-- A SUBSCRIBE with CANCEL (R32). What a SUBID that the session does not hold is answered is open (log entry 5). -/
def State.doCancel (s : State) (c : Sess) (f : Frame) (h : SubHdr) : State × Frame :=
  if s.subs.any fun x => x.id = h.subid && x.sess = c.id then
    ({ s with subs := s.subs.filter fun x => !(x.id = h.subid && x.sess = c.id) }, { response f 0 [] with hdr := some h })
  else (s.drew, { response f ((Config.freeNat 11 s.free).toNat % 256) [] with hdr := some h })

/-! ### Requests -/

/-- A request performed: the state, the response, and the F objects that flash must hold before it is sent. -/
def State.perform (s : State) (c : Sess) (p : Port) (f : Frame) : State × Frame × List (Nat × Option Nat) :=
  match f.op, f.hdr with
  | 2, _ => s.doWrite c p f
  | 4, some h =>
    let r := if f.flags.testBit 4 && (leastPeriod p).isSome then s.doCancel c f h else s.doSubscribe c p f h
    (r.1, r.2, [])
  | _, _ =>
    let r := s.doRead c f
    (r.1, r.2, [])

/-- Whether a response is too long for a frame as it is sent to a session, its tag included (R22, R42). -/
def tooLong (c : Sess) (rsp : Frame) : Bool := maxFrame < (sentTo c rsp).size

/-- A request performed as a whole: one whose response is too long is refused, and has no effect (R22, R25, R482). -/
def State.performFit (s : State) (c : Sess) (p : Port) (f : Frame) : State × Frame × List (Nat × Option Nat) :=
  let r := s.perform c p f
  if tooLong c r.2.1 then (s, response f stTooLarge [], []) else r

/-- Whether a SEQ is greater than the last (R38). -/
def seqAfter (last : Option Nat) (seq : Nat) : Bool :=
  match last with
  | none => true
  | some l => let d := (seq + 4294967296 - l) % 4294967296; 1 ≤ d && d < 2147483648

/-- A response kept with its session's last 64 (R38). -/
def State.keepRsp (s : State) (id seq : Nat) (rsp : Frame) : State :=
  match s.sess.find? fun c => c.id = id with
  | none => s
  | some c =>
    let l := c.kept ++ [(seq, rsp)]
    s.setSess { c with kept := l.drop (l.length - 64) }

/-- A request of a session (R36, R38, R39), and the response if it is sent now. -/
def State.inSession (s : State) (p : Port) (c : Sess) (f : Frame) : State × Option Frame :=
  let c := { c with lastUse := s.now }
  let s := s.setSess c
  if c.pending && !pendingOk c f then (s, some (sentTo c (response f stNoSession [])))
  else
    match c.kept.find? fun e => e.1 = f.seq with
    | some e => (s, if s.flash.any fun r => r.rsp.session = c.id && r.rsp.seq = f.seq then none else some e.2)
    | none =>
      if !seqAfter c.lastSeq f.seq then (s, some (sentTo c (response f stStaleSeq [])))
      else
        let c := { c with lastSeq := some f.seq }
        let r := (s.setSess c).performFit c p f
        let c := ((r.1.sess.find? fun (x : Sess) => x.id = c.id).getD c)
        let rsp := sentTo c r.2.1
        let s := r.1.keepRsp c.id f.seq rsp
        if r.2.2.isEmpty then (s, some rsp) else ({ s with flash := s.flash ++ [⟨r.2.2, p, rsp⟩] }, none)

/-- One frame served (R480 to R482): the state, and the response if one is sent now. -/
def State.serveFrame (s : State) (p : Port) (f : Frame) : State × Option Frame :=
  if !s.hears p then (s, none)
  else
    let s := s.expire.bump 8 oFramesIn 1
    let c := s.findSess p f.session
    if frameLost f || tagFails c f then (s.bump 4 oBadFrames 1, none)
    else
      let tagged := match c with
        | none => false
        | some c => c.tags
      let sealFor (g : Frame) : Frame := match c with
        | none => sealed g
        | some c => sentTo c g
      if frameBad f tagged then (s, some (sealFor (response f stBadFrame [])))
      else if isVf p && s.nat oMbxVfEnable = 0 then (s, some (sealFor (response f stNoSession [])))
      else if f.session = 0 then
        if sessionlessOk f then
          let r := s.performFit (anon p) p f
          (r.1, some (sealed r.2.1))
        else (s, some (sealed (response f stNoSession [])))
      else
        match c with
        | none => (s, some (sealed (response f stNoSession [])))
        | some c => s.inSession p c f

/-- Whether a function's mailbox takes a request: it is not BUSY and holds no response (R46). -/
def State.mbxFree (s : State) (fn : Nat) : Bool := !(s.mbxOf fn).busy && !(s.mbxOf fn).ready

/-- Whether a mailbox's request waits for flash. -/
def State.mbxWaits (s : State) (fn : Nat) : Bool := s.flash.any fun r => r.port.tr = .mbx && r.port.fn = fn

/-- One frame served and its response sent. On a mailbox the frame is written, submitted and served in one: where the mailbox is not free it is
ignored with OVERRUN, and it stays BUSY while its response waits for flash (R46, R20). -/
def State.answerFrame (s : State) (p : Port) (f : Frame) : State :=
  if p.tr = .mbx && s.hears p && !s.mbxFree p.fn then s.setMbx p.fn { s.mbxOf p.fn with overrun := true }
  else
    match s.serveFrame p f with
    | (t, none) => if p.tr = .mbx && t.mbxWaits p.fn then t.setMbx p.fn { t.mbxOf p.fn with busy := true } else t
    | (t, some rsp) => t.answer p rsp

/-- F_WRITE_DURABLE (R20): the oldest WRITE that waits for flash is answered. -/
def State.durable (s : State) : State :=
  match s.flash with
  | [] => s
  | r :: rest => ({ s with flash := rest }.bump 8 oFlashWrites 1).answer r.port r.rsp

/-! ### Notifications (R34, R46, R47) -/

/-- Whether the module can deliver a notification to a session now: its transport is on, and a mailbox has a free slot (R47). That one whose transport is
switched off or whose port is down is not delivered, and is counted as dropped, is the model's reading of R34 (log entry 55). -/
def State.delivers (s : State) (p : Port) : Bool := s.portOn p && !(p.tr = .mbx && 3 ≤ (s.mbxOf p.fn).unread)

/-- A mailbox with a notification in its next slot, whose octets behind it stay as they are (R45, R46). -/
def Mbx.notified (m : Mbx) (l : List Byte) : Mbx :=
  { m with slots := Tbl.set m.slots m.head (l ++ (Tbl.get [] m.slots m.head).drop l.length), head := (m.head + 1) % 3, unread := m.unread + 1 }

/-- A notification delivered, or counted as dropped where it cannot be (R34, R47). -/
def State.notify (s : State) (c : Sess) (x : Sub) : State :=
  let vs := s.sampleAll c x.items
  let p := c.port
  let y := { x with lastTime := s.now, lastVals := vs.map sampled }
  let put (s : State) (y : Sub) : State := { s with subs := s.subs.map fun (z : Sub) => if z.id = y.id then y else z }
  if !s.delivers p then put s { y with dropped := x.dropped + 1 }
  else
    let h : SubHdr := { period := 0, mode := 0, plan := 0, subid := x.id, dropped := x.dropped }
    let its := (x.items.zip vs).map fun (e : (Nat × Nat) × (Nat × List Byte)) => answerItem (sampleItem e.1) e.2.1 e.2.2
    let f : Frame := {
      ver := 1
      op := 5
      flags := 0
      status := 0
      session := c.id
      seq := (c.ntfSeq + 1) % 4294967296
      time := s.mtime
      hdr := some h
      items := its
      tag := none
      size := 0
      crcOk := true
      agree := true }
    let f := sentTo c f
    let s := put (s.setSess { c with ntfSeq := c.ntfSeq + 1 }) { y with dropped := 0 }
    if p.tr = .mbx then (s.setMbx p.fn ((s.mbxOf p.fn).notified (frameBytes f))).msix p.fn 1
    else s.send (.frame p f)

/-- The subscription of a SUBID and its session. -/
def State.subOf (s : State) (id : Nat) : Option (Sub × Sess) :=
  (s.subs.find? fun x => x.id = id).bind fun x => (s.sess.find? fun c => c.id = x.sess).map fun c => (x, c)

/-- NOTIFY_PERIODIC (R32, R34): the period has passed; a session whose time is over by then has ended (R36). -/
def State.notifyPeriodic (s : State) (id : Nat) : State :=
  match s.subOf id with
  | none => s
  | some (x, c) =>
    if x.onChange || !s.ctlReady then s
    else
      let s := (s.atTime (x.lastTime + x.period)).expire
      if (s.subOf id).isNone then s else s.notify c x

/-- NOTIFY_ON_CHANGE (R32, R34): a value differs from the last notified, and PERIOD has passed. -/
def State.notifyChange (s : State) (id : Nat) : State :=
  match s.subOf id with
  | none => s
  | some (x, c) =>
    if !x.onChange || !s.ctlReady then s
    else
      let s := (s.atTime (x.lastTime + x.period)).expire
      if (s.subOf id).isNone || (s.sampleAll c x.items).map sampled == x.lastVals then s else s.notify c x

/-! ### Mailbox registers (R45, R46) -/

/-- MBX_DOORBELL (R45, R46). -/
def State.mbxDoorbell (s : State) (fn len : Nat) : State :=
  if !s.portReady (fn / 16) || !s.ctlReady then s
  else
    let m := s.mbxOf fn
    if m.busy || m.ready then s.setMbx fn { m with overrun := true }
    else
      let n := if len ≤ maxFrame then len else 0
      s.setMbx fn { m with busy := true, len := len, frame := (List.range n).map fun i => Tbl.get 0 m.req i }

/-- MBX_RESPONSE (R46): the submitted frame is served; one that waits for flash keeps BUSY. -/
def State.mbxResponse (s : State) (fn : Nat) : State :=
  let m := s.mbxOf fn
  if !m.busy || s.mbxWaits fn then s
  else
    let f := { frameFrom m.frame with size := m.len }
    match s.serveFrame (mbxPort fn) f with
    | (t, some rsp) => t.answer (mbxPort fn) rsp
    | (t, none) => if t.mbxWaits fn then t else t.setMbx fn { t.mbxOf fn with busy := false }

/-- MBX_RSP_ACK (R45, R46). -/
def State.mbxAck (s : State) (fn : Nat) : State :=
  if s.portReady (fn / 16) then s.setMbx fn { s.mbxOf fn with ready := false, overrun := false } else s

/-- MBX_NTF_TAIL (R45): slots from the written index up to MBX_NTF_HEAD are unread. -/
def State.mbxTail (s : State) (fn v : Nat) : State :=
  if 2 < v || !s.portReady (fn / 16) then s
  else
    let m := s.mbxOf fn
    s.setMbx fn { m with tail := v, unread := (m.head + 3 - v) % 3 }

/-- MBX_STATUS (R45). -/
def Mbx.status (m : Mbx) : Nat := (if m.busy then 1 else 0) + (if m.ready then 2 else 0) + (if m.overrun then 4 else 0)

/-- An octet of a function's mailbox pages as its driver reads it (R45): zero at a WO location and at one that the table does not list. No
location has a read side effect, so that a read is no command of the table. -/
def Mbx.byte (m : Mbx) (off : Nat) : Byte :=
  if 0x0FFC ≤ off && off < 0x1000 then (leBytes 4 m.status).getD (off - 0x0FFC) 0
  else if 0x1000 ≤ off && off < 0x14D0 then (m.rsp ++ m.stale).getD (off - 0x1000) 0
  else if 0x2000 ≤ off && off < 0x2F00 then (Tbl.get [] m.slots ((off - 0x2000) / 0x500)).getD ((off - 0x2000) % 0x500) 0
  else if 0x2FF8 ≤ off && off < 0x2FFC then (leBytes 4 m.head).getD (off - 0x2FF8) 0
  else 0

/-- How a configuration request of a host port is completed (R47, R446): with retry status before its configuration space is ready; none while its
link is down. -/
def State.configRetry (s : State) (p : Nat) : Option Bool := if s.powered then some (!s.portReady p) else none

/-- `n` octets of a function's BAR0 as they read (R45): none before BAR0 can be assigned (R47). -/
def State.bar0Read (s : State) (fn off n : Nat) : Option (List Byte) :=
  if s.portReady (fn / 16) then some ((List.range n).map fun i => (s.mbxOf fn).byte (off + i)) else none

/-- REGISTER_WRITE (R45): octets of MBX_REQ are stored; every other location of BAR0 or of a reserved part of a page is without effect, but for
those that have commands of their own. -/
def State.registerWrite (s : State) (fn bar off : Nat) (data : List Byte) : State :=
  if bar ≠ 0 || !s.portReady (fn / 16) then s
  else if off = 0x0FF8 && data.length = 4 then s.mbxDoorbell fn (leNat data)
  else if off = 0x1FF8 then s.mbxAck fn
  else if off = 0x2FFC && data.length = 4 then s.mbxTail fn (leNat data)
  else
    let m := s.mbxOf fn
    s.setMbx fn { m with req := data.zipIdx.foldl (fun (t : Tbl Byte) (b : Byte × Nat) =>
      if off + b.2 < maxFrame then Tbl.set t (off + b.2) b.1 else t) m.req }

/-- The WRITE of one object that a row of the table stands for. -/
def State.writeOne (s : State) (w : Who) (key : Nat) (data : List Byte) : State := s.answerFrame w.port (writeOf w key data)

/-- A WRITE of several objects of one kind. -/
def State.writeAll (s : State) (w : Who) (l : List (Nat × List Byte)) : State :=
  let f := writeOf w 0 []
  s.answerFrame w.port (sealed { f with items := l.flatMap fun e => (writeOf w e.1 e.2).items })

end Sys2Proof.Machine
end

