-- ==== Sys2Proof/Machine/Requests.lean ====
section
/-! DEFINITION. The commands that come through the dictionary: requests as frames, and the rows of the table that are a WRITE of one kind of
object. A frame is served as its own header says; the rows differ in what their senders ask for. -/

namespace Sys2Proof.Machine

/-- The object that a row's WRITE names: that of a unit which the module does not have names an index where no object stands, so that the request is
answered NO-OBJECT (R25, R48, R49). -/
def keyFor (ok : Bool) (key : Nat) : Nat := if ok then key else 0xC000 * 256

/-! ### Frames -/

/-- READ (R26). -/
def execRead (p : Port) (f : Frame) (s : State) : Res := .next (s.answerFrame p f)
/-- CONSUME_READ (R16). -/
def execConsumeRead (p : Port) (f : Frame) (s : State) : Res := .next (s.answerFrame p f)
/-- DESCRIPTOR_READ (R31). -/
def execDescriptorRead (p : Port) (f : Frame) (s : State) : Res := .next (s.answerFrame p f)
/-- READ_MULTI (R27). -/
def execReadMulti (p : Port) (f : Frame) (s : State) : Res := .next (s.answerFrame p f)
/-- WRITE (R28). -/
def execWrite (p : Port) (f : Frame) (s : State) : Res := .next (s.answerFrame p f)
/-- F_WRITE_DURABLE (R20). -/
def execFWriteDurable (s : State) : Res := .next s.durable
/-- SUBSCRIBE (R32). -/
def execSubscribe (p : Port) (f : Frame) (s : State) : Res := .next (s.answerFrame p f)
/-- SUBSCRIBE_CANCEL (R32). -/
def execSubscribeCancel (p : Port) (f : Frame) (s : State) : Res := .next (s.answerFrame p f)
/-- NOTIFY_PERIODIC (R34). -/
def execNotifyPeriodic (subid : Nat) (s : State) : Res := .next (s.notifyPeriodic subid)
/-- NOTIFY_ON_CHANGE (R32). -/
def execNotifyOnChange (subid : Nat) (s : State) : Res := .next (s.notifyChange subid)

/-! ### Mailboxes -/

/-- MBX_DOORBELL (R46). -/
def execMbxDoorbell (fn len : Nat) (s : State) : Res := onUnit s (isFn fn) (s.mbxDoorbell fn len)
/-- MBX_RESPONSE (R46). -/
def execMbxResponse (fn : Nat) (s : State) : Res := onUnit s (isFn fn) (s.mbxResponse fn)
/-- MBX_RSP_ACK (R46). -/
def execMbxRspAck (fn _v : Nat) (s : State) : Res := onUnit s (isFn fn) (s.mbxAck fn)
/-- MBX_NTF_TAIL (R45). -/
def execMbxNtfTail (fn v : Nat) (s : State) : Res := onUnit s (isFn fn) (s.mbxTail fn v)
/-- REGISTER_WRITE (R45). -/
def execRegisterWrite (fn bar off : Nat) (data : List Byte) (s : State) : Res := onUnit s (isFn fn) (s.registerWrite fn bar off data)

/-! ### Sessions and security -/

/-- SESSION_OPEN (R38). -/
def execSessionOpen (w : Who) (v : List Byte) (s : State) : Res := .next (s.writeOne w oSessionOpen v)
/-- SESSION_PROOF (R39). -/
def execSessionProof (w : Who) (v : List Byte) (s : State) : Res := .next (s.writeOne w oSessionProof v)
/-- SESSION_CLOSE (R52). -/
def execSessionClose (w : Who) (v : Nat) (s : State) : Res := .next (s.writeOne w oSessionClose (leBytes 1 v))
/-- RESTORE (R51). -/
def execRestore (w : Who) (v : Nat) (s : State) : Res := .next (s.writeOne w oRestore (leBytes 1 v))
/-- SVN_COMMIT (R425). -/
def execSvnCommit (w : Who) (v : Nat) (s : State) : Res := .next (s.writeOne w oSvnCommit (leBytes 2 v))
/-- SVC_TOKEN (R429). -/
def execSvcToken (w : Who) (v : List Byte) (s : State) : Res := .next (s.writeOne w oSvcToken v)
/-- SVC_ENABLE (R429). -/
def execSvcEnable (w : Who) (v : Nat) (s : State) : Res := .next (s.writeOne w oSvcEnable (leBytes 1 v))
/-- CRED_KEY (R430). -/
def execCredKey (w : Who) (slot : Nat) (v : List Byte) (s : State) : Res := .next (s.writeOne w (keyFor (slot < 16) (oCredKey slot)) v)
/-- CORE_MASK (R435). -/
def execCoreMask (w : Who) (ms : List (Nat × Nat)) (s : State) : Res :=
  .next (s.writeAll w (ms.map fun m => (keyFor (isPart m.1) (oCoreMask m.1), leBytes 12 m.2)))
/-- TEARDOWN (R436). -/
def execTeardown (w : Who) (part v : Nat) (s : State) : Res := .next (s.writeOne w (keyFor (isPart part) (oTeardown part)) (leBytes 1 v))

/-! ### Cores, groups and arrays -/

/-- REPAIR_REQUEST (R124). -/
def execRepairRequest (w : Who) (v : Nat) (s : State) : Res := .next (s.writeOne w oRepairRequest (leBytes 4 v))
/-- HALT_REQ (R165). -/
def execHaltReq (w : Who) (k v : Nat) (s : State) : Res := .next (s.writeOne w (keyFor (isCore k) (oHaltReq k)) (leBytes 1 v))
/-- RESUME (R165). -/
def execResume (w : Who) (k : Nat) (s : State) : Res := .next (s.writeOne w (keyFor (isCore k) (oResume k)) (leBytes 2 0))
/-- RESUME_STEP (R165). -/
def execResumeStep (w : Who) (k n : Nat) (s : State) : Res := .next (s.writeOne w (keyFor (isCore k) (oResume k)) (leBytes 2 n))
/-- THR_HALT (R198). -/
def execThrHalt (w : Who) (k : Nat) (s : State) : Res := .next (s.writeOne w (keyFor (isCore k) (oThrHalt k)) [1])
/-- THR_FORCED_HALT (R198). -/
def execThrForcedHalt (w : Who) (k : Nat) (s : State) : Res := .next (s.writeOne w (keyFor (isCore k) (oThrHalt k)) [2])
/-- THR_RESUME (R198). -/
def execThrResume (w : Who) (k : Nat) (s : State) : Res := .next (s.writeOne w (keyFor (isCore k) (oThrHalt k)) [0])
/-- THR_STEP (R198). -/
def execThrStep (w : Who) (k : Nat) (s : State) : Res := .next (s.writeOne w (keyFor (isCore k) (oThrStep k)) [1])

/-! ### Caches, memory and translation -/

/-- CACHE_DRAIN (R224). -/
def execCacheDrain (w : Who) (c : CacheId) (s : State) : Res := .next (s.writeOne w (keyFor c.wf (ctrlKey c)) [1])
/-- CACHE_DISCARD (R224). -/
def execCacheDiscard (w : Who) (c : CacheId) (s : State) : Res := .next (s.writeOne w (keyFor c.wf (ctrlKey c)) [2])
/-- CACHE_ENABLE (R224). -/
def execCacheEnable (w : Who) (c : CacheId) (s : State) : Res := .next (s.writeOne w (keyFor c.wf (ctrlKey c)) [0])
/-- WAYMASK (R208). -/
def execWaymask (w : Who) (d : Nat) (ms : List (Nat × Nat)) (s : State) : Res :=
  .next (s.writeAll w (ms.map fun m => (keyFor (isDie d && isPart m.1) (oWaymask d m.1), leBytes 2 m.2)))
/-- CHAN_OWNER (R236). -/
def execChanOwner (w : Who) (cs : List (Nat × Nat)) (s : State) : Res :=
  .next (s.writeAll w (cs.map fun c => (keyFor (isChan c.1) (kChanOwner c.1), leBytes 1 c.2)))
/-- TLB_SETMASK (R257). -/
def execTlbSetmask (w : Who) (d : Nat) (ms : List (Nat × Nat)) (s : State) : Res :=
  .next (s.writeAll w (ms.map fun m => (keyFor (isDie d && isPart m.1) (oTlbSetmask d m.1), leBytes 2 m.2)))

/-! ### Rings, chords and links -/

/-- CTL_ENABLE (R278). -/
def execCtlEnable (w : Who) (fn v : Nat) (s : State) : Res := .next (s.writeOne w (keyFor (isFn fn) (oCtlEnable fn)) (leBytes 1 v))
/-- MGMT_ARRIVE (R340). -/
def execMgmtArrive (w : Who) (i d : Nat) (s : State) : Res := .next (s.writeOne w (keyFor (isChord i) (oMgmtArrive i)) (leBytes 1 d))
/-- MEMBERS (R337). -/
def execMembers (w : Who) (i m : Nat) (s : State) : Res := .next (s.writeOne w (keyFor (isChord i) (oMembers i)) (leBytes 18 m))
/-- LINK_DRAIN (R374). -/
def execLinkDrain (w : Who) (l : Nat) (s : State) : Res := .next (s.writeOne w (keyFor (isLink l) (oLinkCtrl l)) [1])
/-- LINK_RESUME (R374). -/
def execLinkResume (w : Who) (l : Nat) (s : State) : Res := .next (s.writeOne w (keyFor (isLink l) (oLinkCtrl l)) [2])
/-- LINK_RETRAIN (R374). -/
def execLinkRetrain (w : Who) (l : Nat) (s : State) : Res := .next (s.writeOne w (keyFor (isLink l) (oLinkCtrl l)) [3])
/-- ROUTE_SET (R359). -/
def execRouteSet (w : Who) (vs : List Nat) (s : State) : Res := .next (s.writeAll w (vs.map fun v => (oRouteSet, leBytes 8 v)))

/-! ### The ledger, trace, starts and service -/

/-- SITE_CLEAR (R401); a die or site that the value's fields cannot spell is out of range. -/
def execSiteClear (w : Who) (d site : Nat) (s : State) : Res :=
  .next (s.writeOne w oSiteClear (leBytes 4 (if isDie d && site < 512 then d * 2 ^ 29 + site * 2 ^ 20 else 2 ^ 32 - 1)))
/-- TRACE_ENABLE (R414). -/
def execTraceEnable (w : Who) (v : Nat) (s : State) : Res := .next (s.writeOne w oTraceEnable (leBytes 1 v))
/-- TRACE_CONS (R414). -/
def execTraceCons (w : Who) (v : Nat) (s : State) : Res := .next (s.writeOne w oTraceCons (leBytes 4 v))
/-- WATCH_CFG (R417). -/
def execWatchCfg (w : Who) (i v : Nat) (s : State) : Res := .next (s.writeOne w (keyFor (i < 384) (oWatchCfg i)) (leBytes 8 v))
/-- START_WARM (R440). -/
def execStartWarm (w : Who) (s : State) : Res := .next (s.writeOne w oStartReq [1])
/-- START_COLD (R440). -/
def execStartCold (w : Who) (s : State) : Res := .next (s.writeOne w oStartReq [2])
/-- START_EXTENDED_COLD (R440). -/
def execStartExtendedCold (w : Who) (s : State) : Res := .next (s.writeOne w oStartReq [3])
/-- STOP (R442). -/
def execStop (w : Who) (s : State) : Res := .next (s.writeOne w oStartReq [4])
/-- IDENTIFY (R458). -/
def execIdentify (w : Who) (v : Nat) (s : State) : Res := .next (s.writeOne w oIdentify (leBytes 2 v))

/-! ### The test access port's frames (R43, R420) -/

/-- The way the test access port carries frames. -/
def tapPort : Port := { tr := .tap, fn := 0 }

/-- GEIND's data register (R420, R43): the response that it holds is shifted out, and the octets shifted in are a frame of the test access port,
which is served; a shift of none is the selection alone (log entry 66). -/
def State.geind (s : State) (data : List Byte) : State :=
  let s := { s with tapRsp := [] }.tap 4 (bitsOfBytes s.tapRsp)
  if data.isEmpty then s else s.answerFrame tapPort (frameFrom data)

/-- GEIND (R420). -/
def execGeind (data : List Byte) (s : State) : Res := .next (s.geind data)

end Sys2Proof.Machine
end

