-- ==== Sys2Proof/Machine/Dispatch.lean ====
section
/-! DEFINITION. One arm per command. -/

namespace Sys2Proof.Machine

open Sys2Proof

def exec (i : Instr) (s : State) : Host.Outcome State Fault Refusal :=
  match i with
  | .read p f => Sys2Proof.Machine.execRead p f s
  | .consumeRead p f => Sys2Proof.Machine.execConsumeRead p f s
  | .descriptorRead p f => Sys2Proof.Machine.execDescriptorRead p f s
  | .readMulti p f => Sys2Proof.Machine.execReadMulti p f s
  | .write p f => Sys2Proof.Machine.execWrite p f s
  | .fWriteDurable => Sys2Proof.Machine.execFWriteDurable s
  | .subscribe p f => Sys2Proof.Machine.execSubscribe p f s
  | .subscribeCancel p f => Sys2Proof.Machine.execSubscribeCancel p f s
  | .notifyPeriodic subid => Sys2Proof.Machine.execNotifyPeriodic subid s
  | .notifyOnChange subid => Sys2Proof.Machine.execNotifyOnChange subid s
  | .sessionOpen w v => Sys2Proof.Machine.execSessionOpen w v s
  | .sessionProof w v => Sys2Proof.Machine.execSessionProof w v s
  | .credSlotUnlock slot => Sys2Proof.Machine.execCredSlotUnlock slot s
  | .sessionClose w v => Sys2Proof.Machine.execSessionClose w v s
  | .sessionIdleTimeout sess => Sys2Proof.Machine.execSessionIdleTimeout sess s
  | .pendingSessionTimeout sess => Sys2Proof.Machine.execPendingSessionTimeout sess s
  | .restore w v => Sys2Proof.Machine.execRestore w v s
  | .mbxDoorbell fn len => Sys2Proof.Machine.execMbxDoorbell fn len s
  | .mbxResponse fn => Sys2Proof.Machine.execMbxResponse fn s
  | .mbxRspAck fn v => Sys2Proof.Machine.execMbxRspAck fn v s
  | .mbxNtfTail fn v => Sys2Proof.Machine.execMbxNtfTail fn v s
  | .registerWrite fn bar off data => Sys2Proof.Machine.execRegisterWrite fn bar off data s
  | .arrayClockGate a => Sys2Proof.Machine.execArrayClockGate a s
  | .arrayStartAdmitted a => Sys2Proof.Machine.execArrayStartAdmitted a s
  | .arrayEntryPush a => Sys2Proof.Machine.execArrayEntryPush a s
  | .arrayParityError a prow pcol => Sys2Proof.Machine.execArrayParityError a prow pcol s
  | .arrayRepairDone a => Sys2Proof.Machine.execArrayRepairDone a s
  | .repairRequest w v => Sys2Proof.Machine.execRepairRequest w v s
  | .programLoaded k => Sys2Proof.Machine.execProgramLoaded k s
  | .stepRepeat k => Sys2Proof.Machine.execStepRepeat k s
  | .tile k => Sys2Proof.Machine.execTile k s
  | .tileExpanderIssue k => Sys2Proof.Machine.execTileExpanderIssue k s
  | .paramColumn k => Sys2Proof.Machine.execParamColumn k s
  | .paramTable k => Sys2Proof.Machine.execParamTable k s
  | .paramZero k => Sys2Proof.Machine.execParamZero k s
  | .agen k => Sys2Proof.Machine.execAgen k s
  | .loadct k => Sys2Proof.Machine.execLoadct k s
  | .setcmp k => Sys2Proof.Machine.execSetcmp k s
  | .tangent k => Sys2Proof.Machine.execTangent k s
  | .syncChord k => Sys2Proof.Machine.execSyncChord k s
  | .syncSigwait k => Sys2Proof.Machine.execSyncSigwait k s
  | .syncSigadd k => Sys2Proof.Machine.execSyncSigadd k s
  | .endWord k => Sys2Proof.Machine.execEndWord k s
  | .moverReadReturn k g => Sys2Proof.Machine.execMoverReadReturn k g s
  | .storeMoverWrite k g => Sys2Proof.Machine.execStoreMoverWrite k g s
  | .streamComplete k g => Sys2Proof.Machine.execStreamComplete k g s
  | .tokenEmit k => Sys2Proof.Machine.execTokenEmit k s
  | .haltReq w k v => Sys2Proof.Machine.execHaltReq w k v s
  | .resume w k => Sys2Proof.Machine.execResume w k s
  | .resumeStep w k n => Sys2Proof.Machine.execResumeStep w k n s
  | .stepCountHalt k => Sys2Proof.Machine.execStepCountHalt k s
  | .blockPlace k => Sys2Proof.Machine.execBlockPlace k s
  | .ifetchMiss k g => Sys2Proof.Machine.execIfetchMiss k g s
  | .add k g j => Sys2Proof.Machine.execAdd k g j s
  | .sub k g j => Sys2Proof.Machine.execSub k g j s
  | .mulLo k g j => Sys2Proof.Machine.execMulLo k g j s
  | .mulHiS k g j => Sys2Proof.Machine.execMulHiS k g j s
  | .mulHiU k g j => Sys2Proof.Machine.execMulHiU k g j s
  | .andOp k g j => Sys2Proof.Machine.execAndOp k g j s
  | .orOp k g j => Sys2Proof.Machine.execOrOp k g j s
  | .xorOp k g j => Sys2Proof.Machine.execXorOp k g j s
  | .andn k g j => Sys2Proof.Machine.execAndn k g j s
  | .shl k g j => Sys2Proof.Machine.execShl k g j s
  | .shrU k g j => Sys2Proof.Machine.execShrU k g j s
  | .shrS k g j => Sys2Proof.Machine.execShrS k g j s
  | .minS k g j => Sys2Proof.Machine.execMinS k g j s
  | .minU k g j => Sys2Proof.Machine.execMinU k g j s
  | .maxS k g j => Sys2Proof.Machine.execMaxS k g j s
  | .maxU k g j => Sys2Proof.Machine.execMaxU k g j s
  | .sel k g j => Sys2Proof.Machine.execSel k g j s
  | .setp k g j => Sys2Proof.Machine.execSetp k g j s
  | .fadd k g j => Sys2Proof.Machine.execFadd k g j s
  | .fsub k g j => Sys2Proof.Machine.execFsub k g j s
  | .fmul k g j => Sys2Proof.Machine.execFmul k g j s
  | .ffma k g j => Sys2Proof.Machine.execFfma k g j s
  | .fmin k g j => Sys2Proof.Machine.execFmin k g j s
  | .fmax k g j => Sys2Proof.Machine.execFmax k g j s
  | .fdiv k g j => Sys2Proof.Machine.execFdiv k g j s
  | .fsqrt k g j => Sys2Proof.Machine.execFsqrt k g j s
  | .fsetp k g j => Sys2Proof.Machine.execFsetp k g j s
  | .cvt k g j => Sys2Proof.Machine.execCvt k g j s
  | .rcp k g j => Sys2Proof.Machine.execRcp k g j s
  | .rsq k g j => Sys2Proof.Machine.execRsq k g j s
  | .ex2 k g j => Sys2Proof.Machine.execEx2 k g j s
  | .lg2 k g j => Sys2Proof.Machine.execLg2 k g j s
  | .movi k g j => Sys2Proof.Machine.execMovi k g j s
  | .mov k g j => Sys2Proof.Machine.execMov k g j s
  | .shflIdx k g j => Sys2Proof.Machine.execShflIdx k g j s
  | .shflUp k g j => Sys2Proof.Machine.execShflUp k g j s
  | .shflDown k g j => Sys2Proof.Machine.execShflDown k g j s
  | .shflXor k g j => Sys2Proof.Machine.execShflXor k g j s
  | .voteAll k g j => Sys2Proof.Machine.execVoteAll k g j s
  | .voteAny k g j => Sys2Proof.Machine.execVoteAny k g j s
  | .voteBallot k g j => Sys2Proof.Machine.execVoteBallot k g j s
  | .pand k g j => Sys2Proof.Machine.execPand k g j s
  | .por k g j => Sys2Proof.Machine.execPor k g j s
  | .pxor k g j => Sys2Proof.Machine.execPxor k g j s
  | .pnot k g j => Sys2Proof.Machine.execPnot k g j s
  | .rdsr k g j => Sys2Proof.Machine.execRdsr k g j s
  | .ld k g j => Sys2Proof.Machine.execLd k g j s
  | .ldDataReturn k g => Sys2Proof.Machine.execLdDataReturn k g s
  | .st k g j => Sys2Proof.Machine.execSt k g j s
  | .ldb k g j => Sys2Proof.Machine.execLdb k g j s
  | .stb k g j => Sys2Proof.Machine.execStb k g j s
  | .acpLane k g j => Sys2Proof.Machine.execAcpLane k g j s
  | .acpBulk k g j => Sys2Proof.Machine.execAcpBulk k g j s
  | .acpPartWritten k len => Sys2Proof.Machine.execAcpPartWritten k len s
  | .arradd k g j => Sys2Proof.Machine.execArradd k g j s
  | .arrset k g j => Sys2Proof.Machine.execArrset k g j s
  | .arrwait k g j => Sys2Proof.Machine.execArrwait k g j s
  | .atomAdd k g j => Sys2Proof.Machine.execAtomAdd k g j s
  | .atomMinS k g j => Sys2Proof.Machine.execAtomMinS k g j s
  | .atomMinU k g j => Sys2Proof.Machine.execAtomMinU k g j s
  | .atomMaxS k g j => Sys2Proof.Machine.execAtomMaxS k g j s
  | .atomMaxU k g j => Sys2Proof.Machine.execAtomMaxU k g j s
  | .atomAnd k g j => Sys2Proof.Machine.execAtomAnd k g j s
  | .atomOr k g j => Sys2Proof.Machine.execAtomOr k g j s
  | .atomXor k g j => Sys2Proof.Machine.execAtomXor k g j s
  | .atomSwap k g j => Sys2Proof.Machine.execAtomSwap k g j s
  | .atomCas k g j => Sys2Proof.Machine.execAtomCas k g j s
  | .red k g j => Sys2Proof.Machine.execRed k g j s
  | .vredB32 k g j => Sys2Proof.Machine.execVredB32 k g j s
  | .vredW16 k g j => Sys2Proof.Machine.execVredW16 k g j s
  | .vredB16 k g j => Sys2Proof.Machine.execVredB16 k g j s
  | .fence k g j => Sys2Proof.Machine.execFence k g j s
  | .bra k g j => Sys2Proof.Machine.execBra k g j s
  | .brc k g j => Sys2Proof.Machine.execBrc k g j s
  | .call k g j => Sys2Proof.Machine.execCall k g j s
  | .ret k g j => Sys2Proof.Machine.execRet k g j s
  | .exit k g j => Sys2Proof.Machine.execExit k g j s
  | .lockBegin k g j => Sys2Proof.Machine.execLockBegin k g j s
  | .lockAcquired k g => Sys2Proof.Machine.execLockAcquired k g s
  | .lockEnd k g j => Sys2Proof.Machine.execLockEnd k g j s
  | .lockInstrLimit k g => Sys2Proof.Machine.execLockInstrLimit k g s
  | .lockTimeout k g => Sys2Proof.Machine.execLockTimeout k g s
  | .apush k g j => Sys2Proof.Machine.execApush k g j s
  | .sigwait k g j => Sys2Proof.Machine.execSigwait k g j s
  | .sigadd k g j => Sys2Proof.Machine.execSigadd k g j s
  | .setrnd k g j => Sys2Proof.Machine.execSetrnd k g j s
  | .rdflg k g j => Sys2Proof.Machine.execRdflg k g j s
  | .clrflg k g j => Sys2Proof.Machine.execClrflg k g j s
  | .thrHalt w k => Sys2Proof.Machine.execThrHalt w k s
  | .thrForcedHalt w k => Sys2Proof.Machine.execThrForcedHalt w k s
  | .thrResume w k => Sys2Proof.Machine.execThrResume w k s
  | .thrStep w k => Sys2Proof.Machine.execThrStep w k s
  | .rds r line mask na => Sys2Proof.Machine.execRds r line mask na s
  | .rdu k line mask nodata => Sys2Proof.Machine.execRdu k line mask nodata s
  | .upg k line => Sys2Proof.Machine.execUpg k line s
  | .wb k line => Sys2Proof.Machine.execWb k line s
  | .evn k line inst => Sys2Proof.Machine.execEvn k line inst s
  | .iwr r pa data => Sys2Proof.Machine.execIwr r pa data s
  | .atm r op pa width b c => Sys2Proof.Machine.execAtm r op pa width b c s
  | .sni k line => Sys2Proof.Machine.execSni k line s
  | .sns k line => Sys2Proof.Machine.execSns k line s
  | .ackInv k line => Sys2Proof.Machine.execAckInv k line s
  | .ackShr k line => Sys2Proof.Machine.execAckShr k line s
  | .notPresent k line => Sys2Proof.Machine.execNotPresent k line s
  | .wbPending k line => Sys2Proof.Machine.execWbPending k line s
  | .grant k line => Sys2Proof.Machine.execGrant k line s
  | .wbAck k line => Sys2Proof.Machine.execWbAck k line s
  | .comp r line => Sys2Proof.Machine.execComp r line s
  | .compAck k line => Sys2Proof.Machine.execCompAck k line s
  | .fill k line mask excl inst data => Sys2Proof.Machine.execFill k line mask excl inst data s
  | .snpdat k line mask data => Sys2Proof.Machine.execSnpdat k line mask data s
  | .wbdat k line mask data => Sys2Proof.Machine.execWbdat k line mask data s
  | .wdata r pa data => Sys2Proof.Machine.execWdata r pa data s
  | .atmdat k g => Sys2Proof.Machine.execAtmdat k g s
  | .cacheDrain w c => Sys2Proof.Machine.execCacheDrain w c s
  | .cacheDiscard w c => Sys2Proof.Machine.execCacheDiscard w c s
  | .cacheEnable w c => Sys2Proof.Machine.execCacheEnable w c s
  | .cacheDrained c => Sys2Proof.Machine.execCacheDrained c s
  | .waymask w d ms => Sys2Proof.Machine.execWaymask w d ms s
  | .waymaskReclaimDone d => Sys2Proof.Machine.execWaymaskReclaimDone d s
  | .chanOwner w cs => Sys2Proof.Machine.execChanOwner w cs s
  | .channelClearDone ch => Sys2Proof.Machine.execChannelClearDone ch s
  | .bucketAdmit b => Sys2Proof.Machine.execBucketAdmit b s
  | .hbmParityError ch pc e => Sys2Proof.Machine.execHbmParityError ch pc e s
  | .suspectExpire ch => Sys2Proof.Machine.execSuspectExpire ch s
  | .patrolScrub ch e => Sys2Proof.Machine.execPatrolScrub ch e s
  | .channelMigrationDone ch => Sys2Proof.Machine.execChannelMigrationDone ch s
  | .trainSlot d => Sys2Proof.Machine.execTrainSlot d s
  | .trainSlotEnd d marginPs => Sys2Proof.Machine.execTrainSlotEnd d marginPs s
  | .trainSlotAbandon d => Sys2Proof.Machine.execTrainSlotAbandon d s
  | .walkComplete d => Sys2Proof.Machine.execWalkComplete d s
  | .faultRecordWrite d => Sys2Proof.Machine.execFaultRecordWrite d s
  | .faultReplay fn page v => Sys2Proof.Machine.execFaultReplay fn page v s
  | .faultCancel fn page v => Sys2Proof.Machine.execFaultCancel fn page v s
  | .faultTimeout d seq => Sys2Proof.Machine.execFaultTimeout d seq s
  | .tlbSetmask w d ms => Sys2Proof.Machine.execTlbSetmask w d ms s
  | .prodWrite fn page v => Sys2Proof.Machine.execProdWrite fn page v s
  | .consWrite fn page v => Sys2Proof.Machine.execConsWrite fn page v s
  | .commandFetch r => Sys2Proof.Machine.execCommandFetch r s
  | .accept r => Sys2Proof.Machine.execAccept r s
  | .ctlEnable w fn v => Sys2Proof.Machine.execCtlEnable w fn v s
  | .ctxCreate fn => Sys2Proof.Machine.execCtxCreate fn s
  | .ctxDestroy fn => Sys2Proof.Machine.execCtxDestroy fn s
  | .ringCreate fn => Sys2Proof.Machine.execRingCreate fn s
  | .ringDestroy fn => Sys2Proof.Machine.execRingDestroy fn s
  | .memCreate fn => Sys2Proof.Machine.execMemCreate fn s
  | .memDestroy fn => Sys2Proof.Machine.execMemDestroy fn s
  | .arcCreate fn => Sys2Proof.Machine.execArcCreate fn s
  | .arcDestroy fn => Sys2Proof.Machine.execArcDestroy fn s
  | .sigCreate fn => Sys2Proof.Machine.execSigCreate fn s
  | .sigDestroy fn => Sys2Proof.Machine.execSigDestroy fn s
  | .invalidate fn => Sys2Proof.Machine.execInvalidate fn s
  | .invalidateComplete fn => Sys2Proof.Machine.execInvalidateComplete fn s
  | .nop r => Sys2Proof.Machine.execNop r s
  | .step r => Sys2Proof.Machine.execStep r s
  | .run r => Sys2Proof.Machine.execRun r s
  | .copy r => Sys2Proof.Machine.execCopy r s
  | .wait r => Sys2Proof.Machine.execWait r s
  | .signal r => Sys2Proof.Machine.execSignal r s
  | .shardBegin k => Sys2Proof.Machine.execShardBegin k s
  | .shardEnd k => Sys2Proof.Machine.execShardEnd k s
  | .copyComplete e => Sys2Proof.Machine.execCopyComplete e s
  | .runTimeout e => Sys2Proof.Machine.execRunTimeout e s
  | .waitTimeout r => Sys2Proof.Machine.execWaitTimeout r s
  | .terminalRecord r => Sys2Proof.Machine.execTerminalRecord r s
  | .parkEviction => Sys2Proof.Machine.execParkEviction s
  | .signalAdd ctx va v => Sys2Proof.Machine.execSignalAdd ctx va v s
  | .sigPoll => Sys2Proof.Machine.execSigPoll s
  | .wake fn page v => Sys2Proof.Machine.execWake fn page v s
  | .addValue fn page v => Sys2Proof.Machine.execAddValue fn page v s
  | .chordArrive fn page v => Sys2Proof.Machine.execChordArrive fn page v s
  | .mgmtArrive w j d => Sys2Proof.Machine.execMgmtArrive w j d s
  | .members w j m => Sys2Proof.Machine.execMembers w j m s
  | .linkTrainingStart l => Sys2Proof.Machine.execLinkTrainingStart l s
  | .linkTrained l => Sys2Proof.Machine.execLinkTrained l s
  | .linkPrsntDeassert l => Sys2Proof.Machine.execLinkPrsntDeassert l s
  | .helloSend l => Sys2Proof.Machine.execHelloSend l s
  | .hello l vertex nlink => Sys2Proof.Machine.execHello l vertex nlink s
  | .helloTimeout l => Sys2Proof.Machine.execHelloTimeout l s
  | .lctrlAck l ackseq => Sys2Proof.Machine.execLctrlAck l ackseq s
  | .lctrlNak l lseq => Sys2Proof.Machine.execLctrlNak l lseq s
  | .lctrlCredit l cls vc n => Sys2Proof.Machine.execLctrlCredit l cls vc n s
  | .messageTransmit arc => Sys2Proof.Machine.execMessageTransmit arc s
  | .messageForward l m => Sys2Proof.Machine.execMessageForward l m s
  | .msgWrite l m => Sys2Proof.Machine.execMsgWrite l m s
  | .msgReduce l m => Sys2Proof.Machine.execMsgReduce l m s
  | .msgReadReq l m => Sys2Proof.Machine.execMsgReadReq l m s
  | .msgReadData l m => Sys2Proof.Machine.execMsgReadData l m s
  | .msgAtomic l m => Sys2Proof.Machine.execMsgAtomic l m s
  | .msgAtomicRsp l m => Sys2Proof.Machine.execMsgAtomicRsp l m s
  | .msgAck l m => Sys2Proof.Machine.execMsgAck l m s
  | .ackTimer arc => Sys2Proof.Machine.execAckTimer arc s
  | .nackStale l m => Sys2Proof.Machine.execNackStale l m s
  | .nackAuth l m => Sys2Proof.Machine.execNackAuth l m s
  | .nackNokey l m => Sys2Proof.Machine.execNackNokey l m s
  | .msgOpen l m => Sys2Proof.Machine.execMsgOpen l m s
  | .openRsp l m => Sys2Proof.Machine.execOpenRsp l m s
  | .resolve l m => Sys2Proof.Machine.execResolve l m s
  | .resolveRsp l m => Sys2Proof.Machine.execResolveRsp l m s
  | .msgArrive l m => Sys2Proof.Machine.execMsgArrive l m s
  | .arcRtoExpire arc => Sys2Proof.Machine.execArcRtoExpire arc s
  | .arcRetryTimer arc => Sys2Proof.Machine.execArcRetryTimer arc s
  | .linkDrain w l => Sys2Proof.Machine.execLinkDrain w l s
  | .linkDrained l => Sys2Proof.Machine.execLinkDrained l s
  | .drainTimeout l => Sys2Proof.Machine.execDrainTimeout l s
  | .linkResume w l => Sys2Proof.Machine.execLinkResume w l s
  | .linkRetrain w l => Sys2Proof.Machine.execLinkRetrain w l s
  | .routeSet w vs => Sys2Proof.Machine.execRouteSet w vs s
  | .keySet q => Sys2Proof.Machine.execKeySet q s
  | .keyClear q => Sys2Proof.Machine.execKeyClear q s
  | .getMeasurements idx nonce => Sys2Proof.Machine.execGetMeasurements idx nonce s
  | .keyExchange => Sys2Proof.Machine.execKeyExchange s
  | .getCertificate slot => Sys2Proof.Machine.execGetCertificate slot s
  | .challenge slot nonce => Sys2Proof.Machine.execChallenge slot nonce s
  | .powerLoop m => Sys2Proof.Machine.execPowerLoop m s
  | .pointSettled c => Sys2Proof.Machine.execPointSettled c s
  | .tangentLapse c => Sys2Proof.Machine.execTangentLapse c s
  | .droop c => Sys2Proof.Machine.execDroop c s
  | .droopEnd c => Sys2Proof.Machine.execDroopEnd c s
  | .currentLimit watts => Sys2Proof.Machine.execCurrentLimit watts s
  | .vin48Undervoltage mv => Sys2Proof.Machine.execVin48Undervoltage mv s
  | .throttleAssert => Sys2Proof.Machine.execThrottleAssert s
  | .throttleDeassert => Sys2Proof.Machine.execThrottleDeassert s
  | .thermalTrip sensor mdeg => Sys2Proof.Machine.execThermalTrip sensor mdeg s
  | .marginSample m => Sys2Proof.Machine.execMarginSample m s
  | .energyRecalibrate e => Sys2Proof.Machine.execEnergyRecalibrate e s
  | .siteEvent d site e => Sys2Proof.Machine.execSiteEvent d site e s
  | .siteBucketRoll d site => Sys2Proof.Machine.execSiteBucketRoll d site s
  | .siteActionBegin d site => Sys2Proof.Machine.execSiteActionBegin d site s
  | .siteActionDone d site => Sys2Proof.Machine.execSiteActionDone d site s
  | .staleClearDone u ok => Sys2Proof.Machine.execStaleClearDone u ok s
  | .siteClear w d site => Sys2Proof.Machine.execSiteClear w d site s
  | .ledgerCommit => Sys2Proof.Machine.execLedgerCommit s
  | .trendRecord d => Sys2Proof.Machine.execTrendRecord d s
  | .ctxCounterUpdate k => Sys2Proof.Machine.execCtxCounterUpdate k s
  | .traceEnable w v => Sys2Proof.Machine.execTraceEnable w v s
  | .traceCons w v => Sys2Proof.Machine.execTraceCons w v s
  | .watchCfg w j v => Sys2Proof.Machine.execWatchCfg w j v s
  | .bypass => Sys2Proof.Machine.execBypass s
  | .idcode => Sys2Proof.Machine.execIdcode s
  | .samplePreload v => Sys2Proof.Machine.execSamplePreload v s
  | .extest => Sys2Proof.Machine.execExtest s
  | .geind data => Sys2Proof.Machine.execGeind data s
  | .svnCommit w v => Sys2Proof.Machine.execSvnCommit w v s
  | .svcToken w v => Sys2Proof.Machine.execSvcToken w v s
  | .svcEnable w v => Sys2Proof.Machine.execSvcEnable w v s
  | .l3SessionExpire sess => Sys2Proof.Machine.execL3SessionExpire sess s
  | .credKey w slot v => Sys2Proof.Machine.execCredKey w slot v s
  | .coreMask w ms => Sys2Proof.Machine.execCoreMask w ms s
  | .teardown w part v => Sys2Proof.Machine.execTeardown w part v s
  | .teardownDone part => Sys2Proof.Machine.execTeardownDone part s
  | .auxPowerOn mv => Sys2Proof.Machine.execAuxPowerOn mv s
  | .powerOn mv => Sys2Proof.Machine.execPowerOn mv s
  | .startWarm w => Sys2Proof.Machine.execStartWarm w s
  | .startCold w => Sys2Proof.Machine.execStartCold w s
  | .startExtendedCold w => Sys2Proof.Machine.execStartExtendedCold w s
  | .stop w => Sys2Proof.Machine.execStop w s
  | .watchdog d => Sys2Proof.Machine.execWatchdog d s
  | .quiesceTimeout => Sys2Proof.Machine.execQuiesceTimeout s
  | .startTimeout noImage => Sys2Proof.Machine.execStartTimeout noImage s
  | .startEscalation => Sys2Proof.Machine.execStartEscalation s
  | .startComplete bad => Sys2Proof.Machine.execStartComplete bad s
  | .hostConfigReady port => Sys2Proof.Machine.execHostConfigReady port s
  | .hostPortReset port => Sys2Proof.Machine.execHostPortReset port s
  | .svcBtnPress => Sys2Proof.Machine.execSvcBtnPress s
  | .svcBtnHold => Sys2Proof.Machine.execSvcBtnHold s
  | .grpBtnPress d => Sys2Proof.Machine.execGrpBtnPress d s
  | .latchAssert => Sys2Proof.Machine.execLatchAssert s
  | .latchDeassert => Sys2Proof.Machine.execLatchDeassert s
  | .latchResumeTimer => Sys2Proof.Machine.execLatchResumeTimer s
  | .identify w v => Sys2Proof.Machine.execIdentify w v s
  | .identifyExpire => Sys2Proof.Machine.execIdentifyExpire s
  | .vin48Loss mv => Sys2Proof.Machine.execVin48Loss mv s
  | .auxLoss mv => Sys2Proof.Machine.execAuxLoss mv s
  | .refclkLoss => Sys2Proof.Machine.execRefclkLoss s
  | .pllLockLoss d => Sys2Proof.Machine.execPllLockLoss d s
  | .refclkRestored => Sys2Proof.Machine.execRefclkRestored s
  | .linkPrsntAssert l => Sys2Proof.Machine.execLinkPrsntAssert l s
  | .flitCrcFail l => Sys2Proof.Machine.execFlitCrcFail l s
  | .hostLinkDown port => Sys2Proof.Machine.execHostLinkDown port s
  | .ethLinkDown => Sys2Proof.Machine.execEthLinkDown s
  | .ethLinkUp => Sys2Proof.Machine.execEthLinkUp s
  | .spdmSessionEnd => Sys2Proof.Machine.execSpdmSessionEnd s
  | .linkDownLedTimer l => Sys2Proof.Machine.execLinkDownLedTimer l s
  | .inletTempMeasurement mdeg => Sys2Proof.Machine.execInletTempMeasurement mdeg s

end Sys2Proof.Machine
end

