-- ==== Sys2Proof/Machine/Step.lean ====
section
/-! DEFINITION. One step: the command at the front of the queue, or a nanosecond of idling. -/

namespace Sys2Proof.Machine

/-- On an empty queue the block idles and its clock advances by 1 ns (log entry 1). -/
def tick (s : State) : State := { s with now := s.now + 1 }

/-- One step: the front command's effect with the queue's rest, or the tick. -/
def step (s : State) : Host.Outcome State Fault Refusal :=
  match s.pending with
  | [] => .next (tick s)
  | c :: r => exec c { s with pending := r }

/-- The state with the command that a word spells put at the front of its queue; unchanged where the word spells none. -/
def State.withFetchWord (s : State) (nbits w : Nat) : State :=
  match decodeTableWord nbits w with
  | none => s
  | some c => { s with pending := c :: s.pending }

end Sys2Proof.Machine
end

