-- ==== Sys2Proof/Safety.lean ====
section
/-! DEFINITION. What a safe step and a safe state are, and the words that statements about commands are made of. -/

namespace Sys2Proof.Machine

/-- The outcome is a next state: nothing stopped the block. -/
def Completes (r : Res) : Prop := ∃ t, r = .next t

/-- The command answers a next state of which `P` holds. -/
def Answers (c : Instr) (s : State) (P : State → Prop) : Prop := ∃ t, exec c s = .next t ∧ P t

/-- The stacked memory and the host memory are in their canonical form. -/
def State.memOk (s : State) : Prop := Memory.wf s.hbm = true ∧ Memory.wf s.host = true

/-! ### Requests and their responses -/

/-- The state in which a frame that has come in is looked at: sessions whose time is over are gone, and the frame is counted. -/
def State.received (s : State) : State := s.expire.bump 8 oFramesIn 1

/-- A session with its time and its SEQ brought up to a request. -/
def Sess.asking (c : Sess) (now seq : Nat) : Sess := { c with lastUse := now, lastSeq := some seq }

/-- The state in which a session's request is performed. -/
def State.forRequest (s : State) (c : Sess) (f : Frame) : State := s.received.setSess (c.asking s.now f.seq)

/-- A frame comes to be performed as a request of an open session `c` (R36, R38, R39, R42, R46, R480, R481). -/
structure State.Admits (s : State) (p : Port) (f : Frame) (c : Sess) : Prop where
  hears : s.hears p = true
  sound : frameLost f = false
  named : f.session ≠ 0
  found : s.received.findSess p f.session = some c
  tag : tagFails (some c) f = false
  form : frameBad f c.tags = false
  mailbox : isVf p = true → s.received.nat oMbxVfEnable ≠ 0
  free : p.tr = .mbx → s.mbxFree p.fn = true
  asks : c.pending = true → pendingOk c f = true
  new : ∀ e ∈ c.kept, e.1 ≠ f.seq
  after : seqAfter c.lastSeq f.seq = true

/-- A response has left on its transport: as a frame, or in MBX_RSP; a mailbox that cannot be reached when its response is due is free again
without one (R46, R47; log entry 83). -/
def State.Sent (t : State) (p : Port) (f : Frame) : Prop :=
  if p.tr = .mbx then
    (t.mbxOf p.fn).busy = false ∧
      (t.portReady (p.fn / 16) = true → (t.mbxOf p.fn).rsp = frameBytes f ∧ (t.mbxOf p.fn).ready = true)
  else t.out.getLast? = some (.frame p f)

/-- A response with a property was sent, or waits until flash holds what it answers (R20). -/
def State.Replies (t : State) (p : Port) (seq : Nat) (P : Frame → Prop) : Prop :=
  ∃ f, f.seq = seq ∧ P f ∧ (t.Sent p f ∨ ∃ r ∈ t.flash, r.port = p ∧ r.rsp = f)

/-- A subscription's notification in a state (R34, R47): sent with the session's next SEQ, the SUBID, the dropped count and the values as they read,
or taken into the mailbox's next slot. One that cannot be delivered is counted as dropped. -/
structure State.Notified (u t : State) (x : Sub) (c : Sess) : Prop where
  sent : u.delivers c.port = true → ∃ g : Frame, g.op = 5 ∧ g.session = c.id ∧ g.seq = (c.ntfSeq + 1) % 2 ^ 32 ∧ g.time = u.mtime ∧
    (g.hdr.map fun h => (h.subid, h.dropped)) = some (x.id, x.dropped) ∧
    g.items = ((x.items.zip (u.sampleAll c x.items)).map fun e => answerItem (sampleItem e.1) e.2.1 e.2.2) ∧
    (if c.port.tr = .mbx then
       (Tbl.get [] (t.mbxOf c.port.fn).slots (u.mbxOf c.port.fn).head).take (frameBytes g).length = frameBytes g ∧
         (t.mbxOf c.port.fn).head = ((u.mbxOf c.port.fn).head + 1) % 3 ∧ (t.mbxOf c.port.fn).unread = (u.mbxOf c.port.fn).unread + 1
     else t.out = u.out ++ [.frame c.port g])
  next : u.delivers c.port = true → ∀ d ∈ t.sess, d.id = c.id → d.ntfSeq = c.ntfSeq + 1
  dropped : u.delivers c.port = false → t.out = u.out ∧ t.mbx = u.mbx ∧ ∃ y ∈ t.subs, y.id = x.id ∧ y.dropped = x.dropped + 1

/-- An object whose WRITE only gives it its value. -/
def plainObject (key : Nat) : Prop :=
  key ≠ oSessionOpen ∧ key ≠ oSessionProof ∧ key ≠ oSvcToken ∧ key ≠ oRepairRequest ∧ key ≠ oRestore ∧
    ∀ (s : State) (c : Sess) (v : Nat), s.applyUnit key v = none ∧ s.applyModule c key v = none

/-- A WRITE of one object comes to be performed and every check of it passes: its item's status is 0 (R28, R482). -/
structure State.Takes (s : State) (w : Who) (key : Nat) (data : List Byte) (c : Sess) : Prop where
  admits : s.Admits w.port (writeOf w key data) c
  passes : (s.forRequest c (writeOf w key data)).itemStatuses (c.asking s.now w.seq) w.port (writeOf w key data).items = [0]

/-- The answer of a WRITE that was applied: every item OK. -/
def State.Accepted (t : State) (w : Who) : Prop := t.Replies w.port w.seq fun f => f.status = 0 ∧ ∀ it ∈ f.items, it.istatus = 0

/-! ### Thread groups -/

/-- An instruction of a form is a group's next one, the group has the turn of its lane set, and the encoding and the registers it names are in
order (R170, R173, R177, R178, R195, R198). -/
structure State.Ready (s : State) (k g : Nat) (i : TInstr) (fm : OpForm) : Prop where
  core : isCore k = true
  group : isGroup g = true
  may : s.mayIssue k g i = true
  clear : (s.group k g).awaits fm.regs = false
  lock : ∀ l, (s.group k g).lock = some l → l.count < 64 ∧ fm.inLock = true
  legal : fm.legal i = true
  names : (s.group k g).regsCode fm.regs = 0

/-- A group is as it was but for `n` registers from `d` in some lanes, which hold their values; X255 discards its own (R170). -/
structure Group.Writes (x y : Group) (ls : List Nat) (d n : Nat) (v : Nat → Nat) : Prop where
  rest : y = { x with regs := y.regs }
  hit : ∀ ln ∈ ls, ∀ j, j < n → d + j ≠ 255 → y.reg ln (d + j) = v ln / 2 ^ (32 * j) % 2 ^ 32
  other : ∀ ln r, r < 256 → (ln ∉ ls ∨ r < d ∨ d + n ≤ r) → y.reg ln r = x.reg ln r

/-- A group is as it was but for a predicate in some lanes, which holds its value; P7 discards it (R172). -/
structure Group.Sets (x y : Group) (ls : List Nat) (p : Nat) (v : Nat → Bool) : Prop where
  rest : y = { x with preds := y.preds }
  hit : ∀ ln ∈ ls, p ≠ 7 → y.pred ln p = v ln
  other : ∀ ln q, (ln ∉ ls ∨ q ≠ p) → y.pred ln q = x.pred ln q

/-- Flags raised in some lanes of a group (R183). -/
def Group.Raised (x : Group) (ls : List Nat) (fl : Nat → Nat) (f : Tbl Nat) : Prop :=
  (∀ ln ∈ ls, Tbl.get 0 f ln = Tbl.get 0 x.flags ln ||| fl ln) ∧ ∀ ln, ln ∉ ls → Tbl.get 0 f ln = Tbl.get 0 x.flags ln

/-- An instruction issues and writes registers of its group, and nothing else but what every issue does. -/
def State.IssuesWrite (s : State) (k g d n : Nat) (ls : List Nat) (v : Nat → Nat) (t : State) : Prop :=
  ∃ y, t = ((s.touchFetch k g).setGroup k g y).issued k g false ∧ (s.group k g).Writes y ls d n v

/-- An instruction issues and writes a predicate of its group. -/
def State.IssuesSet (s : State) (k g p : Nat) (ls : List Nat) (v : Nat → Bool) (t : State) : Prop :=
  ∃ y, t = ((s.touchFetch k g).setGroup k g y).issued k g false ∧ (s.group k g).Sets y ls p v

/-- An instruction issues, writes registers of its group and raises flags. -/
def State.IssuesRaise (s : State) (k g d n : Nat) (ls : List Nat) (v : Nat → Nat × Nat) (t : State) : Prop :=
  ∃ y f, t = ((s.touchFetch k g).setGroup k g { y with flags := f }).issued k g false ∧ (s.group k g).Writes y ls d n (fun ln => (v ln).1) ∧
    (s.group k g).Raised ls (fun ln => (v ln).2) f

/-! ### Homes -/

/-- A request that comes now finds its home free: no transaction or lock stands on its line, none waits before it, no write-back of it is on its way, a
write need not wait at the controller, and no bucket limits it (R194, R213, R215, R222, R238, R241). -/
structure State.HomeFree (s : State) (line : Nat) (req : HomeReq) : Prop where
  idle : (s.accountAt req.agent (128 * line) req.bytes).lineBusy line = false
  first : ∀ w ∈ s.txq, ahead w line = false
  quiet : s.lateWbs line = []
  accepts : req.writes = true → (s.accountAt req.agent (128 * line) req.bytes).writesWait line = false
  flows : ∀ b ∈ s.reqBuckets line req, (s.accountAt req.agent (128 * line) req.bytes).bucketRate b = 0

/-- A coherence message is in flight. -/
def State.Flies (s : State) (kind : String) (dst line : Nat) (P : LMsg → Prop) : Prop :=
  ∃ m ∈ s.lattice, m.kind = kind ∧ m.dst = dst ∧ m.line = line ∧ P m

/-- A line's transaction awaits the answers of some cores. -/
def State.Awaits (s : State) (line : Nat) (ks : List Nat) : Prop := ∃ x, s.txOf line = some x ∧ x.await = ks ∧ x.granted = false

/-! ### What a WRITE leaves -/

/-- A request's reply has been made from a state: sessions, what has been sent, mailboxes, the response in the test access port's data register and
what waits for flash apart, it is as it was. -/
def State.RepliedFrom (u t : State) : Prop :=
  t = { u with sess := t.sess, out := t.out, mbx := t.mbx, tapRsp := t.tapRsp, flash := t.flash }

/-- The frame of a WRITE of several objects. -/
def allOf (w : Who) (l : List (Nat × List Byte)) : Frame :=
  sealed { writeOf w 0 [] with items := l.flatMap fun e => (writeOf w e.1 e.2).items }

/-- A WRITE of several objects comes to be performed and every check of it passes (R28, R482). -/
structure State.TakesAll (s : State) (w : Who) (l : List (Nat × List Byte)) (c : Sess) : Prop where
  admits : s.Admits w.port (allOf w l) c
  short : l.length ≤ 64
  passes : ∀ st ∈ (s.forRequest c (allOf w l)).itemStatuses (c.asking s.now w.seq) w.port (allOf w l).items, st = 0

/-! ### Control rings -/

/-- A command of an opcode at the head of a function's control ring, in good form and with its reserved operand bits 0 (R278, R279, R281). -/
structure State.Commands (s : State) (fn op v : Nat) (zero : List (Nat × Nat × Nat)) : Prop where
  unit : isFn fn = true
  head : s.ctlHead fn = some v
  named : hOp v = op
  first : (s.ctl fn).stale = 0
  form : ctlHeadOk v = true
  clear : ∀ z ∈ zero, bits z.2.1 z.2.2 (ctlW v z.1) = 0

/-- The record of a control command's result is written in its slot, with TAG, STATUS, HANDLE, RESULT2 and the time, and CONS is past the command
(R278, R280). -/
def State.CtlAnswered (s t : State) (fn v code handle result : Nat) : Prop :=
  Memory.num t.host (hostKey (fn / 16) (s.ctr (oCtlResultBase fn) + 64 * ((s.ctl fn).cons % s.ctlSize fn))) 64 =
      (s.mtime % 2 ^ 64 * 2 ^ 192 + result * 2 ^ 128 + handle * 2 ^ 64 + code * 2 ^ 32 + hTag v) % 2 ^ 512 ∧
    t.ctl fn = { s.ctl fn with cons := ((s.ctl fn).cons + 1) % 2 ^ 32, stale := 0 }

/-- Operand words 1 to 5 of a control command, and the high half of its first: 0 where only a handle is given (R279). -/
def onlyHandle : List (Nat × Nat × Nat) := [(0, 63, 32), (1, 63, 0), (2, 63, 0), (3, 63, 0), (4, 63, 0), (5, 63, 0)]

/-! ### Arcs -/

/-- A message of a type comes over a link for a live end, and its tag is right (R353, R369, R372). -/
structure State.Heard (s : State) (l slot : Nat) (m : PMsg) (ty : Nat) : Prop where
  unit : isLink l = true
  carries : s.carries l = true
  here : m.dv = s.vertex
  type : m.mtype = ty
  named : m.darc = slot
  live : (s.arc slot).live = true
  kind : (s.arc slot).kind ≠ 0
  epoch : (s.arc slot).epoch = m.depoch
  from_ : (s.arc slot).vertex = m.sv
  keyed : (s.keyOf (s.arc slot)).cur ≠ 0
  tag : s.tagOk (s.arc slot) m = true

/-- A message that names an arc comes over a link, and its tag is right (R364, R369, R373). -/
structure State.Named (s : State) (l slot : Nat) (m : PMsg) (ty : Nat) : Prop where
  unit : isLink l = true
  carries : s.carries l = true
  here : m.dv = s.vertex
  type : m.mtype = ty
  named : s.arcNamed m = some slot
  keyed : (s.keyOf (s.arc slot)).cur ≠ 0
  tag : s.tagOk (s.arc slot) m = true

/-- A NACK of a kind comes over a link for an end (R370 to R372). -/
structure State.Nacked (s : State) (l slot : Nat) (m : PMsg) (opx : Nat) : Prop where
  unit : isLink l = true
  carries : s.carries l = true
  here : m.dv = s.vertex
  type : m.mtype = 7
  why : m.opx = opx
  named : m.darc = slot
  live : (s.arc slot).live = true
  kind : (s.arc slot).kind ≠ 0
  from_ : (s.arc slot).vertex = m.sv

/-- The state in which a message that is next in its arc's order is applied: its flits are taken, and it stands in the window (R365). -/
def State.taking (s : State) (l slot : Nat) (m : PMsg) : State := (s.flitsIn l m).setArc slot { s.arc slot with window := [m] }

/-- A message is the next of its arc, nothing waits before it, and no ACK falls due with it (R365). -/
structure Arc.Next (a : Arc) (m : PMsg) : Prop where
  bound : a.applied < 2 ^ 32
  number : m.mseq = (a.applied + 1) % 2 ^ 32
  window : a.window = []
  quiet : a.sinceAck < 15

/-! ### Frames and bounds -/

/-- An item whose fields fit their places (R24). -/
structure ItemFits (i : Item) : Prop where
  idx : i.idx < 2 ^ 16
  sub : i.sub < 2 ^ 8
  ty : i.ty < 2 ^ 4
  rsv : i.rsv < 2 ^ 4
  istatus : i.istatus < 2 ^ 8
  data : i.data.length < 2 ^ 12
  seg : i.seg < 2 ^ 12
  pad : i.padOk = true

/-- A request frame whose fields fit their places, with its length, tag and CRC-32C in order (R22 to R24, R32). -/
structure FrameFits (f : Frame) : Prop where
  ver : f.ver < 2 ^ 8
  op : f.op < 2 ^ 8
  flags : f.flags < 2 ^ 8
  status : f.status < 2 ^ 8
  session : f.session < 2 ^ 32
  seq : f.seq < 2 ^ 32
  time : f.time = 0
  request : f.op = 3 → f.flags.testBit 7 = false
  count : f.items.length < 2 ^ 16
  payload : (payloadBytes f).length < 2 ^ 16
  items : ∀ i ∈ f.items, ItemFits i
  header : f.op = 4 → ∃ h, f.hdr = some h ∧ h.period < 2 ^ 64 ∧ h.mode < 2 ^ 8 ∧ h.plan < 2 ^ 8 ∧ h.subid < 2 ^ 16 ∧ h.dropped = 0
  noHeader : f.op ≠ 4 → f.hdr = none
  tagged : f.flags.testBit 3 = true → ∃ t, f.tag = some t ∧ t.length = 16
  untagged : f.flags.testBit 3 = false → f.tag = none
  whole : sealed f = f

/-- At most 32 sessions, 64 subscriptions and 1,024 remembered SESSION values are held (R33, R36, R483). -/
structure State.Bounded (s : State) : Prop where
  sessions : s.sess.length ≤ 32
  subscriptions : s.subs.length ≤ 64
  issued : s.sids.length ≤ 1024

end Sys2Proof.Machine
end

