-- ==== Sys2Proof/Certificates/Slice0/Obligations.lean ====
section
/-! DEFINITION. The statements for the provers. -/

open Sys2Proof Sys2Proof.Machine

/-! ### The block -/

/-- A step takes the command at the front of the queue and is `exec` of it, with the queue's rest.
On an empty queue a step is a nanosecond of idling and nothing else (the model's choice: log entry 1). -/
def Obligations.StepRunsFrontCommand : Prop :=
  (∀ (s : State) (c : Instr) (r : List Instr), s.pending = c :: r → step s = exec c { s with pending := r }) ∧
  (∀ s : State, s.pending = [] → step s = .next { s with now := s.now + 1 })

/-- Every command answers a next state in every state: nothing faults and nothing is refused. One whose operands name a unit that the module does
not have is answered as a WRITE, or changes nothing (R2 to R4, R49; that an event on an absent unit changes nothing is the model's choice, log entry 2). -/
def Obligations.CommandsOnUnitsComplete : Prop :=
  ∀ (c : Instr) (s : State),
    Completes (exec c s) ∧ (c.wf = false → (∃ p f, exec c s = exec (.write p f) s) ∨ exec c s = .next s)

/-! ### Requests of the Geind dictionary -/

/-- A READ of an open session (R26): the response repeats the item with its status and octets, and a peek changes no object (R15).
A READ with CONSUME (R16): the response carries the value, and the object reads 0 afterwards; no other object changes.
A request with DESC set (R31): each item returns its descriptor. -/
def Obligations.ReadIsAnswered : Prop :=
  (∀ (s : State) (p : Port) (f : Frame) (c : Sess) (it : Item) (st : Nat) (data : List Byte),
     s.Admits p f c → f.op = 1 → f.flags.testBit 5 = false → f.flags.testBit 6 = false → f.items = [it] →
     (s.forRequest c f).readItem (c.asking s.now f.seq) it true .one false = (st, data) → data.length ≤ 512 → st ≠ stNotApplied →
     Answers (.read p f) s fun t =>
       (∃ rsp, t.Sent p rsp ∧ rsp.seq = f.seq ∧ rsp.status = st ∧ rsp.items = [answerItem it st data]) ∧
         ∀ key, key ≠ oFramesIn → key ≠ oLevelDenials → t.nat key = s.nat key) ∧
  (∀ (s : State) (p : Port) (f : Frame) (c : Sess) (it : Item) (data : List Byte),
     s.Admits p f c → f.op = 1 → f.flags.testBit 5 = false → f.flags.testBit 6 = true → f.items = [it] →
     (s.forRequest c f).readItem (c.asking s.now f.seq) it false .one false = (0, data) → data.length ≤ 512 →
     Answers (.consumeRead p f) s fun t =>
       (∃ rsp, t.Sent p rsp ∧ rsp.seq = f.seq ∧ rsp.status = 0 ∧ rsp.items = [answerItem it 0 data]) ∧
         t.nat (it.idx * 256 + it.sub) = 0 ∧
         ∀ key, key ≠ oFramesIn → key ≠ it.idx * 256 + it.sub → t.nat key = s.nat key) ∧
  (∀ (s : State) (p : Port) (f : Frame) (c : Sess) (it : Item) (r : ObjRow),
     s.Admits p f c → f.op = 1 → f.flags.testBit 5 = true → f.flags.testBit 6 = false → f.items = [it] →
     (s.forRequest c f).gate (c.asking s.now f.seq) it.idx it.sub = 0 → objRow (it.idx * 256 + it.sub) = some r →
     (it.ty = 0xF ∨ it.ty = r.ty) → it.seg = 0 →
     Answers (.descriptorRead p f) s fun t =>
       (∃ rsp, t.Sent p rsp ∧ rsp.seq = f.seq ∧ rsp.status = 0 ∧
         rsp.items = [answerItem it 0 (descriptor r (it.idx * 256 + it.sub))]) ∧
         ∀ key, key ≠ oFramesIn → t.nat key = s.nat key)

/-- A READ-MULTI of 1 to 64 items (R27): every item is read in the one state, and the response carries the sample time.
With CONSUME set (R16): each object whose value was returned reads 0 afterwards.
With DESC set (R31): each item returns its descriptor; a response that is too long for a frame is TOO-LARGE instead (R25). -/
def Obligations.ReadMultiIsAnswered : Prop :=
  (∀ (s : State) (p : Port) (f : Frame) (c : Sess),
    s.Admits p f c → f.op = 3 → f.flags.testBit 5 = false → f.flags.testBit 6 = false → f.items.length ≤ 64 →
    (∀ it ∈ f.items, ((s.forRequest c f).readItem (c.asking s.now f.seq) it true .multi true).2.length ≤ 8) →
    Answers (.readMulti p f) s fun t =>
      (∃ rsp, t.Sent p rsp ∧ rsp.seq = f.seq ∧ rsp.time = s.mtime ∧
        rsp.items = f.items.map fun it =>
          let v := (s.forRequest c f).readItem (c.asking s.now f.seq) it true .multi true
          answerItem it v.1 v.2) ∧
        ∀ key, key ≠ oFramesIn → key ≠ oLevelDenials → t.nat key = s.nat key) ∧
  (∀ (s : State) (p : Port) (f : Frame) (c : Sess),
    s.Admits p f c → f.op = 3 → f.flags.testBit 5 = false → f.flags.testBit 6 = true → f.items.length ≤ 64 →
    let r := ((s.forRequest c f).readItems (c.asking s.now f.seq) f).2
    (∀ v ∈ r, v.2.length ≤ 8) →
    Answers (.consumeRead p f) s fun t =>
      (∃ rsp, t.Sent p rsp ∧ rsp.seq = f.seq ∧ rsp.time = s.mtime ∧ rsp.items = (f.items.zip r).map fun e => answerItem e.1 e.2.1 e.2.2) ∧
        (∀ e ∈ f.items.zip r, e.2.1 = 0 → e.1.idx * 256 + e.1.sub ≠ oLevelDenials → t.nat (e.1.idx * 256 + e.1.sub) = 0) ∧
        ∀ key, key ≠ oFramesIn → key ≠ oLevelDenials → (∀ it ∈ f.items, it.idx * 256 + it.sub ≠ key) → t.nat key = s.nat key) ∧
  (∀ (s : State) (p : Port) (f : Frame) (c : Sess),
    s.Admits p f c → f.op = 3 → f.flags.testBit 5 = true → f.flags.testBit 6 = false → f.items.length ≤ 64 →
    let v := fun it => (s.forRequest c f).readItem (c.asking s.now f.seq) it true .desc true
    let whole := response f (firstBad (f.items.map fun it => (v it).1)) (f.items.map fun it => answerItem it (v it).1 (v it).2)
    Answers (.descriptorRead p f) s fun t =>
      (∃ rsp, t.Sent p rsp ∧ rsp.seq = f.seq ∧
        (tooLong (c.asking s.now f.seq) { whole with time := s.mtime } = false → rsp.status = whole.status ∧ rsp.items = whole.items) ∧
        (tooLong (c.asking s.now f.seq) { whole with time := s.mtime } = true → rsp.status = stTooLarge ∧ rsp.items = [])) ∧
        ∀ key, key ≠ oFramesIn → key ≠ oLevelDenials → t.nat key = s.nat key)

/-- What one item of a READ answers (R26, R482): the first check that fails, or the object's value.
An octet string or text is read in segments of 512 octets: one past its end is RANGE, and a segment other than the first is CHANGED where the object
has changed since the session read segment 0 (R26). -/
def Obligations.ReadItemValue : Prop :=
  (∀ (s : State) (c : Sess) (it : Item) (r : ObjRow),
    objRow (it.idx * 256 + it.sub) = some r → inSegments r = false → textOf (it.idx * 256 + it.sub) = none →
    let st := (s.readItem c it true .one false).1
    (s.gate c it.idx it.sub ≠ 0 → st = s.gate c it.idx it.sub) ∧
      (s.gate c it.idx it.sub = 0 → r.acc = 2 → st = stAccess) ∧
      (s.gate c it.idx it.sub = 0 → r.acc ≠ 2 → it.ty ≠ 0xF → it.ty ≠ r.ty → st = stType) ∧
      (s.gate c it.idx it.sub = 0 → r.acc ≠ 2 → (it.ty = 0xF ∨ it.ty = r.ty) → it.seg ≠ 0 → st = stRange) ∧
      (s.gate c it.idx it.sub = 0 → r.acc ≠ 2 → (it.ty = 0xF ∨ it.ty = r.ty) → it.seg = 0 →
        (s.valueFor c r (it.idx * 256 + it.sub) = none ∨ s.unitOff r (it.idx * 256 + it.sub) = true → st = stUnavailable) ∧
        ∀ v, s.valueFor c r (it.idx * 256 + it.sub) = some v → s.unitOff r (it.idx * 256 + it.sub) = false →
          s.readItem c it true .one false = (0, leBytes r.size v))) ∧
  (∀ (s : State) (c : Sess) (it : Item) (r : ObjRow) (l : List Byte),
    let key := it.idx * 256 + it.sub
    objRow key = some r → inSegments r = true → s.gate c it.idx it.sub = 0 → r.acc ≠ 2 → (it.ty = 0xF ∨ it.ty = r.ty) →
    s.valueBytes c r key = some l → s.unitOff r key = false →
    (it.seg ≠ 0 → l.length ≤ 512 * it.seg → s.readItem c it true .one false = (stRange, [])) ∧
      (it.seg ≠ 0 → 512 * it.seg < l.length → (∃ e ∈ c.seg0, e.1 = key ∧ e.2 ≠ Tbl.get 0 s.vers key) →
        s.readItem c it true .one false = (stChanged, [])) ∧
      ((it.seg = 0 ∨ (512 * it.seg < l.length ∧ ∀ e ∈ c.seg0, e.1 = key → e.2 = Tbl.get 0 s.vers key)) →
        s.readItem c it true .one false = (0, (l.drop (512 * it.seg)).take 512)))

/-- A WRITE whose every item's status is OK and which names only objects without behaviour of their own (R28, R29): every object holds the value of
the last item that names it, and the response is OK, at once or once flash holds it (R20).
F_WRITE_DURABLE (R20): the oldest WRITE that waited for flash is answered, and counted in FLASH_WRITES. -/
def Obligations.WriteApplies : Prop :=
  (∀ (s : State) (p : Port) (f : Frame) (c : Sess),
     s.Admits p f c → f.op = 2 → f.items.length ≤ 64 → (∀ it ∈ f.items, plainObject (it.idx * 256 + it.sub)) →
     (∀ st ∈ (s.forRequest c f).itemStatuses (c.asking s.now f.seq) p f.items, st = 0) →
     Answers (.write p f) s fun t =>
       (t.Replies p f.seq fun rsp => rsp.status = 0 ∧ rsp.items = f.items.map fun it => answerItem it 0 []) ∧
         ∀ key, key ≠ oFramesIn → t.nat key = s.postOf f.items key) ∧
  (∀ (s : State) (r : FlashRec) (rest : List FlashRec), s.flash = r :: rest →
     Answers .fWriteDurable s fun t => t.Sent r.port r.rsp ∧ t.flash = rest ∧ t.ctr oFlashWrites = min (s.ctr oFlashWrites + 1) (2 ^ 64 - 1))

/-- A WRITE one of whose items fails (R28, R482): nothing is applied; the frame STATUS is that of the first item that failed, and the items that
passed read NOT-APPLIED. -/
def Obligations.WriteIsAllOrNothing : Prop :=
  ∀ (s : State) (p : Port) (f : Frame) (c : Sess),
    s.Admits p f c → f.op = 2 → f.items.length ≤ 64 →
    (∀ it ∈ f.items, it.idx * 256 + it.sub ≠ oSessionProof ∧ it.idx * 256 + it.sub ≠ oSvcToken) →
    let sts := (s.forRequest c f).itemStatuses (c.asking s.now f.seq) p f.items
    (∃ st ∈ sts, st ≠ 0) →
    Answers (.write p f) s fun t =>
      (∃ rsp, t.Sent p rsp ∧ rsp.seq = f.seq ∧ rsp.status = firstBad sts ∧
        rsp.items = (f.items.zip sts).map fun e => answerItem e.1 (if e.2 = 0 then stNotApplied else e.2) []) ∧
        ∀ key, key ≠ oFramesIn → key ≠ oLevelDenials → t.nat key = s.nat key

/-! ### Sessions -/

/-- SESSION_OPEN by a sessionless WRITE whose value passes R483's checks: a session of the level asked for on that port, pending where the
transport does not grant the level; the response gives its SESSION and the device nonce (R38, R39).
A new SESSION is neither 0, nor an open session's, nor one of the last 1,024 issued (R483). -/
def Obligations.SessionOpens : Prop :=
  (∀ (s : State) (w : Who) (v : List Byte),
     s.hears w.port = true → w.sess = 0 → w.tag = none → v.length = 32 → (∀ d ∈ s.sess, d.id ≠ 0) →
     (isVf w.port = true → s.received.nat oMbxVfEnable ≠ 0) → (w.port.tr = .mbx → s.mbxFree w.port.fn = true) →
     s.received.openStatus w.port v = 0 →
     Answers (.sessionOpen w v) s fun t =>
       ∃ c, t.sess = s.expire.sess ++ [c] ∧ c.level = (v.getD 0 0).toNat ∧ c.port = w.port ∧ c.opened = s.now ∧
         c.cnonce = (v.drop 16).take 16 ∧ (c.pending = true ↔ portLevel w.port < c.level) ∧
         ∃ rsp, t.Sent w.port rsp ∧ rsp.status = 0 ∧
           rsp.items.map (fun it => it.data) = [leBytes 4 c.id ++ List.replicate 12 0 ++ c.dnonce]) ∧
  (∀ s : State, s.sess.length ≤ 32 → s.sids.length ≤ 1024 →
     s.drawSid ≠ 0 ∧ (∀ c ∈ s.sess, c.id ≠ s.drawSid) ∧ s.drawSid ∉ s.sids)

/-- SESSION_PROOF (R39): a right proof makes the session proven, and an L3 session still awaits its token; a wrong one discards the session. -/
def Obligations.SessionProofJudged : Prop :=
  (∀ (s : State) (w : Who) (v : List Byte) (c : Sess), s.Takes w oSessionProof v c →
    Answers (.sessionProof w v) s fun t =>
      t.Accepted w ∧ ∃ d ∈ t.sess, d.id = c.id ∧ d.proven = true ∧ (d.pending = true ↔ c.level = 3)) ∧
  ∀ (s : State) (w : Who) (v : List Byte) (c : Sess), s.Admits w.port (writeOf w oSessionProof v) c →
    c.pending = true → c.proven = false → (c.level = 3 → c.port.tr = .eth) → v.length = 32 →
    (v ≠ proofOf c ∨ c.key = [] ∨ scopeOk c = false) →
    Answers (.sessionProof w v) s fun t =>
      (∀ d ∈ t.sess, d.id ≠ c.id) ∧ ∃ rsp, t.Sent w.port rsp ∧ rsp.seq = w.seq ∧ rsp.status = stLevel

/-- SVC_TOKEN of a pending L3 session (R429): a token that verifies opens the session for DURATION, any other is counted in L3_DENIALS and ends it.
SVC_ENABLE (R429): false ends every L3 session. SESSION_CLOSE (R52): the session is gone with its subscriptions.
RESTORE (R51): every object that it writes takes its default with the effect of a WRITE, or the first object that cannot be written gives the status
and nothing changes. -/
def Obligations.SessionWrites : Prop :=
  (∀ (s : State) (w : Who) (v : List Byte) (c : Sess),
     let u := s.forRequest c (writeOf w oSvcToken v)
     let d := c.asking s.now w.seq
     s.Admits w.port (writeOf w oSvcToken v) c → c.pending = true → c.level = 3 → v.length = 128 →
     Answers (.svcToken w v) s fun t =>
       (u.tokenGood d v = true →
         t.Accepted w ∧ ∃ e ∈ t.sess, e.id = c.id ∧ e.pending = false ∧ e.tokenEnd = some (s.now + 1000000000 * leNat ((v.drop 4).take 4))) ∧
       (u.tokenGood d v = false →
         (∀ e ∈ t.sess, e.id ≠ c.id) ∧ t.ctr oL3Denials = min (s.ctr oL3Denials + 1) (2 ^ 32 - 1) ∧
           ∃ rsp, t.Sent w.port rsp ∧ rsp.seq = w.seq ∧ rsp.status = stLevel)) ∧
  (∀ (s : State) (w : Who) (v : Nat) (c : Sess), s.Takes w oSvcEnable (leBytes 1 v) c →
     Answers (.svcEnable w v) s fun t =>
       t.Accepted w ∧ t.nat oSvcEnable = v % 256 ∧ (v % 256 = 0 → ∀ d ∈ t.sess, d.level ≠ 3)) ∧
  (∀ (s : State) (w : Who) (v : Nat) (c : Sess), s.Takes w oSessionClose (leBytes 1 v) c →
     Answers (.sessionClose w v) s fun t =>
       t.Accepted w ∧ (∀ d ∈ t.sess, d.id ≠ c.id) ∧ ∀ x ∈ t.subs, x.sess ≠ c.id) ∧
  (∀ (s : State) (w : Who) (v : Nat) (c : Sess),
     let f := writeOf w oRestore (leBytes 1 v)
     let u := s.forRequest c f
     let d := c.asking s.now w.seq
     let st := u.restoreStatus d w.port
     s.Admits w.port f c → (∀ it ∈ f.items, u.writeStatus d w.port (u.postOf f.items) it = 0) →
     Answers (.restore w v) s fun t =>
       (st = 0 → t.Accepted w ∧ (u.applyItems d w.port f.items).1.RepliedFrom t ∧
         (u.applyItems d w.port f.items).1.obj = (u.restoreAll d).obj) ∧
       (st ≠ 0 → (∃ rsp, t.Sent w.port rsp ∧ rsp.seq = w.seq ∧ rsp.status = st) ∧ ∀ key, key ≠ oLevelDenials → t.nat key = u.nat key))

/-- The timers of sessions (R36, R41, R429): the session is discarded with its subscriptions, and no other; a credential slot's lock ends. -/
def Obligations.SessionTimers : Prop :=
  (∀ (s : State) (id : Nat) (c : Sess), (s.sess.find? fun c => c.id = id) = some c →
    Answers (.sessionIdleTimeout id) s fun t =>
      t.now = max s.now (c.lastUse + s.nat oSessionIdle) ∧ t.sess = (s.sess.filter fun d => d.id ≠ id) ∧
        t.subs = s.subs.filter fun x => x.sess ≠ id) ∧
  (∀ (s : State) (id : Nat) (c : Sess), (s.sess.find? fun c => c.id = id && c.pending) = some c →
    Answers (.pendingSessionTimeout id) s fun t =>
      t.now = max s.now (c.opened + 5000000000) ∧ t.sess = (s.sess.filter fun d => d.id ≠ id) ∧
        t.subs = s.subs.filter fun x => x.sess ≠ id) ∧
  (∀ (s : State) (id e : Nat) (c : Sess), (s.sess.find? fun c => c.id = id) = some c → c.tokenEnd = some e →
    Answers (.l3SessionExpire id) s fun t =>
      t.now = max s.now e ∧ t.sess = (s.sess.filter fun d => d.id ≠ id) ∧ t.subs = s.subs.filter fun x => x.sess ≠ id) ∧
  ∀ (s : State) (slot : Nat), Tbl.get 0 s.locks slot ≠ 0 →
    Answers (.credSlotUnlock slot) s fun t =>
      t.slotLocked slot = false ∧ t.now = max s.now (Tbl.get 0 s.locks slot) ∧
        ∀ x, x ≠ slot → Tbl.get 0 t.locks x = Tbl.get 0 s.locks x

/-! ### Subscriptions and mailboxes -/

/-- SUBSCRIBE (R32, R33, R35): a subscription of the session's, of the request's items or of a plan's; the test access port has none (R43); LIMIT
where 64 are open, RANGE below the least period, and the status of the first item that fails (that a MODE above 1 and a PLAN of 16 to 254 are RANGE is the
model's choice: log entry 55).
Its CANCEL (R32): the subscription is gone; none goes where the session holds no such SUBID.
Notifications (R34, R47): at the end of the period, and on-change only where a value differs from the last notified; none once the session's time is
over (R36). That one which cannot be delivered is counted as dropped is the model's reading (log entry 55). -/
def Obligations.SubscriptionsNotify : Prop :=
  (∀ (s : State) (p : Port) (f : Frame) (c : Sess) (h : SubHdr) (least : Nat),
     let u := s.forRequest c f
     let named := if h.plan = 0xFF then f.items else (u.planItems h.plan).map sampleItem
     let period := if h.plan ≠ 0xFF ∧ h.period = 0 then u.nat ((0x1840 + h.plan) * 256 + 1) else h.period
     s.Admits p f c → f.op = 4 → f.hdr = some h → f.flags.testBit 4 = false → f.items.length ≤ 64 →
     leastPeriod p = some least → u.subs.length < 64 → h.mode ≤ 1 → (h.plan = 0xFF ∨ h.plan ≤ 15) → least ≤ period →
     (∀ it ∈ named, u.subStatus (c.asking s.now f.seq) (decide (h.mode = 1)) it = 0) →
     Answers (.subscribe p f) s fun t =>
       ∃ x, t.subs = u.subs ++ [x] ∧ x.sess = c.id ∧ x.period = period ∧ x.onChange = decide (h.mode = 1) ∧
         x.items = (named.map fun it => (it.idx, it.sub)) ∧ x.dropped = 0 ∧ x.lastTime = s.now ∧ (∀ y ∈ u.subs, y.id ≠ x.id) ∧
         ∃ rsp, t.Sent p rsp ∧ rsp.seq = f.seq ∧ rsp.status = 0 ∧ rsp.hdr = some { h with subid := x.id }) ∧
  (∀ (s : State) (p : Port) (f : Frame) (c : Sess) (h : SubHdr) (least : Nat),
     let u := s.forRequest c f
     let named := if h.plan = 0xFF then f.items else (u.planItems h.plan).map sampleItem
     let period := if h.plan ≠ 0xFF ∧ h.period = 0 then u.nat ((0x1840 + h.plan) * 256 + 1) else h.period
     let sts := named.map fun it => u.subStatus (c.asking s.now f.seq) (decide (h.mode = 1)) it
     let fails := fun (st : Nat) => Answers (.subscribe p f) s fun t =>
       t.subs = u.subs ∧ ∃ rsp, t.Sent p rsp ∧ rsp.seq = f.seq ∧ rsp.status = st
     s.Admits p f c → f.op = 4 → f.hdr = some h → f.flags.testBit 4 = false → f.items.length ≤ 64 → leastPeriod p = some least →
     (64 ≤ u.subs.length → fails stLimit) ∧
     (u.subs.length < 64 → (1 < h.mode ∨ (h.plan ≠ 0xFF ∧ 15 < h.plan) ∨ period < least) → fails stRange) ∧
     (u.subs.length < 64 → h.mode ≤ 1 → (h.plan = 0xFF ∨ h.plan ≤ 15) → least ≤ period → firstBad sts ≠ 0 → fails (firstBad sts))) ∧
  (∀ (s : State) (p : Port) (f : Frame) (c : Sess) (h : SubHdr),
     s.Admits p f c → f.op = 4 → f.hdr = some h → f.items.length ≤ 64 → leastPeriod p = none →
     (f.flags.testBit 4 = false → Answers (.subscribe p f) s fun t =>
       t.subs = (s.forRequest c f).subs ∧ ∃ rsp, t.Sent p rsp ∧ rsp.seq = f.seq ∧ rsp.status = stAccess) ∧
     (f.flags.testBit 4 = true → Answers (.subscribeCancel p f) s fun t =>
       t.subs = (s.forRequest c f).subs ∧ ∃ rsp, t.Sent p rsp ∧ rsp.seq = f.seq ∧ rsp.status = stAccess)) ∧
  (∀ (s : State) (p : Port) (f : Frame) (c : Sess) (h : SubHdr) (least : Nat),
     s.Admits p f c → f.op = 4 → f.hdr = some h → f.flags.testBit 4 = true → leastPeriod p = some least →
     Answers (.subscribeCancel p f) s fun t =>
       t.subs = ((s.forRequest c f).subs.filter fun x => !(x.id = h.subid && x.sess = c.id)) ∧
         ∃ rsp, t.Sent p rsp ∧ rsp.seq = f.seq ∧ ((∃ x ∈ (s.forRequest c f).subs, x.id = h.subid ∧ x.sess = c.id) → rsp.status = 0)) ∧
  (∀ (s : State) (id : Nat) (x : Sub) (c : Sess), s.subOf id = some (x, c) → x.onChange = false → s.ctlReady = true →
     let u := (s.atTime (x.lastTime + x.period)).expire
     Answers (.notifyPeriodic id) s fun t =>
       t.now = max s.now (x.lastTime + x.period) ∧ ((u.subOf id).isSome = true → u.Notified t x c) ∧ ((u.subOf id).isSome = false → t = u)) ∧
  (∀ (s : State) (id : Nat) (x : Sub) (c : Sess), s.subOf id = some (x, c) → x.onChange = true → s.ctlReady = true →
     let u := (s.atTime (x.lastTime + x.period)).expire
     let differs := (u.sampleAll c x.items).map sampled ≠ x.lastVals
     Answers (.notifyOnChange id) s fun t =>
       ((u.subOf id).isSome = true → differs → u.Notified t x c) ∧ ((u.subOf id).isSome = false ∨ ¬ differs → t = u))

/-- The mailbox registers (R45 to R47): a doorbell on a free mailbox takes the request, any other is an overrun; the submitted frame is served, and its
response laid in MBX_RSP and marked ready, while one that waits for flash keeps the mailbox busy; an acknowledgement clears ready and overrun; a write of the notification
tail frees the slots before it; a write into the request page changes those octets only, and the registers' own offsets are their commands. What the
driver reads of MBX_STATUS, MBX_RSP and the write-only request page. -/
def Obligations.MailboxRegisters : Prop :=
  (∀ (s : State) (fn len : Nat), isFn fn = true → s.portReady (fn / 16) = true → s.ctlReady = true →
    Answers (.mbxDoorbell fn len) s fun t =>
      ((s.mbxOf fn).busy = true ∨ (s.mbxOf fn).ready = true → t.mbxOf fn = { s.mbxOf fn with overrun := true }) ∧
      ((s.mbxOf fn).busy = false → (s.mbxOf fn).ready = false →
        (t.mbxOf fn).busy = true ∧ (t.mbxOf fn).len = len ∧ (t.mbxOf fn).req = (s.mbxOf fn).req ∧
          (len ≤ 1232 → (t.mbxOf fn).frame = (List.range len).map fun i => Tbl.get 0 (s.mbxOf fn).req i)) ∧
      ∀ g, g ≠ fn → t.mbxOf g = s.mbxOf g) ∧
  (∀ (s u : State) (fn : Nat) (o : Option Frame), isFn fn = true → (s.mbxOf fn).busy = true → s.mbxWaits fn = false →
    s.serveFrame (mbxPort fn) { frameFrom (s.mbxOf fn).frame with size := (s.mbxOf fn).len } = (u, o) →
    Answers (.mbxResponse fn) s fun t =>
      (∀ rsp, o = some rsp → u.portReady (fn / 16) = true →
        (t.mbxOf fn).busy = false ∧ (t.mbxOf fn).ready = true ∧ (t.mbxOf fn).rsp = frameBytes rsp) ∧
      (o = none → u.mbxWaits fn = true → t = u) ∧
      (o = none → u.mbxWaits fn = false → t.mbxOf fn = { u.mbxOf fn with busy := false })) ∧
  (∀ (s : State) (fn v : Nat), isFn fn = true → s.portReady (fn / 16) = true →
    Answers (.mbxRspAck fn v) s fun t =>
      t.mbxOf fn = { s.mbxOf fn with ready := false, overrun := false } ∧ ∀ g, g ≠ fn → t.mbxOf g = s.mbxOf g) ∧
  (∀ (s : State) (fn v : Nat), isFn fn = true → s.portReady (fn / 16) = true → v ≤ 2 →
    Answers (.mbxNtfTail fn v) s fun t =>
      t.mbxOf fn = { s.mbxOf fn with tail := v, unread := ((s.mbxOf fn).head + 3 - v) % 3 } ∧ ∀ g, g ≠ fn → t.mbxOf g = s.mbxOf g) ∧
  (∀ (s : State) (fn off : Nat) (data : List Byte), isFn fn = true → s.portReady (fn / 16) = true →
    (off + data.length ≤ 1232 → Answers (.registerWrite fn 0 off data) s fun t =>
      (∀ i (h : i < data.length), Tbl.get 0 (t.mbxOf fn).req (off + i) = data[i]) ∧
        ∀ a, (a < off ∨ off + data.length ≤ a) → Tbl.get 0 (t.mbxOf fn).req a = Tbl.get 0 (s.mbxOf fn).req a) ∧
    (data.length = 4 → exec (.registerWrite fn 0 0x0FF8 data) s = exec (.mbxDoorbell fn (leNat data)) s ∧
      exec (.registerWrite fn 0 0x1FF8 data) s = exec (.mbxRspAck fn (leNat data)) s ∧
      exec (.registerWrite fn 0 0x2FFC data) s = exec (.mbxNtfTail fn (leNat data)) s)) ∧
  (∀ (s : State) (fn : Nat), s.portReady (fn / 16) = true →
    let m := s.mbxOf fn
    s.bar0Read fn 0x0FFC 4 = some (leBytes 4 ((if m.busy then 1 else 0) + (if m.ready then 2 else 0) + (if m.overrun then 4 else 0))) ∧
      (m.rsp.length ≤ 1232 → s.bar0Read fn 0x1000 m.rsp.length = some m.rsp) ∧
      ∀ n, n ≤ 0x0FFC → s.bar0Read fn 0 n = some (List.replicate n 0))

/-! ### Stationary arrays -/

/-- Clock gating and admitted starts (R117, R344): an idle array is gated and reads CLOCK-GATED; the lowest-numbered waiting start of a die is
admitted, and a window of 10 ns admits at most six.
An array's oldest vector leaves it (R92, R146, R148): its entry, token and LAST enter the queue where the cycle and the source of its push place them,
and its reserved slot is no more. -/
def Obligations.ArraysStartAndPush : Prop :=
  ((∀ (s : State) (a : Nat), isArray a = true → (s.array a).gated = false → (s.array a).starting = false → (s.array a).vecs = [] →
     s.ctr (oArrayState a) = 0 →
     Answers (.arrayClockGate a) s fun t =>
       (t.array a).gated = true ∧ t.ctr (oArrayState a) = 1 ∧ ∀ b, b ≠ a → t.array b = s.array b) ∧
   ∀ (s : State) (a : Nat), isArray a = true → (s.array a).starting = true →
     (∀ j, j < a % 48 → (s.array (48 * (a / 48) + j)).starting = false) → (Tbl.get (0, 0) s.ramp (a / 48)).2 ≤ 6 →
     Answers (.arrayStartAdmitted a) s fun t =>
       (t.array a).starting = false ∧ (t.array a).gated = false ∧ 1 ≤ (Tbl.get (0, 0) t.ramp (a / 48)).2 ∧
         (Tbl.get (0, 0) t.ramp (a / 48)).2 ≤ 6 ∧ (t.seq (a / 4)).accept = (s.seq (a / 4)).cycle + 2 ∧ ∀ b, b ≠ a → t.array b = s.array b) ∧
  (∀ (s : State) (a : Nat) (v : Vec) (rest : List Vec), isArray a = true → (s.array a).vecs = v :: rest → s.tileLate (a / 4) = false →
     let e : Entry := { data := vecEntry (s.array a).ops v s.free, token := v.token, last := v.last, at_ := v.cycle + 70, src := a % 4 }
     Answers (.arrayEntryPush a) s fun t =>
       (t.array a).vecs = rest ∧ (t.queue (a / 4) v.queue).entries = (s.queue (a / 4) v.queue).put e ∧
         ((∀ y ∈ (s.queue (a / 4) v.queue).entries, y.after e = false) →
           (t.queue (a / 4) v.queue).entries = (s.queue (a / 4) v.queue).entries ++ [e]) ∧
         (t.queue (a / 4) v.queue).reserved = (s.queue (a / 4) v.queue).reserved - 1 ∧
         ∀ q, q ≠ v.queue → t.queue (a / 4) q = s.queue (a / 4) q)

/-- A parity error met by the oldest vector (R118, R119): its cell is recorded, it is counted, the shard gets ARRAY-PARITY, and the array's error
site takes the event.
Repairs of arrays (R121, R124): a requested skip is queued or refused with its reason; a repair that is over has put its row or column into the
soft skips and leaves the array STALE, and its core pulls shards again once no other of its arrays is REPAIRING. -/
def Obligations.ArrayParityAndRepairs : Prop :=
  (∀ (s : State) (a prow pcol r c : Nat) (v : Vec) (rest : List Vec) (h : Shard),
     isArray a = true → isRank prow = true → isRank pcol = true → (s.array a).vecs = v :: rest →
     s.logicalOf false a prow = some r → s.logicalOf true a pcol = some c → r < v.rows → vecColumn (s.array a).ops v c = true →
     (s.core (a / 4)).shard = some h → h.code = 0 →
     Answers (.arrayParityError a prow pcol) s fun t =>
       ∃ u : State, t = u.report (a / 48) (a % 48) .parity ∧ (u.array a).fault = some (prow, pcol) ∧ (u.array a).vecs = rest ∧
         u.ctr (oParityErrors a) = min (s.ctr (oParityErrors a) + 1) (2 ^ 32 - 1) ∧
         u.ctr oArrayParityTotal = min (s.ctr oArrayParityTotal + 1) (2 ^ 64 - 1) ∧
         (u.core (a / 4)).shard = some { h with code := cArrayParity }) ∧
  (∀ (s : State) (w : Who) (v : Nat) (c : Sess), s.Takes w oRepairRequest (leBytes 4 v) c → v < 2 ^ 32 →
     Answers (.repairRequest w v) s fun t =>
       t.Replies w.port w.seq fun f => f.status = 0 ∧
         f.items.map (fun it => it.data) = [leBytes 4 ((s.forRequest c (writeOf w oRepairRequest (leBytes 4 v))).repairRequest v).2]) ∧
  (∀ (s : State) (v : Nat),
     let a := bits 31 23 v
     let taken := s.skipped (v.testBit 22) a ++ ((s.array a).wants.filter fun x => x.1 = v.testBit 22).map fun x => x.2
     (s.ctr (oCoreState (a / 4)) = 2 → s.repairRequest v = (s, 3)) ∧
       (s.ctr (oCoreState (a / 4)) ≠ 2 → bits 21 16 v ∈ taken → s.repairRequest v = (s, 2)) ∧
       (s.ctr (oCoreState (a / 4)) ≠ 2 → bits 21 16 v ∉ taken → 2 ≤ taken.length → s.repairRequest v = (s, 1)) ∧
       (s.ctr (oCoreState (a / 4)) ≠ 2 → bits 21 16 v ∉ taken → taken.length < 2 →
         (s.repairRequest v).2 = 0 ∧ ((s.repairRequest v).1.array a).wants = (s.array a).wants ++ [(v.testBit 22, bits 21 16 v)])) ∧
  (∀ (s : State) (a i : Nat) (col site : Bool), isArray a = true → s.ctr (oArrayState a) = 2 → (s.array a).spare = some (col, i, site) →
     Answers (.arrayRepairDone a) s fun t =>
       t.ctr (oArrayState a) = 3 ∧ t.softSkips col a = addSkip (s.softSkips col a) i ∧ (t.array a).spare = none ∧ (t.array a).fault = none ∧
         (t.array a).wants = (if site then (s.array a).wants else (s.array a).wants.drop 1) ∧
         ((t.core (a / 4)).repairing = true ↔ ∃ j, j < 4 ∧ j ≠ a % 4 ∧ s.ctr (oArrayState (4 * (a / 4) + j)) = 2))

/-! ### Sequencers -/

/-- PROGRAM_LOADED (R127): an image whose header and tables are in order makes its words, queues and generators the core's, and word ENTRY current.
The end of a control word (R129): its counter operation, then the comparators, then the branch, and the next word is current. -/
def Obligations.ProgramsLoadAndWordsComplete : Prop :=
  (∀ (s u v : State) (k head img : Nat) (h : Shard),
     isCore k = true → (s.core k).shard = some h → (s.seq k).loading = true → s.running k = true → s.seqState k = 1 →
     s.imageRead k h 64 = (u, .data head false) → headFault head = 0 →
     u.imageRead k h (832 + 32 * bits 31 16 head) = (v, .data img false) → tableFault img = 0 →
     Answers (.programLoaded k) s fun t =>
       (t.seq k).loaded = true ∧ (t.seq k).nwords = bits 31 16 head ∧ (t.seq k).pc = bits 47 32 img ∧
         (t.seq k).words = ((List.range (bits 31 16 head)).map fun i => (i, lane 256 (26 + i) img)) ∧
         ∀ q, q < 32 → t.qdesc k q = qdescOf (lane 64 (8 + q) img)) ∧
  (∀ (s : State) (k : Nat) (issued : Bool),
     let w := s.curWord k
     let q := s.seq k
     let ct := Tbl.modify 0 q.ct (bits 207 205 w) (counterOp w)
     let yes := comparator ct (Tbl.get 0 q.cmp (bits 194 193 w))
     let t := s.wordDone k issued
     (t.seq k).ct = ct ∧ (t.seq k).rep = 0 ∧ (t.seq k).serial = q.serial + 1 ∧
       (bits 196 195 w = 0 → (t.seq k).pc = q.pc + 1) ∧
       (bits 196 195 w = 1 → (t.seq k).pc = if yes then bits 192 182 w else q.pc + 1) ∧
       (bits 196 195 w = 2 → (t.seq k).pc = if yes then q.pc + 1 else bits 192 182 w) ∧
       (bits 196 195 w = 3 → (t.seq k).pc = bits 192 182 w) ∧ ∀ j, j ≠ k → t.seq j = s.seq j)

/-- A repeat of a STEP word (R128, R134): once it issues, the repeat counter and the cycle go on, and the last repeat ends the word; a word of no
repeats only ends.
What a repeat issues to an array it names (R92, R96, R104): the vector of its cycle, in order, with a slot reserved in its queue. -/
def Obligations.StepsRepeatVectors : Prop :=
  (∀ (s : State) (k n : Nat), isCore k = true → s.onClass k 0 = true →
     (s.seq k).count.getD (if (s.curWord k).testBit 239 then Tbl.get 0 (s.seq k).ct (bits 242 240 (s.curWord k))
       else bits 251 240 (s.curWord k) + 1) = n →
     (n = 0 → Answers (.stepRepeat k) s fun t => (t.seq k).serial = (s.seq k).serial + 1 ∧ t.arrays = s.arrays) ∧
     (0 < n → ∀ (u : State) (c : Nat) (got : List (Nat × Nat)),
       (s.setSeq k { s.seq k with count := some n }).drive k (s.curWord k) (decide ((s.seq k).rep = 0))
         (stepDrive (s.curWord k) (s.seq k).rep n (s.seq k).gens) = .issued u c got →
       Answers (.stepRepeat k) s fun t =>
         ((s.seq k).rep + 1 ≠ n → t = u.setSeq k { u.seq k with rep := (s.seq k).rep + 1 }) ∧
         ((s.seq k).rep + 1 = n → t = (u.setSeq k { u.seq k with rep := n }).wordDone k true) ∧ (t.arrays = u.arrays))) ∧
  (∀ (s : State) (k w n c a : Nat) (d : Drive) (got : List (Nat × Nat)) (em : Bool),
     d.vec = true → a < 4 → d.arrays.testBit a = true → d.loads = [] → d.cps = [] →
     let q := if d.toPs then d.psq + a else d.outq + a
     let t := s.driveGo k w d n c got em
     (∃ v, (t.array (4 * k + a)).vecs = (s.array (4 * k + a)).vecs ++ [v] ∧ v.cycle = c ∧ v.act = popped got d.actq ∧ v.n = n ∧
       v.queue = q ∧ v.toPs = d.toPs ∧ v.rows = d.rows) ∧
     (t.array (4 * k + a)).ops = (s.array (4 * k + a)).ops ++ (if d.swap then [.swap c] else []) ∧
     (t.queue k q).reserved = (s.queue k q).reserved + 1 ∧ (t.queue k q).entries = (s.queue k q).entries)

/-- TILE and the tile expander (R109, R136, R137): a tile in order is handed to the expander; a cycle that issues a vector leaves the expander at its
next place, and the last vector ends the word; a cycle whose vector must wait issues the row-loads that fit, or stalls. -/
def Obligations.TileRuns : Prop :=
  (∀ (s : State) (k : Nat), isCore k = true → s.onClass k 1 = true → (s.seq k).tile = none →
    let f := s.foldTile k (s.curWord k)
    f.n ≠ 0 →
    (∀ a ∈ f.named, s.pairOn k a (bits 87 84 (s.curWord k)) (bits 83 80 (s.curWord k)) (bits 75 74 (s.curWord k)) = f.n) →
    (f.single = false → ∀ a ∈ f.named, s.isData k (bits 49 45 (s.curWord k) + a) 512 = true) →
    Answers (.tile k) s fun t =>
      (t.seq k).tile = some { Tile.reset with word := s.curWord k, serial := (s.seq k).serial } ∧ t.arrays = s.arrays) ∧
  (∀ (s : State) (k : Nat) (p : Tile), isCore k = true → s.onClass k 1 = true → (s.seq k).tile = some p →
    let w := s.curWord k
    let f := s.foldTile k w
    let v := withVector f p (tileDrive w f p (s.seq k).gens)
    let d := withLoads f p (s.tileLoads k f p v) v
    f.finished p = false → s.tileReady k w f p = true →
    ((decide (p.sets < p.swapped) || (v.swap && decide (p.sets = f.setNo p))) && d.loads.isEmpty) = false →
    ∀ (u : State) (c : Nat) (got : List (Nat × Nat)), s.drive k w (!p.awaited.testBit 32) d = .issued u c got → s.sumsHeld k w f p = false →
      let p1 := { p with awaited := tileSeen p d.early got }
      let p2 := f.loadedMore (f.advance { p1 with swapped := max p.swapped (f.setNo p1 + 1) }) d.loads.length
      Answers (.tileExpanderIssue k) s fun t =>
        (f.finished p2 = false → t = u.setSeq k { u.seq k with tile := some p2 }) ∧
        (f.finished p2 = true → t = (u.setSeq k { u.seq k with tile := some p2 }).wordDone k true)) ∧
  (∀ (s : State) (k : Nat) (p : Tile), isCore k = true → s.onClass k 1 = true → (s.seq k).tile = some p →
    let w := s.curWord k
    let f := s.foldTile k w
    let d := tileDrive w f p (s.seq k).gens
    let alone := withLoads f p (s.tileLoads k f p d) d
    f.finished p = false → s.tileReady k w f p = false →
    (alone.loads = [] → Answers (.tileExpanderIssue k) s fun t => t = s.stallCycle k 0) ∧
    (alone.loads ≠ [] → ∀ (u : State) (c : Nat) (got : List (Nat × Nat)), s.drive k w (!p.awaited.testBit 32) alone = .issued u c got →
      Answers (.tileExpanderIssue k) s fun t =>
        t = u.setSeq k { u.seq k with tile := some (f.loadedMore { p with awaited := tileSeen p alone.early got } alone.loads.length) }))

/-- PARAM (R100, R101, R138): column scales and masks into the shadow parameters, an expansion table, or zero points.
AGEN, LOADCT, SETCMP and TANGENT (R139, R140, R383): the generator, counter, comparator or cluster that the word names takes what it gives.
SYNC and END (R141, R142, R331, R338): the core arrives at its instance or waits on its signal, and goes on when released; an addition joins those
that wait for earlier words, and END ends the program. -/
def Obligations.ControlWordsAct : Prop :=
  (∀ (s u : State) (k c : Nat) (got : List (Nat × Nat)), isCore k = true → s.onClass k 2 = true →
     let w := s.curWord k
     s.tryIssue k w true (paramNeed w) = .issued u c got →
     (bits 175 173 w = 0 → Answers (.paramColumn k) s fun t => ∀ a, a < 4 → (bits 172 169 w).testBit a = true →
       (t.array (4 * k + a)).ops = (u.array (4 * k + a)).ops ++
         [.param c (popped got (bits 168 164 w + a) % 2 ^ 512) (lane 32 16 (popped got (bits 168 164 w + a)))]) ∧
     (bits 175 173 w = 1 ∨ bits 175 173 w = 2 → Answers (.paramTable k) s fun t =>
       Tbl.get (0, 0, 0) t.tables (2 * k + (bits 175 173 w - 1)) =
         (bits 163 160 w, if w.testBit 159 then 1 else 0,
           popped got (bits 168 164 w) % 2 ^ (16 * if w.testBit 159 then 256 else 16))) ∧
     (bits 175 173 w = 3 → Answers (.paramZero k) s fun t => ∀ a, a < 4 → (bits 172 169 w).testBit a = true →
       (t.array (4 * k + a)).zeros = popped got (bits 168 164 w + a))) ∧
  (∀ (s u : State) (k c : Nat) (got : List (Nat × Nat)), isCore k = true →
     let w := s.curWord k
     s.tryIssue k w true Need.empty = .issued u c got →
     (s.onClass k 3 = true → ((s.seq k).streams.any fun e => e.1 = bits 175 173 w) = false → Answers (.agen k) s fun t =>
       Tbl.get Gen.reset (t.seq k).gens (bits 175 173 w) = agenWrite (Tbl.get Gen.reset (u.seq k).gens (bits 175 173 w)) w) ∧
     (s.onClass k 4 = true → bits 175 173 w = 0 → Answers (.loadct k) s fun t => ∀ j,
       Tbl.get 0 (t.seq k).ct j =
         (let x := if j = bits 172 170 w then bits 169 138 w else Tbl.get 0 (u.seq k).ct j
          if j = bits 207 205 w then counterOp w x else x)) ∧
     (s.onClass k 4 = true → bits 175 173 w = 1 → Answers (.setcmp k) s fun t =>
       Tbl.get 0 (t.seq k).cmp (bits 172 171 w) = w % 2 ^ 176 + 1) ∧
     (s.onClass k 4 = true → bits 175 173 w = 2 → Answers (.tangent k) s fun t =>
       t.clusters = (u.hint (k / 4) 4 (bits 172 169 w) (bits 168 161 w) (u.corePart k)).clusters)) ∧
  (∀ (s : State) (k : Nat), isCore k = true → (s.seq k).waiting = true →
     let w := s.curWord k
     (s.onClass k 5 = true → isSync w 0 = true → Answers (.syncChord k) s fun t =>
       t = if (s.seq k).released then (s.leaveChord (syncChordOf w) k).wordDone k true else s) ∧
     (s.onClass k 5 = true → isSync w 1 = true → Answers (.syncSigwait k) s fun t =>
       t = if (s.seq k).released then s.wordDone k true else s)) ∧
  (∀ (s u : State) (k c : Nat) (got : List (Nat × Nat)), isCore k = true →
     let w := s.curWord k
     let i := syncChordOf w
     let x := u.setSeq k { u.seq k with waiting := true, released := false }
     let ctx := ((s.core k).shard.getD Shard.reset).ctx
     s.tryIssue k w true Need.empty = .issued u c got →
     (s.onClass k 5 = true → isSync w 0 = true → (s.seq k).waiting = false →
       (s.ctr (oMembers i)).testBit k = true → s.objD 0xFF (oOwner i) = s.corePart k →
       s.ctr (oChordState i) ≠ 3 → (s.arrivalFor i k).isSome = true →
       let v := (x.arriveChord i k).getD x
       Answers (.syncChord k) s fun t => t = if (v.seq k).released then (v.leaveChord i k).wordDone k true else v) ∧
     (s.onClass k 5 = true → isSync w 1 = true → (s.seq k).waiting = false → s.sigPeer ctx (bits 167 112 w) = false →
       let v := x.watchFor (.seq k) ctx (bits 167 112 w) (bits 111 80 w)
       Answers (.syncSigwait k) s fun t =>
         t = (if (v.seq k).released then v.wordDone k true else v) ∧
           (x.sigReached ctx (bits 167 112 w) (bits 111 80 w) = false → (t.seq k).waiting = true ∧ ∃ y ∈ t.watch, y.who = .seq k)) ∧
     (s.onClass k 5 = true → isSync w 2 = true → Answers (.syncSigadd k) s fun t =>
       (t.seq k).sigs = (u.seq k).sigs ++ [⟨(u.seq k).serial, bits 167 112 w, bits 111 80 w⟩]) ∧
     (s.onClass k 15 = true → Answers (.endWord k) s fun t =>
       (t.seq k).ended = true ∧ (t.seq k).pc = (u.seq k).pc ∧ t.queue k = u.queue k))

/-! ### Movers, tokens and the debugger -/

/-- A LOAD mover (R158, R159): the run's bytes join the entry being packed; a full or last entry enters the queue when it has room, with the stream's
token, LAST on its last one.
A STORE mover (R158, R159): it pops the next entry of its queue once the one before is written out, and writes the next run; the acknowledgements that it awaits are
counted.
The ends of streams and of token emissions (R150, R157): the generator is free again; the token enters its queue in word order. -/
def Obligations.MoversMoveEntries : Prop :=
  (∀ (s s0 u : State) (k g b v : Nat) (st0 st : Stream) (h : Shard),
     isCore k = true → isGen g = true → s.stream k g = some st0 → (s.core k).shard = some h → s.movers k = true →
     let x := s.gen_ k g
     let width := (s.qdesc k x.dq).width
     x.store = false → st0.partEntry < width → st0.finished = false → s.streamBase k g st0 = (s0, .ok (some (st, b))) →
     x.addr b st.pos % 32 = 0 →
     s0.unitRead (.mover k g) (moverAccess h k g 0 (x.addr b st.pos)) x.run h.ring h.aseq = (u, .data v false) →
     let st1 := ({ st with
       stalled := false, partData := st.partData + v * 2 ^ (8 * st.partEntry), partEntry := st.partEntry + x.run } : Stream).ran x
     u.seqs = s0.seqs →
     Answers (.moverReadReturn k g) s fun t =>
       (st1.partEntry ≠ width → st1.finished = false → t.stream k g = some st1 ∧ t.queue k x.dq = s0.queue k x.dq) ∧
       ((st1.partEntry = width ∨ st1.finished = true) → (s0.queue k x.dq).occ < (s.qdesc k x.dq).depth →
         (∃ e : Entry, e.data = st1.partData ∧ e.token = st1.stamp.getD 0 ∧ e.last = st1.finished ∧ e.src = 4 + g ∧
           (t.queue k x.dq).entries = (s0.queue k x.dq).put e) ∧
           t.stream k g = some { st1 with partEntry := 0, partData := 0 }) ∧
       ((st1.partEntry = width ∨ st1.finished = true) → (s.qdesc k x.dq).depth ≤ (s0.queue k x.dq).occ →
         t.queue k x.dq = s0.queue k x.dq ∧ t.stream k g = some st1)) ∧
  (∀ (s s0 u : State) (k g b n : Nat) (st0 st : Stream) (h : Shard) (m : Bool),
     isCore k = true → isGen g = true → s.stream k g = some st0 → (s.core k).shard = some h → s.movers k = true →
     let x := s.gen_ k g
     let width := (s.qdesc k x.dq).width
     x.store = true → st0.finished = false → s.streamBase k g st0 = (s0, .ok (some (st, b))) → x.addr b st.pos % 32 = 0 →
     let q := s0.queue k x.dq
     (st.partEntry = 0 → q.entries ≠ []) →
     let data := if st.partEntry = 0 then (q.entries.headD Entry.reset).data else st.partData
     let left := if st.partEntry = 0 then width else st.partEntry
     (if st.partEntry = 0 then s0.setQueue k x.dq { q with entries := q.entries.drop 1 } else s0).unitWrite (.mover k g)
       (moverAccess h k g 1 (x.addr b st.pos)) x.run (data % 2 ^ (8 * x.run)) h.ring h.aseq = (u, .data n m) →
     let st1 := ({ st with
       stalled := false, acks := st.acks + n, partEntry := left - x.run, partData := data / 2 ^ (8 * x.run) } : Stream).ran x
     Answers (.storeMoverWrite k g) s fun t =>
       t.stream k g = some (if st1.finished then { st1 with partEntry := 0, partData := 0 } else st1) ∧ t.hbm = u.hbm ∧ t.host = u.host) ∧
  ((∀ (s : State) (k g : Nat) (st : Stream) (h : Shard), isCore k = true → isGen g = true → s.stream k g = some st →
     (s.core k).shard = some h → s.movers k = true → s.streamOver k g st h = true →
     Answers (.streamComplete k g) s fun t =>
       t.stream k g = none ∧ (t.seq k).queues = (s.seq k).queues ∧ ∀ j, j ≠ g → t.stream k j = s.stream k j) ∧
   ∀ (s : State) (k : Nat) (e : Emit), isCore k = true → s.running k = true → s.seqState k ≠ 4 → s.readyEmit k = some e →
     Answers (.tokenEmit k) s fun t =>
       (∃ y : Entry, y.data = 0 ∧ y.token = e.token ∧ y.last = false ∧ y.src = 12 ∧
         (t.queue k e.queue).entries = (s.queue k e.queue).put y) ∧
         (t.seq k).emits = dropFirst (fun x => x = e) (s.seq k).emits)

/-- The debugger of a core (R164, R165, R198, R201): HALT_REQ, RESUME with and without a count, from a halt, a breakpoint and HELD, the end of a
counted run, THR_HALT and THR_STEP. -/
def Obligations.CoresHaltAndResume : Prop :=
  (∀ (s : State) (w : Who) (k : Nat) (c : Sess), isCore k = true → s.Takes w (oHaltReq k) [1] c →
    Answers (.haltReq w k 1) s fun t => t.Accepted w ∧
      (s.seqState k = 2 → t.seqState k = 3 ∧ t.ctr (oHaltCause k) = 3) ∧
      (s.seqState k = 1 → t.seqState k = 1 ∧ (t.seq k).haltNext = true) ∧
      (s.seqState k ≠ 1 → s.seqState k ≠ 2 → t.seq k = s.seq k ∧ t.seqState k = s.seqState k)) ∧
  (∀ (s : State) (w : Who) (k n : Nat) (c : Sess) (h : Shard), isCore k = true → n < 65536 → s.Takes w (oResume k) (leBytes 2 n) c →
    (s.core k).shard = some h →
    let P := fun (t : State) => t.Accepted w ∧
      (s.seqState k = 3 → h.begun = true → (s.seq k).ended = false →
        t.seqState k = 2 ∧ (t.seq k).stepLeft = if n = 0 then none else some n) ∧
      (s.seqState k = 3 → h.begun = false → (∀ x, s.ctxOf h.ctx = some x → x.error = false) →
        (∃ g, (t.core k).shard = some g ∧ g.begun = true ∧ g.aseq = h.aseq) ∧ t.seqState k = (if bits 511 456 h.recd = 0 then 0 else 1) ∧
          (t.seq k).stepLeft = if n = 0 then none else some n) ∧
      (s.seqState k = 4 → h.code = 0 → t.seqState k = 2 ∧ ∃ g, (t.core k).shard = some g ∧ g.code = (s.seq k).held)
    Answers (.resumeStep w k n) s P ∧ (n = 0 → Answers (.resume w k) s P)) ∧
  (∀ (s : State) (k : Nat), isCore k = true → s.seqState k = 2 → (s.seq k).stepLeft = some 0 → (s.seq k).ended = false →
    Answers (.stepCountHalt k) s fun t => t.seqState k = 3 ∧ t.ctr (oHaltCause k) = 4 ∧ (t.seq k).stepLeft = none) ∧
  (∀ (s : State) (w : Who) (k : Nat) (c : Sess), isCore k = true → s.Takes w (oThrHalt k) [1] c →
    Answers (.thrHalt w k) s fun t => t.Accepted w ∧ t.thrHalt k = 1) ∧
  (∀ (s : State) (w : Who) (k : Nat) (c : Sess), isCore k = true → s.Takes w (oThrHalt k) [2] c →
    Answers (.thrForcedHalt w k) s fun t => t.Accepted w ∧ t.thrHalt k = 2 ∧ ∀ g ∈ s.groupsOf k, (t.group k g).lock = none) ∧
  (∀ (s : State) (w : Who) (k : Nat) (c : Sess), isCore k = true → s.Takes w (oThrHalt k) [0] c →
    Answers (.thrResume w k) s fun t => t.Accepted w ∧ t.thrHalt k = 0) ∧
  ∀ (s : State) (w : Who) (k : Nat) (c : Sess), isCore k = true → s.Takes w (oThrStep k) [1] c → s.thrHalt k ≠ 0 →
    (s.group k (s.ctr (oGrpSel k))).live = true →
    Answers (.thrStep w k) s fun t => t.Accepted w ∧ (t.group k (s.ctr (oGrpSel k))).step = true

/-! ### Thread groups -/

/-- What the issue of an instruction does beside its own effect (R173, R177, R182, R201): it is counted, and its group is the last of its lane set to
have issued; without a path to rejoin the group's next instruction follows, and a single step is over outside a locked sequence; registers,
predicates and flags stand; other groups are as before but for whether they were found to wait, and so is all of memory. -/
def Obligations.IssueAdvances : Prop :=
  ∀ (s : State) (k g : Nat) (j : Bool), isCore k = true → isGroup g = true → (s.group k g).live = true → (s.group k g).stack = [] →
    let x := s.group k g
    let t := s.issued k g j
    let y := t.group k g
    (x.active ≠ 0 →
        t.hbm = s.hbm ∧ t.host = s.host ∧ t.ctr (oInstrIssued k) = min (s.ctr (oInstrIssued k) + 1) (2 ^ 64 - 1) ∧
        (t.core k).issues = (s.core k).issues + 1 ∧
        y = { x with
          pc := if j then x.pc else x.pc + 8
          step := x.step && x.lock.isSome, last := (s.core k).issues + 1, tried := false, ibuf := none
          lock := x.lock.map fun l => if l.held then { l with count := l.count + 1 } else l } ∧
        (∀ h, h ≠ g → t.group k h = { s.group k h with tried := (t.group k h).tried }) ∧
        ∀ h, isGroup h = true → h % 4 = g % 4 → (s.group k h).live = true → (t.group k h).tried = false) ∧
      (x.active = 0 → y.live = false)

/-- Class INT (R180): every executing lane's D has the row's value of A and B; no other register, predicate, flag or byte of memory changes. -/
def Obligations.IntRowsCompute : Prop :=
  ∀ (s : State) (k g : Nat) (i : TInstr),
    let x := s.group k g
    let n := intRegs i
    let w := 32 * n
    let row := fun (c : Instr) (op : Nat) (w64 : Bool) (v : Nat → Nat → Nat) =>
      s.Ready k g i (intForm i op w64) →
      Answers c s (s.IssuesWrite k g (fDst i) n (x.execLanes i) fun ln => v (x.regN ln (fA i) n) (opB x i ln n) % 2 ^ w)
    row (.add k g i) 0x00 true (fun a b => a + b) ∧
    row (.sub k g i) 0x01 true (fun a b => twos w ((a : Int) - b)) ∧
    row (.mulLo k g i) 0x02 false (fun a b => a * b) ∧
    row (.mulHiS k g i) 0x03 false (fun a b => twos (2 * w) (sext w a * sext w b) / 2 ^ w) ∧
    row (.mulHiU k g i) 0x04 false (fun a b => a * b / 2 ^ w) ∧
    row (.andOp k g i) 0x08 true (fun a b => a &&& b) ∧
    row (.orOp k g i) 0x09 true (fun a b => a ||| b) ∧
    row (.xorOp k g i) 0x0A true (fun a b => a ^^^ b) ∧
    row (.andn k g i) 0x0B true (fun a b => a &&& (2 ^ w - 1 - b)) ∧
    row (.shl k g i) 0x10 true (fun a b => a * 2 ^ (b % w)) ∧
    row (.shrU k g i) 0x11 true (fun a b => a / 2 ^ (b % w)) ∧
    row (.shrS k g i) 0x12 true (fun a b => twos w (sext w a / 2 ^ (b % w))) ∧
    row (.minS k g i) 0x18 true (fun a b => if sext w a ≤ sext w b then a else b) ∧
    row (.minU k g i) 0x19 true (fun a b => min a b) ∧
    row (.maxS k g i) 0x1A true (fun a b => if sext w a ≤ sext w b then b else a) ∧
    row (.maxU k g i) 0x1B true (fun a b => max a b) ∧
    (∀ fm : OpForm, fm = { keys := [0x20], imm := false, modMask := 7, ok := true, regs := [(fDst i, 1), (fA i, 1), (fB i, 1)], inLock := true } →
      s.Ready k g i fm →
      Answers (.sel k g i) s (s.IssuesWrite k g (fDst i) 1 (x.execLanes i) fun ln =>
        if x.pred ln (fMod i % 8) then x.reg ln (fA i) else x.reg ln (fB i))) ∧
    (s.Ready k g i (setpForm i [0x28, 0x29, 0x2A, 0x2B, 0x2C, 0x2D]) →
      Answers (.setp k g i) s (s.IssuesSet k g (fDst i) (x.execLanes i) fun ln =>
        setpRel i.op.toNat w (x.regN ln (fA i) n) (opB x i ln n)))

/-- Classes FP32, FP64, CVT and SFU (R55, R84 to R86, R179, R180): D has the operation's pattern in every executing lane, whose flags are raised;
what the error bound of a SFU row leaves open is free. -/
def Obligations.FloatRowsCompute : Prop :=
  ∀ (s : State) (k g : Nat) (i : TInstr),
    let x := s.group k g
    let u := s.touchFetch k g
    let f := fpFmt i
    let rm := rndFor x i
    let a := fun ln => fpSrc x i ln 0 (fA i)
    let b := fun ln => fpSrc x i ln 1 (fB i)
    let row := fun (c : Instr) (op : Nat) (srcs : List Nat) (v : Nat → Nat × Nat) =>
      s.Ready k g i (fpForm i [op] srcs false) → Answers c s (s.IssuesRaise k g (fDst i) (fpRegs i) (x.execLanes i) v)
    let sfu := fun (c : Instr) (op : Nat) (v : Nat → Nat → Nat) =>
      ∀ fm : OpForm, fm = { keys := [0x400 + op], imm := false, modMask := 0, ok := true, regs := [(fDst i, 1), (fA i, 1)], inLock := false } →
        s.Ready k g i fm →
        Answers c s fun t => ∃ y, t = ((u.setGroup k g y).drew).issued k g false ∧
          x.Writes y (x.execLanes i) (fDst i) 1 fun ln => v (x.reg ln (fA i)) (32 * u.free + ln)
    row (.fadd k g i) 0 [fA i, fB i] (fun ln => fAdd f rm (a ln) (b ln)) ∧
    row (.fsub k g i) 1 [fA i, fB i] (fun ln => fSub f rm (a ln) (b ln)) ∧
    row (.fmul k g i) 2 [fA i, fB i] (fun ln => fMul f rm (a ln) (b ln)) ∧
    row (.ffma k g i) 3 [fA i, fB i, fC i] (fun ln => fFma f rm (a ln) (b ln) (fpSrc x i ln 2 (fC i))) ∧
    row (.fmin k g i) 4 [fA i, fB i] (fun ln => fMinMax f false (a ln) (b ln)) ∧
    row (.fmax k g i) 5 [fA i, fB i] (fun ln => fMinMax f true (a ln) (b ln)) ∧
    row (.fdiv k g i) 6 [fA i, fB i] (fun ln => fDiv f rm (a ln) (b ln)) ∧
    row (.fsqrt k g i) 7 [fA i] (fun ln => fSqrt f rm (a ln)) ∧
    (s.Ready k g i (fpForm i [8, 9, 0xA, 0xB, 0xC, 0xD] [fA i, fB i] true) →
      Answers (.fsetp k g i) s fun t => ∃ y fl, t = (u.setGroup k g { y with flags := fl }).issued k g false ∧
        x.Sets y (x.execLanes i) (fDst i) (fun ln => (fRel f (fpOp i - 8) (a ln) (b ln)).1) ∧
        x.Raised (x.execLanes i) (fun ln => (fRel f (fpOp i - 8) (a ln) (b ln)).2) fl) ∧
    (∀ (fm : OpForm) (d e : Nat), d = i.op.toNat / 16 → e = i.op.toNat % 16 →
      fm = { keys := [0x300 + i.op.toNat], imm := false, modMask := 0x3F, inLock := true
             ok := fRnd i ≤ 5 && d ≤ 10 && d ≠ 9 && e ≤ 10 && elemOk e (fMod i % 8) && elemOk d (fMod i / 8)
             regs := [(fDst i, cvtRegs d), (fA i, cvtRegs e)] } →
      s.Ready k g i fm →
      Answers (.cvt k g i) s (s.IssuesRaise k g (fDst i) (cvtRegs d) (x.execLanes i) fun ln =>
        let src := x.regN ln (fA i) (cvtRegs e)
        let r := convert d e rm (if narrow e then lane (fmtBits e) (fMod i % 8) src else src)
        (if narrow d then putLane (fmtBits d) (fMod i / 8) (x.reg ln (fDst i)) r.1 else r.1, r.2))) ∧
    sfu (.rcp k g i) 0 sfuRcp ∧ sfu (.rsq k g i) 1 sfuRsq ∧ sfu (.ex2 k g i) 2 sfuEx2 ∧ sfu (.lg2 k g i) 3 sfuLg2

/-- Classes MOVE and FPENV (R179, R180, R183). A register operand of a lane exchange is a signed number (log entry 85), and a reading of CLK is later
than the one before, by a count that is free (log entry 5). -/
def Obligations.MoveRowsAct : Prop :=
  ∀ (s : State) (k g : Nat) (i : TInstr),
    let x := s.group k g
    let u := s.touchFetch k g
    let ls := x.execLanes i
    let shfl := fun (c : Instr) (op : Nat) (lane : Nat → Int → Int) =>
      s.Ready k g i (moveForm op true 0 true ([(fDst i, 1), (fA i, 1)] ++ bRegs i 1)) →
      Answers c s (s.IssuesWrite k g (fDst i) 1 ls fun ln =>
        let j := lane ln (if i.immb then fImm i else sext 32 (x.reg ln (fB i)))
        x.reg (if 0 ≤ j ∧ j < 32 ∧ x.active.testBit j.toNat = true then j.toNat else ln) (fA i))
    let logic := fun (c : Instr) (op : Nat) (v : Bool → Bool → Bool) =>
      s.Ready k g i (moveForm op false 0 (fDst i < 8) []) →
      Answers c s (s.IssuesSet k g (fDst i) ls fun ln => v (x.pred ln (fA i % 8)) (x.pred ln (fB i % 8)))
    (s.Ready k g i (moveForm 0 false 0xFF (pl i 35 32 = 0) [(fDst i, 1)]) →
      Answers (.movi k g i) s (s.IssuesWrite k g (fDst i) 1 ls fun _ => fImm32 i)) ∧
    (s.Ready k g i (moveForm 1 false 0 true [(fDst i, 1), (fA i, 1)]) →
      Answers (.mov k g i) s (s.IssuesWrite k g (fDst i) 1 ls fun ln => x.reg ln (fA i))) ∧
    shfl (.shflIdx k g i) 8 (fun _ b => b) ∧ shfl (.shflUp k g i) 9 (fun ln b => ln - b) ∧
    shfl (.shflDown k g i) 10 (fun ln b => ln + b) ∧
    shfl (.shflXor k g i) 11 (fun ln b => if 0 ≤ b ∧ b < 32 then ((ln ^^^ b.toNat : Nat) : Int) else -1) ∧
    (s.Ready k g i (moveForm 0x10 false 7 (fDst i < 8) []) →
      Answers (.voteAll k g i) s (s.IssuesSet k g (fDst i) ls fun _ => decide (voteMask x i = x.active))) ∧
    (s.Ready k g i (moveForm 0x11 false 7 (fDst i < 8) []) →
      Answers (.voteAny k g i) s (s.IssuesSet k g (fDst i) ls fun _ => decide (voteMask x i ≠ 0))) ∧
    (s.Ready k g i (moveForm 0x12 false 7 true [(fDst i, 1)]) →
      Answers (.voteBallot k g i) s (s.IssuesWrite k g (fDst i) 1 ls fun _ => voteMask x i)) ∧
    logic (.pand k g i) 0x18 (fun a b => a && b) ∧ logic (.por k g i) 0x19 (fun a b => a || b) ∧
    logic (.pxor k g i) 0x1A (fun a b => a != b) ∧ logic (.pnot k g i) 0x1B (fun a _ => !a) ∧
    (∀ n, n = (if fA i = 5 ∨ fA i = 6 then 2 else 1) → s.Ready k g i (moveForm 0x20 false 0 (fA i ≤ 6) [(fDst i, n)]) →
      Answers (.rdsr k g i) s fun t => ∃ (y : Group) (v : Nat → Nat),
        x.Writes y ls (fDst i) n v ∧
        (fA i ≠ 6 → t = (u.setGroup k g y).issued k g false) ∧
        (fA i = 6 → ∃ clk, (s.core k).clk < clk ∧ (∀ ln, v ln = clk) ∧
          t = (((u.setGroup k g y).setCore k { u.core k with clk := clk }).drew).issued k g false) ∧
        (fA i = 0 → v = fun ln => ln) ∧ (fA i = 1 → v = fun _ => g) ∧ (fA i = 2 → v = fun _ => x.index) ∧
        (fA i = 3 → v = fun _ => k) ∧ (fA i = 4 → v = fun _ => k / 12) ∧ (fA i = 5 → v = fun _ => (u.block k x.block).arg)) ∧
    (s.Ready k g i (envForm i 0 true (1 ≤ fImm i && fImm i ≤ 5) []) →
      Answers (.setrnd k g i) s fun t => t = (u.setGroup k g { x with rnd := if ls = [] then x.rnd else (fImm i).toNat }).issued k g false) ∧
    (s.Ready k g i (envForm i 1 false true [(fDst i, 1)]) →
      Answers (.rdflg k g i) s (s.IssuesWrite k g (fDst i) 1 ls fun ln => Tbl.get 0 x.flags ln)) ∧
    (s.Ready k g i (envForm i 2 false true []) →
      Answers (.clrflg k g i) s fun t => ∃ y : Group, t = (u.setGroup k g y).issued k g false ∧ y = { x with flags := y.flags } ∧
        (∀ ln ∈ ls, Tbl.get 0 y.flags ln = 0) ∧ ∀ ln, ln ∉ ls → Tbl.get 0 y.flags ln = Tbl.get 0 x.flags ln)

/-- Class BRANCH and the arrival counters (R182, R186). A branch whose condition holds in no active lane falls through; one that must be uniform and
is not, a stack that is full and a RET without its return point end the shard with a group fault (R182, R199). -/
def Obligations.BranchesSteer : Prop :=
  ∀ (s : State) (k g : Nat) (i : TInstr),
    let x := s.group k g
    let u := s.touchFetch k g
    let ls := x.execLanes i
    let m := maskOf ls
    let far := x.pc + 8 * fTgt i
    let arr := fun op => ({ keys := [0x700 + op], imm := true, modMask := 0xF, ok := true, regs := bRegs i 1, inLock := false } : OpForm)
    let through := fun (c : Instr) => Answers c s fun t => t = (u.setGroup k g x).issued k g false
    let faults := fun (c : Instr) (code : Nat) => Answers c s fun t => t = u.groupFault k g code
    (s.Ready k g i (branchForm i 0) →
      (m = 0 → through (.bra k g i)) ∧
      (m ≠ 0 → m = x.active → Answers (.bra k g i) s fun t => t = (u.setGroup k g { x with pc := far }).issued k g true) ∧
      (m ≠ 0 → m ≠ x.active → faults (.bra k g i) 0x0501)) ∧
    (s.Ready k g i (branchForm i 1) →
      (m = 0 → through (.brc k g i)) ∧
      (m ≠ 0 → m = x.active → Answers (.brc k g i) s fun t => t = (u.setGroup k g { x with pc := far }).issued k g true) ∧
      (m ≠ 0 → m ≠ x.active → x.stack.length ≤ 30 → Answers (.brc k g i) s fun t =>
        t = ((u.count k 2 3 1).setGroup k g { x with
          active := x.active - (x.active &&& m)
          stack := ⟨far, m, 1⟩ :: ⟨x.pc + 8 * fRcv i, x.active, 0⟩ :: x.stack }).issued k g false) ∧
      (m ≠ 0 → m ≠ x.active → 30 < x.stack.length → faults (.brc k g i) 0x0504)) ∧
    (s.Ready k g i (branchForm i 2) →
      (m = 0 → through (.call k g i)) ∧
      (m ≠ 0 → m = x.active → x.stack.length < 32 → Answers (.call k g i) s fun t => t = (u.setGroup k g { x with
        stack := ⟨x.pc + 8, x.active, 2⟩ :: x.stack, pc := far }).issued k g true) ∧
      (m ≠ 0 → m ≠ x.active → faults (.call k g i) 0x0501) ∧
      (m ≠ 0 → m = x.active → 32 ≤ x.stack.length → faults (.call k g i) 0x0504)) ∧
    (s.Ready k g i (branchForm i 3) →
      (m = 0 → through (.ret k g i)) ∧
      (m ≠ 0 → m ≠ x.active → faults (.ret k g i) 0x0501) ∧
      (m ≠ 0 → m = x.active → x.stack = [] → faults (.ret k g i) 0x0501) ∧
      ∀ e r, m ≠ 0 → m = x.active → x.stack = e :: r →
        (e.kind = 2 → Answers (.ret k g i) s fun t => t = (u.setGroup k g { x with pc := e.pc, stack := r }).issued k g true) ∧
        (e.kind ≠ 2 → faults (.ret k g i) 0x0501)) ∧
    (s.Ready k g i (branchForm i 4) →
      let y : Group := { x with
        active := x.active - (x.active &&& m)
        stack := x.stack.map fun (e : SEnt) => { e with mask := e.mask - (e.mask &&& m) } }
      let last := y.active = 0 ∧ (∀ e ∈ y.stack, e.mask = 0) ∧ x.loads ≠ []
      (¬ last → Answers (.exit k g i) s fun t => t = (u.setGroup k g y).issued k g false) ∧
      (last → Answers (.exit k g i) s fun t => t = u.notReady k g)) ∧
    (ls = [] →
      (s.Ready k g i (arr 8) → Answers (.arradd k g i) s fun t => t = u.issued k g false) ∧
      (s.Ready k g i (arr 9) → Answers (.arrset k g i) s fun t => t = u.issued k g false) ∧
      (s.Ready k g i (arr 10) → Answers (.arrwait k g i) s fun t => t = u.issued k g false)) ∧
    ∀ (ln : Nat) (r : List Nat), ls = ln :: r →
      let c := fMod i % 16
      let v := opB x i ln 1
      let old := Tbl.get 0 (u.block k x.block).arrive c
      (s.Ready k g i (arr 8) → Answers (.arradd k g i) s fun t => t = (u.setArrive k x.block c (old + v)).issued k g false) ∧
      (s.Ready k g i (arr 9) → Answers (.arrset k g i) s fun t => t = (u.setArrive k x.block c v).issued k g false) ∧
      (s.Ready k g i (arr 10) → Answers (.arrwait k g i) s fun t =>
        ((old + 2 ^ 32 - v % 2 ^ 32) % 2 ^ 32 < 2 ^ 31 → t = u.issued k g false) ∧
        (2 ^ 31 ≤ (old + 2 ^ 32 - v % 2 ^ 32) % 2 ^ 32 → t = (u.setGroup k g { x with wait := .arr c v }).issued k g false))

/-- BLOCK_PLACE and IFETCH_MISS (R169 to R171, R176, R210, R224, R288): a whole block takes a free slot, its groups live in their lane sets at ENTRY_PC
with all lanes active and zero registers; a line that is missing is asked for; a word that the cache may not hold is read at its home. -/
def Obligations.BlocksArePlaced : Prop :=
  (∀ (s : State) (k : Nat) (h : Shard), isCore k = true → (s.core k).shard = some h → s.canPlace k h = true →
    let n := bits 287 281 h.recd
    Answers (.blockPlace k) s fun t =>
      ∃ b, b < 16 ∧ (s.block k b).live = false ∧ (t.block k b).live = true ∧ (t.block k b).number = h.nextBlock ∧
        (t.block k b).groups.length = n ∧ (t.block k b).size = 4096 * bits 272 263 h.recd ∧ (t.block k b).store = [] ∧ (t.block k b).arrive = [] ∧
        (t.block k b).arg = (bits 383 328 h.recd + 64 * bits 303 288 h.recd * h.nextBlock) % 2 ^ 56 ∧
        (∀ j, j < n → ∃ g, (t.block k b).groups[j]? = some g ∧ g < 64 ∧ g % 4 = j % 4 ∧ (s.group k g).live = false ∧
          (t.group k g).live = true ∧ (t.group k g).block = b ∧ (t.group k g).index = j ∧ (t.group k g).pc = (bits 447 392 h.recd : Nat) ∧
          (t.group k g).active = 2 ^ 32 - 1 ∧ (t.group k g).regs = [] ∧ (t.group k g).last = (s.core k).issues) ∧
        (∀ g, (s.group k g).live = true → t.group k g = s.group k g) ∧
        ((t.core k).shard.map fun x => x.nextBlock) = some (h.nextBlock + 1)) ∧
  ∀ (s u : State) (k g pa : Nat) (cache : Bool) (h : Shard), isCore k = true → isGroup g = true →
    (s.core k).shard = some h → s.running k = true → (s.group k g).live = true → s.fetched k g = none →
    s.translate { ctx := h.ctx, tag := h.tag, engine := k, source := g, kind := 3, va := twos 56 (s.group k g).pc, rep := 0, since := none }
      = (u, some (.mem pa cache)) →
    (cache = true → u.l1On true k = true → (∀ l, u.l1Find true k (pa / 128) = some l → l.valid.testBit (pa / 32 % 4) = false) →
      (∀ m ∈ u.lattice, m.line = pa / 128 → ¬ ((m.src = k ∧ m.kind = "RDSI") ∨ (m.dst = k ∧ m.kind = "FILL" ∧ m.mask.testBit 9 = true))) →
      Answers (.ifetchMiss k g) s fun t =>
        (∃ m ∈ t.lattice, m.kind = "RDSI" ∧ m.src = k ∧ m.dst = homeNode (pa / 128) ∧ m.line = pa / 128) ∧ t.groups = u.groups ∧ t.hbm = u.hbm ∧
          t.host = u.host) ∧
    ∀ (v w : State) (d : Nat) (bad : Bool), (cache = false ∨ u.l1On true k = false) → u.rangeBusy pa 8 = false → u.letIn (.core k) pa 8 false = (v, true) →
      (v.admitDone (.core k) pa 8).agentRead (.core k) pa 8 = (w, d, bad) →
      Answers (.ifetchMiss k g) s fun t =>
        (bad = false → t = w.setGroup k g { w.group k g with ibuf := some (twos 56 (w.group k g).pc, d) }) ∧
        (bad = true → t = w.groupFault k g 0x0506)

/-- Classes MEM and ASYNC (R178, R184, R185, R188, R195, R206): loads are awaited until their data come; stores go to the home, to the peer, into a line
that the core holds unique, among the pending ones or into the locked sequence's buffer; the block store is read and written; and copies are put in
flight. -/
def Obligations.MemoryRowsAct : Prop :=
  ∀ (s u : State) (k g : Nat) (i : TInstr) (h : Shard) (as_ : List (Nat × Nat)) (ts : List (Nat × Nat × Target)),
    let x := s.group k g
    let z := s.touchFetch k g
    let ls := x.execLanes i
    let w := memWidth i
    let val := fun ln => x.regN ln (fDst i) (widthRegs w) % 2 ^ (8 * w)
    let goes := laneAddrs ls (fun ln => x.addr ln (fA i) (fImm i) w) = some as_ ∧ z.tracks k as_.length = true
    let stores := goes ∧ z.fenced k g (memOrder i) = true ∧ (∀ a ∈ as_, z.clash k g a.2 = false) ∧ z.laneTargets h k g 1 as_ = (u, some ts)
    (z.core k).shard = some h → ls ≠ [] → z.acquiring k g = false →
    (s.Ready k g i (memForm i 0 2 true) → goes → z.laneTargets h k g 0 as_ = (u, some ts) →
      (x.lock = none → u.peersReady h.ctx ts = none) → (∀ l, x.lock = some l → inLine l ts = true) →
      Answers (.ld k g i) s fun t => ∃ (v : State) (o : LoadOp), t = v.issued k g false ∧
        v.groups = Tbl.set u.groups (64 * k + g) { u.group k g with loads := (u.group k g).loads ++ [o] } ∧
        o.dst = fDst i ∧ o.width = w ∧ o.lanes = as_ ∧ o.policy = memPolicy i ∧ o.order = memOrder i ∧ (o.vals.isSome ↔ x.lock.isSome) ∧
        (x.lock = none → v.hbm = u.hbm ∧ v.host = u.host)) ∧
    (s.Ready k g i (memForm i 1 2 true) → stores →
      (∀ l, x.lock = some l → inLine l ts = true →
        Answers (.st k g i) s fun t => ∃ b : Tbl Byte, t = (u.setGroup k g { u.group k g with lock := some { l with buf := b } }).issued k g false ∧
          (∀ pre p va pa c, ts = pre ++ [(p, va, Target.mem pa c)] → ∀ j, j < w → (Tbl.get 0 b (pa % 512 + j)).toNat = val p / 2 ^ (8 * j) % 256) ∧
          ∀ a, (∀ p ∈ ts, ∀ pa c, p.2.2 = Target.mem pa c → a < pa % 512 ∨ pa % 512 + w ≤ a) → Tbl.get 0 b a = Tbl.get 0 l.buf a) ∧
      (x.lock = none → (∀ p ∈ ts, ∃ pa c, p.2.2 = .mem pa c ∧ u.coreWrites k (pa / 128) = false ∧ (c = false ∨ memPolicy i = 2 ∨ u.l1On false k = false)) →
        Answers (.st k g i) s fun t => ∃ v : State, t = v.issued k g false ∧ v.hbm = u.hbm ∧ v.host = u.host ∧ v.groups = u.groups ∧
          v.lattice = u.lattice ++ ts.filterMap fun p => match p.2.2 with
            | .mem pa _ => some { kind := "IWR", src := k, dst := homeNode (pa / 128), line := pa / 128, mask := pa % 128 + 128 * w, data := val p.1 }
            | .peer _ _ => none) ∧
      (x.lock = none → memPolicy i ≠ 2 → u.l1On false k = true →
        (∀ p ∈ ts, ∃ pa, p.2.2 = .mem pa true ∧ u.homeWrites k (pa / 128) = false ∧ u.l1Find false k (pa / 128) = none) →
        Answers (.st k g i) s fun t => ∃ v : State, t = v.issued k g false ∧ v.hbm = u.hbm ∧ v.host = u.host ∧ v.groups = u.groups ∧
          (v.core k).stores = (u.core k).stores ++ ts.filterMap fun p => match p.2.2 with
            | .mem pa _ => some (pa, w, val p.1)
            | .peer _ _ => none) ∧
      (∀ (ln va pa : Nat) (l : L1Line), x.lock = none → memPolicy i ≠ 2 → u.l1On false k = true → ts = [(ln, va, .mem pa true)] →
        u.homeWrites k (pa / 128) = false → u.l1Find false k (pa / 128) = some l → 2 ≤ l.st → l.valid.testBit (pa / 32 % 4) = true →
        (∀ e ∈ (u.core k).stores, e.1 / 128 ≠ pa / 128) →
        Answers (.st k g i) s fun t => ∃ (v : State) (m : L1Line), t = v.issued k g false ∧ v.l1Find false k (pa / 128) = some m ∧
          m = { l with st := 3, dirty := setBit l.dirty (pa / 32 % 4), data := m.data } ∧ m.data / 2 ^ (8 * (pa % 128)) % 2 ^ (8 * w) = val ln ∧
          (∀ a n, a + n ≤ 8 * (pa % 128) ∨ 8 * (pa % 128) + 8 * w ≤ a → m.data / 2 ^ a % 2 ^ n = l.data / 2 ^ a % 2 ^ n) ∧
          (v.core k).stores = (u.core k).stores ∧ v.groups = u.groups ∧ v.hbm = u.hbm ∧ v.host = u.host) ∧
      (∀ (ln va vx a slot : Nat) (y : State), x.lock = none → ts = [(ln, va, .peer vx a)] → u.peerArc h.ctx vx = .ok slot →
        (u.arc slot).unacked.length < 256 → u.arcSend slot 0 1 a 0 0 (leBytes w (val ln)) none h.ring h.aseq = some y →
        Answers (.st k g i) s fun t => t = (y.trackPeak k).issued k g false)) ∧
    (∀ os, laneOffs ls (fun ln => blockOff (x.reg ln (fA i)) (fImm i) w w (z.block k x.block).size) = .ok os →
      (s.Ready k g i (memForm i 2 1 false) →
        Answers (.ldb k g i) s fun t => ∃ y, t = ((if 4 ≤ w then z else z.drew).setGroup k g y).issued k g false ∧ y = { x with regs := y.regs } ∧
          (∀ ln r, r < 256 → (ln ∉ ls ∨ r < fDst i ∨ fDst i + widthRegs w ≤ r) → y.reg ln r = x.reg ln r) ∧
          ∀ p ∈ os, (4 ≤ w → ∀ j, j < widthRegs w → fDst i + j ≠ 255 →
              y.reg p.1 (fDst i + j) = Memory.num (z.block k x.block).store p.2 w / 2 ^ (32 * j) % 2 ^ 32) ∧
            (w < 4 → fDst i ≠ 255 → y.reg p.1 (fDst i) % 2 ^ (8 * w) = Memory.num (z.block k x.block).store p.2 w % 2 ^ (8 * w))) ∧
      (s.Ready k g i (memForm i 3 1 false) → z.fenced k g (memOrder i) = true →
        Answers (.stb k g i) s fun t => ∃ m, t = (z.setBlock k x.block { z.block k x.block with store := m }).issued k g false ∧
          (∀ a, (∀ p ∈ os, a < p.2 ∨ p.2 + w ≤ a) → Memory.byte m a = Memory.byte (z.block k x.block).store a) ∧
          ∀ pre ln o, os = pre ++ [(ln, o)] → Memory.num m o w = val ln)) ∧
    (∀ (fm : OpForm) (n : Nat) (os : List (Nat × Nat)), n = 4 * 2 ^ (fMod i / 16 % 4) →
      fm = { keys := [0x700], imm := false, modMask := 0x3F, ok := fMod i / 16 % 4 ≠ 3, regs := [(fA i, 2), (fB i, 1)], inLock := false } →
      s.Ready k g i fm → laneAddrs ls (fun ln => x.addr ln (fA i) 0 n) = some as_ →
      laneOffs ls (fun ln => blockOff (x.reg ln (fB i)) 0 n n (z.block k x.block).size) = .ok os →
      Answers (.acpLane k g i) s fun t => t = (z.setCore k { z.core k with acps := (z.core k).acps ++
        ((as_.zip os).map fun p => ⟨g, x.block, p.1.2, p.2.2, n, fMod i % 16⟩) }).issued k g false) ∧
    (∀ (fm : OpForm) (ln : Nat) (r : List Nat) (a o : Nat), ls = ln :: r →
      fm = { keys := [0x701], imm := false, modMask := 0xF, ok := true, regs := [(fA i, 2), (fB i, 1), (fC i, 1)], inLock := false } →
      s.Ready k g i fm → x.addr ln (fA i) 0 32 = some a →
      blockOff (x.reg ln (fB i)) 0 32 (x.reg ln (fC i)) (z.block k x.block).size = .ok o →
      x.reg ln (fC i) % 32 = 0 → x.reg ln (fC i) ≠ 0 → x.reg ln (fC i) ≤ 65536 →
      Answers (.acpBulk k g i) s fun t => t = (z.setCore k { z.core k with acps := (z.core k).acps ++
        [⟨g, x.block, a, o, x.reg ln (fC i), fMod i % 16⟩] }).issued k g false)

/-- Data that come (R173, R185, R191, R199): the registers of a load or an atomic, or MEM-DATA where a value was uncorrectable, and a part of a copy into
its block's store with its arrival counter. Classes ATOM and FENCE (R189 to R193): each lane's operation goes with its operands to the home of its
address, or to the peer, once what it must follow is performed; the old values of a returning one are awaited; a fence passes when what it orders
is performed, and waits before. -/
def Obligations.LoadsReturnAndAtomicsIssue : Prop :=
  ((∀ (s u : State) (k g : Nat) (h : Shard) (o : LoadOp) (r : List LoadOp) (vs : List (Nat × Nat)),
     isCore k = true → isGroup g = true → (s.core k).shard = some h → s.running k = true → (s.group k g).live = true →
     (s.group k g).loads = o :: r → (o.vals = none ∨ o.policy ≠ 3) → s.tryLoad h k g o = (u, some vs) →
     ((∀ p ∈ vs, p.2 < 2 ^ 128) → (vs.map Prod.fst).Nodup → o.width ≤ 16 → o.dst + widthRegs o.width ≤ 256 →
      Answers (.ldDataReturn k g) s fun t =>
        let x := u.group k g
        let y := t.group k g
        y = { x with loads := x.loads.eraseIdx 0, tried := false, regs := y.regs } ∧ t.hbm = u.hbm ∧ t.host = u.host ∧
        (∀ ln j, j < 256 → (ln ∉ vs.map Prod.fst ∨ j < o.dst ∨ o.dst + widthRegs o.width ≤ j) → y.reg ln j = x.reg ln j) ∧
        ∀ p ∈ vs, (4 ≤ o.width → ∀ j, j < widthRegs o.width → o.dst + j < 255 → y.reg p.1 (o.dst + j) = p.2 % 2 ^ (8 * o.width) / 2 ^ (32 * j) % 2 ^ 32) ∧
          (o.width < 4 → o.dst < 255 → y.reg p.1 o.dst % 2 ^ (8 * o.width) = p.2 % 2 ^ (8 * o.width))) ∧
     ((∃ p ∈ vs, 2 ^ 128 ≤ p.2) → Answers (.ldDataReturn k g) s fun t =>
        t = (u.setGroup k g { u.group k g with loads := (u.group k g).loads.eraseIdx 0, tried := false }).groupFault k g 0x0506)) ∧
   (∀ (s : State) (k g : Nat) (o : LoadOp) (r : List LoadOp), isCore k = true → isGroup g = true → s.running k = true → (s.group k g).live = true →
     (s.group k g).loads = o :: r → o.policy = 3 → (s.atomVals k g o).length = o.lanes.length → (∀ p ∈ s.atomVals k g o, p.2 < 2 ^ 128) →
     ((s.atomVals k g o).map Prod.fst).Nodup → (o.width = 4 ∨ o.width = 8) → o.dst + o.width / 4 ≤ 256 →
     Answers (.atmdat k g) s fun t =>
       let y := t.group k g
       y = { s.group k g with loads := r, tried := false, regs := y.regs } ∧ t.hbm = s.hbm ∧ t.host = s.host ∧
       (∀ ln j, j < 256 → (ln ∉ (s.atomVals k g o).map Prod.fst ∨ j < o.dst ∨ o.dst + o.width / 4 ≤ j) → y.reg ln j = (s.group k g).reg ln j) ∧
       ∀ p ∈ s.atomVals k g o, ∀ j, j < o.width / 4 → o.dst + j < 255 → y.reg p.1 (o.dst + j) = p.2 / 2 ^ (32 * j) % 2 ^ 32) ∧
   ∀ (s u : State) (k len v : Nat) (h : Shard) (a : Acp) (r : List Acp), isCore k = true → (s.core k).shard = some h → s.running k = true →
     len ≠ 0 → (s.core k).acps = a :: r →
     let n := min (min len a.len) (128 - a.src % 128)
     (s.copyRead h k a n = (u, .data v false) →
      Answers (.acpPartWritten k len) s fun t =>
        (t.core k).acps = (if a.len ≤ n then r else { a with src := a.src + n, off := a.off + n, len := a.len - n } :: r) ∧
          Tbl.get 0 (t.block k a.block).arrive a.counter = (Tbl.get 0 (u.block k a.block).arrive a.counter + n) % 2 ^ 32 ∧
          (t.block k a.block).store = Memory.putNum (u.block k a.block).store a.off n v ∧ t.hbm = u.hbm ∧ t.host = u.host) ∧
     (s.copyRead h k a n = (u, .data v true) → Answers (.acpPartWritten k len) s fun t => t = u.groupFault k a.group 0x0506)) ∧
  (∀ (s u : State) (k g : Nat) (i : TInstr) (h : Shard) (as_ : List (Nat × Nat)) (ts : List (Nat × Nat × Target)),
     let x := s.group k g
     let z := s.touchFetch k g
     let ls := x.execLanes i
     let w := memWidth i
     let op := i.op.toNat % 16
     let msg := fun (a : AtomMsg) => ({ kind := "ATM", src := k, dst := homeNode (a.pa / 128), line := a.pa / 128, mask := 32 * g + a.lane, data := a.pa,
                                        atom := some a } : LMsg)
     let sent := fun (ret : Bool) => ts.filterMap fun p => match p.2.2 with
       | .mem pa _ => some (msg ⟨atomOp op, pa, p.2.1, w, x.regN p.1 (fB i) (w / 4), if op = 9 then x.regN p.1 (fC i) (w / 4) else 0, g, p.1, ret,
           !ret && decide (memOrder i ≠ 0)⟩)
       | .peer _ _ => none
     let goes := laneAddrs ls (fun ln => x.addr ln (fA i) 0 w) = some as_ ∧ (∀ a ∈ as_, z.clash k g a.2 = false) ∧ z.tracks k as_.length = true ∧
       z.laneTargets h k g 2 as_ = (u, some ts)
     let free := u.peersReady h.ctx ts = none ∧
       (∀ p ∈ ts, ∀ vx a slot, p.2.2 = .peer vx a → u.peerArc h.ctx vx = .ok slot → (u.arc slot).live = true) ∧
       ∀ p ∈ ts, ∀ pa c, p.2.2 = .mem pa c → u.coreWrites k (pa / 128) = false ∧ (u.onHost pa = true → atomOnHost (atomOp op) = true)
     let row := fun (c : Instr) (n : Nat) => s.Ready k g i (atomForm i [n] false) → goes →
       (free → Answers c s fun t => ∃ (v : State) (o : LoadOp), t = v.issued k g false ∧ v.lattice = u.lattice ++ sent true ∧ v.hbm = u.hbm ∧
         v.host = u.host ∧ v.groups = Tbl.set u.groups (64 * k + g) { u.group k g with loads := (u.group k g).loads ++ [o] } ∧
         o.dst = fDst i ∧ o.width = w ∧ o.lanes = as_ ∧ o.policy = 3 ∧ o.vals = some [] ∧ o.order = memOrder i ∧
         ∀ p ∈ ts, ∀ vx a, p.2.2 = .peer vx a → ∃ q ∈ v.peers, q.engine = k ∧ q.source = g + 4096 * (p.1 + 1) ∧ q.va = p.2.1) ∧
       ((∃ p ∈ ts, ∃ pa e, p.2.2 = .mem pa e ∧ u.onHost pa = true ∧ atomOnHost (atomOp op) = false) →
         Answers c s fun t => t = u.groupFault k g 0x0507)
     let vrow := fun (c : Instr) (n : Nat) (aop : AtomOp) => ∀ (fm : OpForm) (ln : Nat) (r : List Nat) (va pa : Nat) (e : Bool), ls = ln :: r →
       fm = { keys := [0x800 + n], imm := false, modMask := 0xE7, ok := fMod i % 8 = 2 && memOrder i ≤ 4, regs := [(fA i, 2), (fB i, 1)], inLock := false } →
       s.Ready k g i fm → x.addr ln (fA i) 0 128 = some va → z.clash k g va = false → z.tracks k 1 = true →
       z.translate (groupAccess h k g 2 va) = (u, some (.mem pa e)) →
       (u.onHost pa = false → u.coreWrites k (pa / 128) = false → Answers c s fun t => ∃ v : State, t = v.issued k g false ∧ v.hbm = u.hbm ∧
         v.host = u.host ∧ v.groups = u.groups ∧
         v.lattice = u.lattice ++ [msg ⟨aop, pa, va, 128, packLanes 32 ((List.range 32).map fun j => x.reg j (fB i)), maskOf ls, g, ln, false,
           decide (memOrder i ≠ 0)⟩]) ∧
       (u.onHost pa = true → Answers c s fun t => t = u.groupFault k g 0x0507)
     (z.core k).shard = some h → ls ≠ [] →
     (z.acquiring k g = false → z.fenced k g (memOrder i) = true →
      row (.atomAdd k g i) 0 ∧ row (.atomMinS k g i) 1 ∧ row (.atomMinU k g i) 2 ∧ row (.atomMaxS k g i) 3 ∧ row (.atomMaxU k g i) 4 ∧
      row (.atomAnd k g i) 5 ∧ row (.atomOr k g i) 6 ∧ row (.atomXor k g i) 7 ∧ row (.atomSwap k g i) 8 ∧ row (.atomCas k g i) 9 ∧
      (s.Ready k g i (atomForm i [0x10, 0x11, 0x12, 0x13, 0x14, 0x15, 0x16, 0x17, 0x18] true) → goes → free →
        Answers (.red k g i) s fun t => ∃ v : State, t = v.issued k g false ∧ v.hbm = u.hbm ∧ v.host = u.host ∧
          v.lattice = u.lattice ++ sent false ∧ v.groups = u.groups) ∧
      vrow (.vredB32 k g i) 0x20 .redB32 ∧ vrow (.vredW16 k g i) 0x21 .redW16 ∧ vrow (.vredB16 k g i) 0x22 .redB16) ∧
     ∀ fm : OpForm,
       fm = { keys := [0x900], imm := false, modMask := 0xE0, ok := 1 ≤ memOrder i && memOrder i ≤ 4 && pl i 43 8 = 0, regs := [], inLock := false } →
       s.Ready k g i fm →
       (z.acquiring k g = false → z.fenced k g (memOrder i) = true → Answers (.fence k g i) s fun t => t = z.issued k g false) ∧
       (z.acquiring k g = true ∨ z.fenced k g (memOrder i) = false → Answers (.fence k g i) s fun t => t = z.notReady k g))

/-- Locked sequences (R194 to R196): asked for by a message to the home, acquired, ended with their stores written, and failed by a 65th instruction
or after 2 µs. Class SEQ (R197, R330, R333): an address entry enters its queue; a group waits for a signal on the module, or goes on at once, and
a wait on a peer's word is refused; an addition leaves the core. -/
def Obligations.LockedSequencesAndSeqRows : Prop :=
  ((∀ (s u : State) (k g ln va pa : Nat) (i : TInstr) (h : Shard) (r : List Nat) (e : Bool) (fm : OpForm),
     let x := s.group k g
     let z := s.touchFetch k g
     fm = { keys := [0xB00], imm := false, modMask := 0xFF, ok := pl i 12 0 = 0, regs := [(pl i 23 16, 2)], inLock := false } →
     s.Ready k g i fm → x.execLanes i = ln :: r → (z.core k).shard = some h → x.addr ln (pl i 23 16) 0 1 = some va → z.acquiring k g = false →
     z.translate (groupAccess h k g 2 va) = (u, some (.mem pa e)) →
     (pa < 8 * octantBytes →
      (∀ j, j < 4 → u.coreWrites k (4 * (pa / 512) + j) = false ∧ u.clash k g (va / 512 * 512 + 128 * j) = false) →
      Answers (.lockBegin k g i) s fun t => ∃ (v : State) (l : LockSt) (a : AtomMsg), t = v.issued k g false ∧
        v.groups = Tbl.set u.groups (64 * k + g) { u.group k g with lock := some l, wait := .lock } ∧
        v.lattice = u.lattice ++ [{ kind := "ATM", src := k, dst := homeNode (pa / 128), line := pa / 128, mask := 32 * g + ln, data := pa, atom := some a }] ∧
        a.op = .lock ∧ a.pa = pa ∧ a.group = g ∧ l.held = false ∧ l.line = pa / 512 ∧ l.pd = pl i 15 13 ∧ l.fail = x.pc + 8 * fTgt i ∧
        l.lanes = maskOf (x.execLanes i) ∧ l.active = x.active ∧ l.stack = x.stack ∧ l.count = 0 ∧ l.buf = [] ∧ v.hbm = u.hbm ∧ v.host = u.host) ∧
     (8 * octantBytes ≤ pa → Answers (.lockBegin k g i) s fun t => t = u.groupFault k g 0x0509)) ∧
   (∀ (s : State) (k g : Nat) (l : LockSt), isCore k = true → isGroup g = true → (s.group k g).lock = some l → l.held = false →
     s.running k = true → s.lockFree k g l.line = true →
     Answers (.lockAcquired k g) s fun t =>
       (t.group k g) = { s.group k g with lock := some { l with held := true, since := s.now }, wait := .none, preds := (t.group k g).preds } ∧
         (⟨l.line, k, g⟩ : HomeLock) ∈ t.hlocks ∧
         (∀ ln ∈ bitsOf 32 l.lanes, (t.group k g).pred ln l.pd = true) ∧
         ∀ ln q, (ln ∉ bitsOf 32 l.lanes ∨ q ≠ l.pd) → (t.group k g).pred ln q = (s.group k g).pred ln q) ∧
   (∀ (s : State) (k g : Nat) (i : TInstr) (fm : OpForm),
     fm = { keys := [0xB01], imm := false, modMask := 0, ok := i.payload = 0, regs := [], inLock := true } → s.Ready k g i fm →
     let x := s.group k g
     let z := s.touchFetch k g
     (∀ l, x.execLanes i ≠ [] → x.lock = some l → Answers (.lockEnd k g i) s fun t =>
       t = (((z.writeLock k l).setGroup k g { x with lock := none }).unlock k g).issued k g false) ∧
     ((x.execLanes i = [] ∨ x.lock = none) → Answers (.lockEnd k g i) s fun t => t = z.issued k g false)) ∧
   (∀ (s : State) (k g : Nat) (l : LockSt), isCore k = true → isGroup g = true → (s.group k g).lock = some l → l.held = true →
     l.active &&& (s.group k g).alive ≠ 0 → (∀ e ∈ l.stack, e.pc ≠ l.fail) →
     let failed := fun (t : State) => (t.group k g).lock = none ∧ (t.group k g).pc = l.fail ∧ (t.group k g).wait = .none ∧
       (t.group k g).active = l.active &&& (s.group k g).alive ∧ (t.group k g).regs = (s.group k g).regs ∧
       (∀ ln ∈ bitsOf 32 l.lanes, l.pd ≠ 7 → (t.group k g).pred ln l.pd = false) ∧
       (∀ m ∈ t.hlocks, ¬ (m.core = k ∧ m.group = g)) ∧ t.ctr (oLockFails k) = min (s.ctr (oLockFails k) + 1) (2 ^ 32 - 1)
     (64 ≤ l.count → s.canIssue k g = true → Answers (.lockInstrLimit k g) s failed) ∧
     Answers (.lockTimeout k g) s fun t => t.now = max s.now (l.since + 2000) ∧ failed t)) ∧
  (∀ (s : State) (k g : Nat) (i : TInstr) (h : Shard) (ln : Nat) (r : List Nat),
     let x := s.group k g
     let z := s.touchFetch k g
     (z.core k).shard = some h → x.execLanes i = ln :: r → z.acquiring k g = false →
     (∀ fm : OpForm, fm = { keys := [0xC00], imm := false, modMask := 0x1F, ok := true, regs := [(fA i, 2)], inLock := false } →
       s.Ready k g i fm →
       (¬ ((z.seq k).loaded = true ∧ h.seqDone = false ∧ z.isKind k (fMod i % 32) 2 = true) → Answers (.apush k g i) s fun t => t = z.groupFault k g 0x0508) ∧
       ((z.seq k).loaded = true → h.seqDone = false → z.isKind k (fMod i % 32) 2 = true → z.storesOut k = false →
        (z.queue k (fMod i % 32)).occ < (z.qdesc k (fMod i % 32)).depth →
        Answers (.apush k g i) s fun t => ∃ (v : State) (e : Entry), t = v.issued k g false ∧
          (v.queue k (fMod i % 32)).entries = (z.queue k (fMod i % 32)).put e ∧
          (∀ j, j < 32 → lane 64 j e.data = if j ∈ x.execLanes i then x.regN j (fA i) 2 % 2 ^ 64 else 0) ∧ e.token = 0 ∧ e.last = false ∧
          v.groups = z.groups ∧ v.hbm = z.hbm)) ∧
     ∀ (u : State) (va : Nat), x.addr ln (fA i) 0 8 = some va →
       let n := x.regN ln (fB i) 2
       (∀ fm : OpForm, fm = { keys := [0xC01], imm := false, modMask := 0, ok := true, regs := [(fA i, 2), (fB i, 2)], inLock := false } →
         s.Ready k g i fm →
         (∀ vx a, z.translate (groupAccess h k g 0 va) = (u, some (.peer vx a)) → Answers (.sigwait k g i) s fun t => t = u.failGroup k g 0x0B01) ∧
         ∀ pa e, z.translate (groupAccess h k g 0 va) = (u, some (.mem pa e)) → (∀ a ∈ u.watch, a.who ≠ .group k g) →
          let p := u.setGroup k g { u.group k g with wait := .sig va n }
          Answers (.sigwait k g i) s fun t => ∃ v : State, t = v.issued k g false ∧
            (p.sigReached h.ctx va n = true → (v.group k g).wait = .none) ∧
            (p.sigReached h.ctx va n = false →
              (v.group k g).wait = .sig va n ∧ ∃ a ∈ v.watch, a.who = .group k g ∧ a.value = n ∧ a.va = va)) ∧
       ∀ fm : OpForm, fm = { keys := [0xC02], imm := false, modMask := 0, ok := true, regs := [(fA i, 2), (fB i, 2)], inLock := false } →
         s.Ready k g i fm → u.fenced k g 4 = true →
         ((∃ pa e, z.translate (groupAccess h k g 1 va) = (u, some (.mem pa e))) ∨
          ∃ vx a slot, z.translate (groupAccess h k g 1 va) = (u, some (.peer vx a)) ∧ u.peerArc h.ctx vx = .ok slot) →
         Answers (.sigadd k g i) s fun t => t = ({ u with sigAdds := u.sigAdds ++
           [{ ctx := h.ctx, va := va, value := n, who := .core k, ring := h.ring, aseq := h.aseq }] } : State).issued k g false)

/-! ### Coherence -/

/-- Requests at a free home (R213, R214, R216, R218 to R220): without a holder to ask they are answered at once with a fill, a grant, a COMP or an
atomic's old value; with one, every holder is snooped and awaited. A LOCK.BEGIN waits at its home for LOCK_ACQUIRED (R194). What a message in flight
carries is what arrives (log entry 8). -/
def Obligations.RequestsAreAnswered : Prop :=
  (∀ (s v : State) (r : Agent) (line mask : Nat) (na : Bool), r.wf = true →
    let inst := (s.inFlight "RDSI" (agentNode r) line).isSome
    let a := s.arrive (if inst then "RDSI" else "RDS") (agentNode r) line
    v = (match r with
      | .core k => if na then a else a.pastEvn inst k line
      | _ => a) →
    v.HomeFree line (.rds r mask (na || (match r with | .core _ => false | _ => true)) inst) →
    (∀ o, v.ownerOf line = some o → (∀ k, r = .core k → o ≠ k ∨ inst = true ∨ na = true) →
      Answers (.rds r line mask na) s fun t => t.Flies "SNS" o line (fun _ => True) ∧ t.Awaits line [o]) ∧
    (∀ k, r = .core k → na = false → (v.ownerOf line = none ∨ v.ownerOf line = some k ∧ inst = false) →
      Answers (.rds r line mask na) s fun t =>
        t.Flies "FILL" k line (fun m => m.mask % 16 = mask % 16 ∧ m.mask.testBit 9 = inst) ∧ ∃ d ∈ t.tags line, d.core = k ∧ d.inst = inst) ∧
    (v.ownerOf line = none → (∀ k, r = .core k → na = true) →
      Answers (.rds r line mask na) s fun t =>
        t.Flies "FILL" (naNode r) line (fun m => m.mask % 16 = mask % 16) ∧ t.txOf line = none ∧ t.tags line = s.tags line)) ∧
  (∀ (s : State) (k line mask : Nat) (nodata : Bool), isCore k = true →
    let v := (s.arrive "RDU" k line).pastEvn false k line
    v.HomeFree line (.rdu k mask nodata) →
    (v.holders line (some k) ≠ [] → Answers (.rdu k line mask nodata) s fun t =>
      t.Awaits line (v.holders line (some k)) ∧ ∀ o ∈ v.holders line (some k), t.Flies "SNI" o line fun _ => True) ∧
    (v.holders line (some k) = [] → Answers (.rdu k line mask nodata) s fun t =>
      (nodata = false → t.Flies "FILL" k line fun m => m.mask % 16 = mask % 16 ∧ m.mask.testBit 8 = true) ∧
        (nodata = true → t.Flies "GRANT" k line fun _ => True) ∧ ∃ d ∈ t.tags line, d.core = k ∧ d.owned = true)) ∧
  (∀ (s : State) (k line : Nat), isCore k = true →
    let m := ((s.inFlight "UPG" k line).map fun m => m.mask).getD 15
    let v := s.arrive "UPG" k line
    v.HomeFree line (.upg k m) →
    (v.holders line (some k) ≠ [] → Answers (.upg k line) s fun t =>
      t.Awaits line (v.holders line (some k)) ∧ ∀ o ∈ v.holders line (some k), t.Flies "SNI" o line fun _ => True) ∧
    (v.holders line (some k) = [] →
      ((∃ d ∈ s.tags line, d.core = k ∧ d.inst = false) → Answers (.upg k line) s fun t => t.Flies "GRANT" k line fun _ => True) ∧
      ((∀ d ∈ s.tags line, d.core ≠ k ∨ d.inst = true) → Answers (.upg k line) s fun t =>
        t.Flies "FILL" k line fun x => x.mask % 16 = m % 16))) ∧
  (∀ (s v : State) (r : Agent) (pa mask bm : Nat) (data d : List Byte), r.wf = true →
    (match s.lattice.find? fun m => m.isIwr r pa && !m.here with
      | some m => v = { s with lattice := changeFirst (fun (m : LMsg) => m.isIwr r pa && !m.here) (fun m => { m with here := true }) s.lattice } ∧
          bm = 2 ^ (m.mask / 128) - 1 ∧ d = if data = [] then [] else leBytes (m.mask / 128) m.data
      | none => v = s ∧ bm = mask ∧ d = data.take (128 - pa % 128)) →
    let ks := v.holders (pa / 128) (match r with | .core k => some k | _ => none)
    v.HomeFree (pa / 128) (.iwr r pa bm d) →
    (d ≠ [] → ks = [] → Answers (.iwr r pa ⟨mask, data⟩) s fun t =>
      t.Flies "COMP" (agentNode r) (pa / 128) (fun _ => True) ∧ t.txOf (pa / 128) = none) ∧
    (ks ≠ [] ∨ d = [] → Answers (.iwr r pa ⟨mask, data⟩) s fun t =>
      t.Awaits (pa / 128) (ks ++ if d = [] then [1000] else []) ∧ ∀ o ∈ ks, t.Flies "SNI" o (pa / 128) fun _ => True)) ∧
  (∀ (s : State) (r : Agent) (pa bm : Nat) (data d : List Byte) (x : Tx), r.wf = true →
    d = (match s.lattice.find? fun m => m.isIwr r pa && m.here with
      | some m => leBytes (m.mask / 128) m.data
      | none => data.take (128 - pa % 128)) →
    d ≠ [] → s.txq = [] → s.txOf (pa / 128) = some x → x.req = .iwr r pa bm [] → x.await = [1000] → x.wbs = [] → x.granted = false →
    Answers (.wdata r pa data) s fun t => t.Flies "COMP" (agentNode r) (pa / 128) (fun _ => True) ∧ t.txOf (pa / 128) = none) ∧
  ∀ (s v : State) (r : Agent) (op : AtomOp) (pa w b c : Nat) (m : AtomMsg), r.wf = true →
    let found := (s.lattice.find? fun m => m.isAtm r pa).bind fun m => m.atom
    (match found with
      | some a => m = a ∧ v = { s with lattice := changeFirst (fun (m : LMsg) => m.isAtm r pa) (fun m => { m with here := true }) s.lattice }
      | none => op ≠ .lock ∧ v = s ∧ m = { op := op, pa := pa, width := w, b := b, c := c, va := 0, group := 0, lane := 0, ret := false, acq := false }) →
    let line := pa / 128
    let ks := v.holders line none
    (m.op ≠ .lock → (v.onHost pa = true → atomOnHost m.op = true) → v.HomeFree line (.atm r m) →
      (ks ≠ [] → Answers (.atm r op pa w b c) s fun t => t.Awaits line ks ∧ ∀ o ∈ ks, t.Flies "SNI" o line fun _ => True) ∧
      (ks = [] → Answers (.atm r op pa w b c) s fun t => t.txOf line = none ∧
        ((∀ k, r ≠ .core k) → t.Flies "COMP" (agentNode r) line fun _ => True) ∧
        ∀ k, r = .core k → found.isSome = true →
          (m.ret = true → t.Flies "ATMDAT" k line fun x => x.mask = 32 * m.group + m.lane) ∧ (m.ret = false → t.Flies "COMP" k line fun _ => True))) ∧
    ∀ k, r = .core k → m.op = .lock → v.HomeFree (4 * (pa / 512)) (.lock k m.group) →
      Answers (.atm r op pa w b c) s fun t => t.txq = v.txq ++ [(4 * (pa / 512), .lock k m.group)]

/-- Answers and write-backs at a home (R212, R213, R215, R217, R218, R220): duplicate tags are brought up to date, awaited answers are ticked off, and
the last one lets the home answer. An EVN whose eviction the home knew of changes no tag. -/
def Obligations.AnswersReachTheHome : Prop :=
  (∀ (s : State) (k line : Nat), isCore k = true → Answers (.wb k line) s fun t =>
    (∀ d, d ∈ t.tags line ↔ d ∈ s.tags line ∧ (d.core ≠ k ∨ d.inst = true)) ∧ (∀ l, l ≠ line → t.tags l = s.tags l) ∧ t.tx = s.tx) ∧
  (∀ (s : State) (k line : Nat) (inst : Bool), isCore k = true →
    let m := s.lattice.find? fun m => m.isEvn inst k line
    let known := match m with
      | some m => m.here
      | none => (s.l1Find inst k line).isSome
    Answers (.evn k line inst) s fun t =>
      (known = false → ∀ d, d ∈ t.tags line ↔ d ∈ s.tags line ∧ (d.core ≠ k ∨ d.inst ≠ inst)) ∧ (known = true → t.tags line = s.tags line) ∧
        (∀ l, l ≠ line → t.tags l = s.tags l) ∧ (t.core k).evns = dropFirst (fun x => x = line) (s.core k).evns ∧
        t.lattice = dropFirst (fun m => m.isEvn inst k line) s.lattice) ∧
  (∀ (s : State) (k line mask : Nat) (data : List Byte), isCore k = true → s.txq = [] → s.txOf line = none →
    Answers (.wbdat k line mask data) s fun t => t.Flies "WB-ACK" k line (fun _ => True) ∧ t.tags line = s.tags line) ∧
  (∀ (s : State) (k line mask : Nat) (data : List Byte), isCore k = true → s.txOf line = none → Answers (.snpdat k line mask data) s fun t =>
    let c := s.carried "SNPDAT" k line mask data
    t = (((s.arrive "SNPDAT" k line).mergeSectors ((s.arrive "SNPDAT" k line).corePart k) line (c.1 % 16) c.2 (c.1 / 16)).edge
      (k / 12) (homeDie (128 * line)) (32 * popcount 4 c.1))) ∧
  (∀ (s : State) (k line : Nat) (x : Tx), isCore k = true → s.txq = [] → s.txOf line = some x → x.granted = false → k ∈ x.await →
    let left := x.await.filter fun j => j ≠ k
    (Answers (.ackInv k line) s fun t =>
      (left ≠ [] → t.Awaits line left ∧ ∀ d ∈ t.tags line, d.core ≠ k) ∧
      (left = [] → x.wbs = [] → ∀ j mask, x.req = .rdu j mask false → t.Flies "FILL" j line fun m => m.mask % 16 = mask % 16)) ∧
    (Answers (.notPresent k line) s fun t =>
      (left ≠ [] → t.Awaits line left ∧ ∀ d ∈ t.tags line, d.core ≠ k) ∧
      (left = [] → x.wbs = [] → ∀ j mask, x.req = .rdu j mask false → t.Flies "FILL" j line fun m => m.mask % 16 = mask % 16)) ∧
    (Answers (.ackShr k line) s fun t =>
      (left ≠ [] → t.Awaits line left ∧ ∀ d ∈ t.tags line, d.core = k → d.owned = false) ∧
      (left = [] → x.wbs = [] → ∀ j mask i, x.req = .rds (.core j) mask false i → t.Flies "FILL" j line fun m => m.mask % 16 = mask % 16)) ∧
    (Answers (.wbPending k line) s fun t =>
      t.ctr oWbPendingRsp = min (s.ctr oWbPendingRsp + 1) (2 ^ 64 - 1) ∧
      ((s.inFlight "WBDAT" k line).isSome = true → k ∉ x.wbs → ∃ y, t.txOf line = some y ∧ y.await = left ∧ y.wbs = x.wbs ++ [k] ∧ y.granted = false) ∧
      ((s.inFlight "WBDAT" k line).isSome = false → left ≠ [] → t.Awaits line left))) ∧
  (∀ (s : State) (k line : Nat), isCore k = true → s.txq = [] → Answers (.compAck k line) s fun t =>
    t.tx = s.tx.filter fun y => !(y.line = line && y.granted && y.req.agent = Agent.core k)) ∧
  ∀ (s : State) (r : Agent) (line : Nat), r.wf = true → Answers (.comp r line) s fun t =>
    t.lattice = (dropFirst (fun m => m.kind = "COMP" && m.dst = agentNode r && m.line = line) s.lattice) ∧
      ∀ k g st, r = .mover k g → s.stream k g = some st → t.stream k g = some { st with acks := st.acks - 1 }

/-- What an L1 does with what comes (R211, R216, R217, R220, R224): snoops are answered by the state of the line; a grant makes it exclusive; a fill
brings its sectors and their poison; an L1 that allocates nothing keeps none of them; an acknowledged write-back leaves its buffer. -/
def Obligations.L1sAnswer : Prop :=
  (∀ (s : State) (k line : Nat) (l : L1Line), isCore k = true → s.l1Find false k line = some l →
    (Answers (.sni k line) s fun t => t.l1Find false k line = none ∧ t.l1Find true k line = none ∧
      t.Flies "ACK-INV" (homeNode line) line (fun m => m.src = k) ∧
      (l.dirty ≠ 0 → t.Flies "SNPDAT" (homeNode line) line fun m => m.src = k ∧ m.mask = l.dirty + 16 * l.poison ∧ m.data = l.data)) ∧
    (Answers (.sns k line) s fun t => t.l1Find false k line = some { l with st := 1, dirty := 0 } ∧
      t.Flies "ACK-SHR" (homeNode line) line (fun m => m.src = k) ∧
      (l.dirty ≠ 0 → t.Flies "SNPDAT" (homeNode line) line fun m => m.src = k ∧ m.mask = l.dirty + 16 * l.poison ∧ m.data = l.data))) ∧
  (∀ (s : State) (k line : Nat), isCore k = true → s.l1Find false k line = none →
    let own := (s.core k).wbb.any fun w => w.1 = line
    let held := (s.l1Find true k line).isSome
    let kind := fun ack => if own then "WB-PENDING" else if held then ack else "NOT-PRESENT"
    (Answers (.sni k line) s fun t => t.Flies (kind "ACK-INV") (homeNode line) line (fun m => m.src = k) ∧ t.l1Find true k line = none) ∧
    (Answers (.sns k line) s fun t => t.Flies (kind "ACK-SHR") (homeNode line) line (fun m => m.src = k) ∧
      t.l1Find true k line = s.l1Find true k line)) ∧
  (∀ (s : State) (k line : Nat), isCore k = true →
    (s.l1On false k = true → (s.l1Install false k line 2).isSome = true → Answers (.grant k line) s fun t =>
      (∃ l, t.l1Find false k line = some l ∧ 2 ≤ l.st) ∧ t.Flies "COMP-ACK" (homeNode line) line fun m => m.src = k) ∧
    (s.l1On false k = false → Answers (.grant k line) s fun t =>
      (s.l1Find false k line = none → t.l1Find false k line = none ∧ t.Flies "EVN" (homeNode line) line fun m => m.src = k) ∧
        t.Flies "COMP-ACK" (homeNode line) line fun m => m.src = k)) ∧
  (∀ (s : State) (k line mask mk v : Nat) (excl ex inst : Bool) (data : List Byte), isCore k = true →
    (match s.fillTo inst k line with
      | some m => mk = m.mask % 256 ∧ v = m.data ∧ ex = m.mask.testBit 8
      | none => mk = mask % 16 ∧ v = leNat data ∧ ex = excl) →
    (s.l1On inst k = true → (s.l1Install inst k line (if ex then 2 else 1)).isSome = true → (s.core k).stores = [] →
      Answers (.fill k line mask excl inst data) s fun t =>
        (∃ l, t.l1Find inst k line = some l ∧ (∀ i, i < 4 → mk.testBit i = true → l.valid.testBit i = true) ∧
          (s.l1Find inst k line = none → (l.st = if ex = true ∧ inst = false then 2 else 1) ∧ l.dirty = 0 ∧ ∀ i, i < 4 → mk.testBit i = true →
            lane 256 i l.data = lane 256 i v ∧ l.poison.testBit i = mk.testBit (4 + i))) ∧
        t.Flies "COMP-ACK" (homeNode line) line fun m => m.src = k) ∧
    (s.l1On inst k = false → s.l1Find inst k line = none → Answers (.fill k line mask excl inst data) s fun t =>
      t.l1Find inst k line = none ∧ t.Flies "EVN" (homeNode line) line (fun m => m.src = k) ∧
        t.Flies "COMP-ACK" (homeNode line) line fun m => m.src = k)) ∧
  ∀ (s : State) (k line : Nat), isCore k = true → (s.core k).stores = [] → Answers (.wbAck k line) s fun t =>
    (t.core k).wbb = dropFirst (fun w => w.1 = line) (s.core k).wbb ∧ t.l1d = s.l1d

/-! ### Writes with an effect of their own -/

/-- The rows of the table that are a WRITE of one kind of object, where every check passes (R28): the response is OK, the object has its effect on the
state that serves the request, and the rest of that state is as before. A change of a channel's owner leaves the region layouts before it in effect
where they must stay (R237). -/
def Obligations.WriteRowsTakeEffect : Prop :=
  ∀ (s : State) (w : Who) (c : Sess),
    let one := fun (cmd : Instr) (key : Nat) (d : List Byte) (f : State → State) =>
      s.Takes w key d c → Answers cmd s fun t => t.Accepted w ∧ (f (s.forRequest c (writeOf w key d))).RepliedFrom t
    let all := fun (cmd : Instr) (l : List (Nat × List Byte)) (f : State → State) =>
      s.TakesAll w l c → Answers cmd s fun t => t.Accepted w ∧ (f (s.forRequest c (allOf w l))).RepliedFrom t
    (∀ ca, ca.wf = true → one (.cacheDrain w ca) (ctrlKey ca) [1] (·.cacheDrain ca) ∧ one (.cacheDiscard w ca) (ctrlKey ca) [2] (·.cacheDiscard ca) ∧
      one (.cacheEnable w ca) (ctrlKey ca) [0] (·.cacheEnable ca)) ∧
    (∀ d (ms : List (Nat × Nat)), isDie d = true → (ms.all fun m => isPart m.1) = true →
      all (.waymask w d ms) (ms.map fun m => (oWaymask d m.1, leBytes 2 m.2))
        (fun s => ms.foldl (fun s m => s.setWaymasks d [(m.1, m.2 % 2 ^ 16)]) s) ∧
      all (.tlbSetmask w d ms) (ms.map fun m => (oTlbSetmask d m.1, leBytes 2 m.2))
        (fun s => ms.foldl (fun s m => s.setTlbMasks d [(m.1, m.2 % 2 ^ 16)]) s)) ∧
    (∀ cs : List (Nat × Nat), (cs.all fun e => isChan e.1) = true →
      all (.chanOwner w cs) (cs.map fun e => (kChanOwner e.1, leBytes 1 e.2)) (fun s =>
        let u := cs.foldl (fun s e => s.giveChan e.1 (e.2 % 256)) s
        let ls := s.layoutsBefore (cs.map fun e => (kChanOwner e.1, e.2 % 256))
        if ls = [] then u else u.relayout ls)) ∧
    (∀ ms : List (Nat × Nat), (ms.all fun m => isPart m.1) = true →
      all (.coreMask w ms) (ms.map fun m => (oCoreMask m.1, leBytes 12 m.2))
        (fun s => ms.foldl (fun s m => s.setCoreMasks [(m.1, m.2 % 2 ^ 96)]) s)) ∧
    (∀ vs : List Nat, all (.routeSet w vs) (vs.map fun v => (oRouteSet, leBytes 8 v)) (fun s => vs.foldl (fun s v => s.setRoute (v % 2 ^ 64)) s)) ∧
    (∀ p v, isPart p = true → one (.teardown w p v) (oTeardown p) (leBytes 1 v) fun s => if v % 256 = 1 then s.teardown p else s) ∧
    (∀ slot v, slot < 16 → one (.credKey w slot v) (oCredKey slot) v (·.put (oCredKey slot) (leNat v))) ∧
    (∀ v, one (.svnCommit w v) oSvnCommit (leBytes 2 v) (·.put oSvnFused (v % 2 ^ 16))) ∧
    (∀ fn v, isFn fn = true → one (.ctlEnable w fn v) (oCtlEnable fn) (leBytes 1 v) (·.setCtlEnable fn (v % 256))) ∧
    (∀ i m, isChord i = true → one (.members w i m) (oMembers i) (leBytes 18 m) (·.setMembers i (m % 2 ^ 144)) ∧
      one (.mgmtArrive w i m) (oMgmtArrive i) (leBytes 1 m) fun s => (s.arriveChord i (130 + m % 256)).getD s) ∧
    (∀ l, isLink l = true → one (.linkDrain w l) (oLinkCtrl l) [1] (·.linkCtrl l 1) ∧ one (.linkResume w l) (oLinkCtrl l) [2] (·.linkCtrl l 2) ∧
      one (.linkRetrain w l) (oLinkCtrl l) [3] (·.linkCtrl l 3)) ∧
    (∀ d x, isDie d = true → isSite x = true → one (.siteClear w d x) oSiteClear (leBytes 4 (d * 2 ^ 29 + x * 2 ^ 20)) (·.siteClear d x)) ∧
    (∀ v, one (.traceEnable w v) oTraceEnable (leBytes 1 v) (·.traceEnable (v % 256)) ∧
      one (.traceCons w v) oTraceCons (leBytes 4 v) (·.setTraceCons (v % 2 ^ 32)) ∧
      one (.identify w v) oIdentify (leBytes 2 v) (·.setIdentify (v % 2 ^ 16))) ∧
    (∀ i v, i < 384 → one (.watchCfg w i v) (oWatchCfg i) (leBytes 8 v) (·.setWatchCfg i (v % 2 ^ 64))) ∧
    one (.startWarm w) oStartReq [1] (·.startReq 1) ∧ one (.startCold w) oStartReq [2] (·.startReq 2) ∧
    one (.startExtendedCold w) oStartReq [3] (·.startReq 3) ∧ one (.stop w) oStartReq [4] (·.startReq 4)

/-! ### Caches, channels, sites and translation -/

/-- CACHE_DRAINED, WAYMASK_RECLAIM_DONE, CHANNEL_CLEAR_DONE and BUCKET_ADMIT (R209, R224, R237, R238, R240): a drained cache holds no line; ways and
channels are in service again, and a layout stays in effect only while a channel of its region is being cleared; the longest-waiting request of an
open bucket goes on, and its wait is counted. -/
def Obligations.CachesAndRegionsSettle : Prop :=
  (∀ (s : State) (ca : CacheId), ca.wf = true → s.ctr (statusKey ca) = 1 → Answers (.cacheDrained ca) s fun t =>
    t.ctr (statusKey ca) = 2 ∧ (∀ k, ca = .l1d k → ∀ line, t.l1Find false k line = none) ∧ (∀ k, ca = .l1i k → ∀ line, t.l1Find true k line = none) ∧
      ∀ d x, ca = .slice d x → (∀ e ∈ t.dc, e.1 / 8192 = 6 * d + x → e.2 = []) ∧ Tbl.get [] t.victim (6 * d + x) = []) ∧
  (∀ (s : State) (d : Nat), isDie d = true → s.ctr (oWaymaskState d) = 1 → Answers (.waymaskReclaimDone d) s fun t =>
    t.ctr (oWaymaskState d) = 0 ∧ Tbl.get 0 t.reclaim d = 0 ∧ t.dc = s.dc ∧ t.hbm = s.hbm) ∧
  (∀ (s : State) (c : Nat), isChan c = true → s.chanState c = csClearing → s.txq = [] → Answers (.channelClearDone c) s fun t =>
    t.chanState c = (s.chanU c).was ∧
      (∀ e, e ∈ t.layout ↔ e ∈ s.layout ∧ ∃ i, i < 192 ∧ t.chanOwner (192 * (e.1 / 32) + i) = e.1 % 32 ∧
        (t.chanState (192 * (e.1 / 32) + i) = csClearing ∨ t.chanState (t.served (192 * (e.1 / 32) + i)) = csClearing)) ∧
      ((∀ j, j < 6 → Tbl.get [] s.victim (6 * (c / 192) + j) = []) → t.hbm = s.hbm)) ∧
  ∀ (s : State) (p d x : Nat) (w : BWait), isPart p = true → isDie d = true → isSlice x = true →
    ((s.bucketQ.find? fun w => w.bucket = latticeBucket d p) = some w → (s.bucketRate (latticeBucket d p) = 0 ∨ 0 < s.bucketLevel (latticeBucket d p)) →
      Answers (.bucketAdmit (.lattice p d)) s fun t =>
        t.bucketQ = dropFirst (fun y => y.bucket = latticeBucket d p) s.bucketQ ∧
          t.ctr (oThrottledNs p) = min (s.ctr (oThrottledNs p) + (s.now - w.since)) (2 ^ 64 - 1) ∧
          ∀ r pa n wr, w.req = .unit r pa n wr → (r, pa, n) ∈ t.admitted) ∧
    ((s.bucketQ.find? fun w => w.bucket = sliceBucket (6 * d + x) p) = some w →
      (s.bucketRate (sliceBucket (6 * d + x) p) = 0 ∨ 0 < s.bucketLevel (sliceBucket (6 * d + x) p)) →
      Answers (.bucketAdmit (.slice p d x)) s fun t => t.ctr (oThrottledNs p) = min (s.ctr (oThrottledNs p) + (s.now - w.since)) (2 ^ 64 - 1))

/-- Channels of the stacked memory (R241 to R245, R247): interface errors, each pseudo-channel by itself, and the writes that are held or wait; the scrub;
the end of a migration with its bytes; and training slots, for whose end parity retries wait. -/
def Obligations.ChannelsServe : Prop :=
  ∀ (s : State) (c pc : Nat), isChan c = true → isPseudo pc = true →
    let key := oParityRetries (c / 32)
    let more := fun (t : State) (n : Nat) => t.ctr key = min (s.ctr key + n) (2 ^ 32 - 1)
    let now := fun (t : State) => Tbl.get 0 (t.chanU c).suspect pc = s.now
    ((s.chanU c).trainHeld = true → ∀ e : ParityCase, e.onPseudo pc = true → Answers (.hbmParityError c pc e) s fun t =>
      t = { s with chan := Tbl.set s.chan c { s.chanU c with retries := (s.chanU c).retries ++ [(pc, e)] } }) ∧
    ((s.chanU c).trainHeld = false →
      (∀ n, Answers (.hbmParityError c pc (.recovered n)) s fun t => more t n ∧ t.chan = s.chan) ∧
      (Answers (.hbmParityError c pc .retrained) s fun t => more t 5 ∧ now t) ∧
      (∀ w, (ParityCase.readFails w).onPseudo pc = true → Answers (.hbmParityError c pc (.readFails w)) s fun t =>
        more t 6 ∧ now t ∧ w ∈ (t.chanU c).fails) ∧
      ∀ w data, (ParityCase.writeFails w data).onPseudo pc = true →
        let u := s.exhausted c pc 6
        (s.chanBase c ≠ csDegraded → (∀ h ∈ (u.chanU c).held ++ (u.chanU c).waiting, h.1 ≠ w) →
          ((u.chanU c).held.length < 63 → Answers (.hbmParityError c pc (.writeFails w data)) s fun t =>
            more t 6 ∧ (t.chanU c).held = (u.chanU c).held ++ [(w, leNat data)]) ∧
          (64 ≤ (u.chanU c).held.length → Answers (.hbmParityError c pc (.writeFails w data)) s fun t =>
            more t 6 ∧ (t.chanU c).held = (u.chanU c).held ∧ (t.chanU c).waiting = (u.chanU c).waiting ++ [(w, leNat data)])) ∧
        (s.chanBase c = csDegraded → Answers (.hbmParityError c pc (.writeFails w data)) s fun t =>
          more t 6 ∧ t.ctr (oUncorrected (c / 32)) = min (u.ctr (oUncorrected (c / 32)) + 1) (2 ^ 32 - 1))) ∧
    (s.chanState c = csSuspect → ∀ a b : Nat × Nat,
      ((s.chanU c).suspect = [a] → Answers (.suspectExpire c) s fun t =>
        t.chanState c = csService ∧ (t.chanU c).suspect = [] ∧ t.now = max s.now (a.2 + 86400000000000)) ∧
      ((s.chanU c).suspect = [a, b] → a.1 ≠ b.1 → a.2 ≤ b.2 → Answers (.suspectExpire c) s fun t =>
        t.chanState c = csSuspect ∧ (t.chanU c).suspect = [b] ∧ t.now = max s.now (a.2 + 86400000000000))) ∧
    (∀ e, s.chanState c ≠ csTraining → s.chanState c ≠ csMigrating → s.chanState c ≠ csClearing →
      Answers (.patrolScrub c e) s fun t => (t.chanU c).patrol = (s.chanU c).patrol + 1 ∧
        (e = .corrected → t.ctr (oCorrected (c / 32)) = min (s.ctr (oCorrected (c / 32)) + 1) (2 ^ 32 - 1)) ∧
        (e = .uncorrectable → t.ctr (oUncorrected (c / 32)) = min (s.ctr (oUncorrected (c / 32)) + 1) (2 ^ 32 - 1)) ∧
        (e = .clean → t.hbm = s.hbm ∧ t.poison = s.poison)) ∧
    (∀ e, s.chanState c = csTraining ∨ s.chanState c = csMigrating ∨ s.chanState c = csClearing → Answers (.patrolScrub c e) s fun t => t = s) ∧
    (s.chanState c = csMigrating → (s.chanU c).held = [] → (s.chanU c).waiting = [] → (s.chanU c).target ≠ c → Tbl.get [] s.victim (c / 32) = [] →
      s.txq = [] → Memory.wf s.hbm = true → Answers (.channelMigrationDone c) s fun t =>
        t.chanState c = csRetired ∧ t.chanRemap c = (s.chanU c).target % 192 ∧
          ∀ a, a < 2 ^ 31 → Memory.byte t.hbm ((s.chanU c).target * 2 ^ 31 + a) = Memory.byte s.hbm (c * 2 ^ 31 + a)) ∧
    ∀ d, isDie d = true →
      let tr := Tbl.get TrainSlot.reset s.train d
      (∀ i, s.nat oTrainSlotPeriod ≠ 0 → tr.chan = none →
        (((List.range 192).map fun i => (tr.next + i) % 192).find? fun i => !s.trainSkips (192 * d + i)) = some i →
        Answers (.trainSlot d) s fun t =>
          Tbl.get TrainSlot.reset t.train d = ⟨(i + 1) % 192, some (192 * d + i), s.chanState (192 * d + i)⟩ ∧
            (t.chanU (192 * d + i)).trainHeld = true ∧ t.chanState (192 * d + i) = csTraining) ∧
      (∀ x m, tr.chan = some x → isChan x = true → s.txq = [] → (s.chanU x).retries = [] → s.val (oHbmMargin d (x % 192)) = none →
        s.chanState x = csTraining → Answers (.trainSlotEnd d m) s fun t =>
          (Tbl.get TrainSlot.reset t.train d).chan = none ∧ (t.chanU x).trainHeld = false ∧ t.chanState x = tr.was ∧
            t.ctr (oHbmMargin d (x % 192)) = twos 32 m) ∧
      ∀ x, tr.chan = some x → isChan x = true → Answers (.trainSlotAbandon d) s fun t =>
        (Tbl.get TrainSlot.reset t.train d).chan = none ∧ (t.chanU x).trainHeld = false ∧ (t.chanU x).retries = [] ∧
          t.ctr oTrainSlotAbandoned = min (s.ctr oTrainSlotAbandoned + 1) (2 ^ 32 - 1)

/-- Error sites and units that return STALE (R242, R396, R397, R399, R400, R403): an event counts in its site's window; an action begins and ends as the
site's kind has it; a unit that is cleared serves again, and one whose clear failed stays STALE.
LEDGER_COMMIT and TREND_RECORD (R393, R405): the totals and minima as they stand are in flash; a die's record joins its trend, and its minima
begin again. -/
def Obligations.SitesAndLedgerCount : Prop :=
  ((∀ (s : State) (d x : Nat), isDie d = true → isSite x = true →
     let w := Tbl.get SiteW.reset s.sites (512 * d + x)
     let b := w.buckets
     let act := fun (t : State) => bits 60 56 (t.ctr (oSite d x))
     (∀ e at_, let h := s.eccHits d x e at_
       let u := (h.eccCount d x e).siteError d x e
       (h.siteState d x = 2 ∨ u.siteState d x ≠ 2 ∨ atOnce x = false) →
       Answers (.siteEvent d x ⟨e, at_⟩) s fun t => t = u ∧
         bits 55 40 (t.ctr (oSite d x)) = min ((setNth b 0 (b.getD 0 0 + evWeight e (s.window d x).2)).foldl (· + ·) 0) 65535) ∧
     (Answers (.siteBucketRoll d x) s fun t =>
       (Tbl.get SiteW.reset t.sites (512 * d + x)).buckets = (0 :: b).take 16 ∧
         (s.siteState d x = 1 → ((0 :: b).take 16).foldl (· + ·) 0 = 0 → t.siteState d x = 0)) ∧
     (s.siteState d x = 2 → w.acting = false → s.permitted d x = true → s.siteUnitFree d x = true →
       (siteKind x = 2 → Answers (.siteActionBegin d x) s fun t =>
         (Tbl.get SiteW.reset t.sites (512 * d + x)).acting = true ∧ t.ctr (oWaymaskState d) = 1 ∧
           (t.ctr (oWaysRetired (6 * d + (x - 96) / 16))).testBit ((x - 96) % 16) = true) ∧
       (siteKind x ≠ 0 → siteKind x ≠ 2 → siteKind x ≠ 3 → Answers (.siteActionBegin d x) s fun t =>
         t = { s with sites := Tbl.set s.sites (512 * d + x) { w with acting := true } })) ∧
     (s.siteState d x = 2 → w.acting = true →
       (siteKind x = 1 → w.used < 4 → Answers (.siteActionDone d x) s fun t => t.siteState d x = 0 ∧ act t = 3) ∧
       (siteKind x = 1 → 4 ≤ w.used → Answers (.siteActionDone d x) s fun t => t.siteState d x = 3 ∧ act t = 10 ∧
         t.ctr (oCoreState (12 * d + (x - 48) / 4)) = 2) ∧
       (siteKind x = 2 → Answers (.siteActionDone d x) s fun t => t.siteState d x = 3 ∧ act t = 5) ∧
       (siteKind x = 4 → Answers (.siteActionDone d x) s fun t => t.siteState d x = 3 ∧ act t = 6) ∧
       (siteKind x = 5 → Answers (.siteActionDone d x) s fun t => t.siteState d x = 3 ∧ act t = 7 ∧ t.ctr (oCeState (4 * d + (x - 396))) = 4) ∧
       (siteKind x = 6 → Answers (.siteActionDone d x) s fun t => t.siteState d x = 3 ∧ act t = 8))) ∧
   (∀ (s : State) (k : Nat), isCore k = true → s.ctr (oCoreState k) = 1 →
     ((s.cluster (k / 4)).gated = false → Answers (.staleClearDone k true) s fun t =>
       t.ctr (oCoreState k) = 0 ∧ (∀ g, g < 64 → t.group k g = Group.reset) ∧ t.seq k = Seq.reset ∧ ∀ line, t.l1Find false k line = none) ∧
     (Answers (.staleClearDone k false) s fun t => t.ctr (oCoreState k) = 1)) ∧
   (∀ (s : State) (a : Nat), isArray a = true → s.ctr (oArrayState a) = 3 →
     (Answers (.staleClearDone (0x1000 + a) true) s fun t => t.ctr (oArrayState a) = 0 ∧ (t.array a).vecs = [] ∧ (t.array a).ops = []) ∧
     (Answers (.staleClearDone (0x1000 + a) false) s fun t => t.ctr (oArrayState a) = 3)) ∧
   ∀ (s : State) (e : Nat), isCe e = true → s.ctr (oCeState e) = 3 →
     (Answers (.staleClearDone (0x100 + e) true) s fun t => t.ctr (oCeState e) = 0 ∧ ∀ x ∈ t.tlbs, x.unit ≠ tlbCe e) ∧
     (Answers (.staleClearDone (0x100 + e) false) s fun t => t.ctr (oCeState e) = 3)) ∧
  ((∀ s : State, s.ctr oLedgerState ≠ 2 → Answers .ledgerCommit s fun t =>
     t = { s with now := (s.now / 600000000000 + 1) * 600000000000, ledger := s.obj.filter fun e => inLedger e.1 }) ∧
   (∀ s : State, s.ctr oLedgerState = 2 → Answers .ledgerCommit s fun t => t.ledger = s.ledger ∧ t.obj = s.obj) ∧
   ∀ (s : State) (d : Nat), isDie d = true → Answers (.trendRecord d) s fun t =>
     let u := s.atTime (s.now + (86400 - s.lifeSec d % 86400) * 1000000000)
     t.now = u.now ∧ Tbl.get [] t.trend d = (u.trendRecord d :: Tbl.get [] s.trend d).take 4096 ∧
       (∀ f ∈ trendFields d, t.nat f.1 = 0) ∧ ∀ e, e ≠ d → Tbl.get [] t.trend e = Tbl.get [] s.trend e)

/-- Walks and translation faults (R251, R257, R258, R260 to R264): a finished walk fills the requester's translation cache or raises a fault, and one whose
table line is held up keeps its place; a fault's record goes into its context's fault ring; a replay walks again; a cancel, and a timeout, put the
context into ERROR. -/
def Obligations.FaultsAreServed : Prop :=
  (∀ (s u : State) (d hw : Nat) (a : Access) (l : List Access) (c : Ctx) (r : WalkRes), isDie d = true → a.engine < 288 →
    s.walkPages d = a :: l → s.ctxOf a.ctx = some c → c.hw = some hw →
    let at_ := (((s.walks.filter fun w => w.die = d && samePage w.acc a).head?).bind fun w => w.at_).getD (4, c.root)
    s.walkFrom (engineAgent a.engine) a.va at_.2 at_.1 = (u, r) →
    Answers (.walkComplete d) s fun t =>
      (∀ size e, r = .leaf size e → ∃ x ∈ t.tlbs, x.unit = engineTlb a.engine ∧ x.slot = hw ∧ x.size = size ∧
        x.vpn = a.va / 2 ^ pageShift size ∧ x.leaf = e) ∧
      (∀ kind level e, r = .fault kind level e → ∃ f ∈ t.faults, f.die = engineDie a.engine ∧ samePage f.acc a = true) ∧
      ((∀ levels table, r ≠ .busy levels table) →
        t.walks = (u.walks.filter fun w => !(w.die = d && samePage w.acc a)) ∧ t.ctr oWalks = min (u.ctr oWalks + 1) (2 ^ 64 - 1)) ∧
      ∀ levels table, r = .busy levels table → l = [] →
        t = { u with walks := u.walks.map fun (w : Walk) => if w.die = d && samePage w.acc a then { w with at_ := some (levels, table) } else w }) ∧
  (∀ (s : State) (d key : Nat) (f : TFault), isDie d = true →
    (s.faults.find? fun f => f.die = d && f.outstanding && !f.recorded && (s.faultRing f.acc.ctx).isSome) = some f →
    s.faultRing f.acc.ctx = some key →
    let r := s.ring key
    let seq := (r.fseq + 1) % 2 ^ 32
    Answers (.faultRecordWrite d) s fun t =>
      Memory.num t.host (hostKey (r.fn / 16) (r.base + 64 * (r.prod % 2 ^ r.log2))) 64 =
          faultRec { f with time := f.time - s.timeZero } seq % 2 ^ 512 ∧
        (t.ring key).prod = (r.prod + 1) % 2 ^ 32 ∧ ∃ g ∈ t.faults, g.recorded = true ∧ g.seq = seq ∧ g.acc = f.acc) ∧
  (∀ (s : State) (fn page v key : Nat), isFn fn = true → s.up = true → s.ringAt fn page = some key → (s.ring key).kind = 5 →
    let replay := fun (c : Instr) => Answers c s fun t => ∀ f ∈ s.faults, s.replayed (s.handle 8 (key % 65536)) (bits 31 0 v) f = true →
      ∃ w ∈ t.walks, w.die = f.die ∧ samePage w.acc f.acc = true ∧ w.at_ = none
    let cancel := fun (c : Instr) => Answers c s fun t => ∀ f ∈ s.faults, s.replayed (s.handle 8 (key % 65536)) (bits 31 0 v) f = true →
      (t.ctx (hSlot f.acc.ctx)).error = true
    (bits 62 32 v = 0 → bit 63 v = false → replay (.faultReplay fn page v) ∧ replay (.faultCancel fn page v)) ∧
    (bits 62 32 v = 0 → bit 63 v = true → cancel (.faultReplay fn page v) ∧ cancel (.faultCancel fn page v)) ∧
    (bits 62 32 v ≠ 0 → Answers (.faultReplay fn page v) s fun t => t = s.bump 4 oDoorbellErrors 1)) ∧
  ∀ (s : State) (d seq by_ : Nat) (f : TFault), isDie d = true → s.firstLate d seq = some (f, by_) →
    Answers (.faultTimeout d seq) s fun t =>
      t.now = max s.now by_ ∧ (t.ctx (hSlot f.acc.ctx)).error = true ∧ t.ctr oFaultTimeouts = min (s.ctr oFaultTimeouts + 1) (2 ^ 32 - 1) ∧
        ∀ c, s.ctxOf f.acc.ctx = some c → by_ = f.acc.since.getD f.time + c.timeout

/-! ### Rings and commands -/

/-- The indexes of rings (R276, R278, R316, R318): PROD moves within the ring's free space and lets a ring resume, CONS within the records not yet
consumed, which lets a reconciliation that waited for room go on; any other write is counted in DOORBELL_ERRORS and changes neither, and a write to a
page of no ring, or to the index that the module writes, does nothing.
The way of a command through its ring (R277, R282, R283, R289, R293, R296, R305 to R308): it is fetched and checked; accepted with the next ASEQ
and an ACCEPT record; a NOP that nothing is wrong with is consumed without either; a parked context becomes resident; a command that waits too long
ends; and the first command's terminal record leaves the ring, with its completion signal after it. -/
def Obligations.RingsAndTheirCommands : Prop :=
  (∀ (s : State) (fn page v key : Nat), isFn fn = true → s.up = true →
     (page ≠ 0 → s.ringAt fn page = none → Answers (.prodWrite fn page v) s fun t => t = s) ∧
     (s.ringAt fn page = none → Answers (.consWrite fn page v) s fun t => t = s) ∧
     (s.ringAt fn page = some key →
       let r := s.ring key
       let u := s.setRing key { r with cons := v % 2 ^ 32 }
       let waits := fun (e : Nat × Ring) => e.2.live = true ∧ e.2.kind < 4 ∧ compKey e.2 = key ∧ e.2.recon = true
       (page ≠ 0 → r.kind < 4 →
         (moves r.prod v (2 ^ r.log2 - ringUsed r.prod r.cons) = true →
           Answers (.prodWrite fn page v) s fun t => t = s.setRing key { r with prod := v % 2 ^ 32, resumed := true }) ∧
         (moves r.prod v (2 ^ r.log2 - ringUsed r.prod r.cons) = false →
           Answers (.prodWrite fn page v) s fun t => t = s.bump 4 oDoorbellErrors 1)) ∧
       (page ≠ 0 → 4 ≤ r.kind → Answers (.prodWrite fn page v) s fun t => t = s) ∧
       (r.kind < 4 → Answers (.consWrite fn page v) s fun t => t = s) ∧
       (4 ≤ r.kind →
         (moves r.cons v (ringUsed r.prod r.cons) = true →
           ((r.kind ≠ 4 ∨ ∀ e ∈ u.rings, ¬ waits e) → Answers (.consWrite fn page v) s fun t => t = u) ∧
           (∀ e ∈ u.rings, r.kind = 4 → waits e → (∀ x ∈ u.rings, waits x → x = e) →
             Answers (.consWrite fn page v) s fun t => t = u.reconcile e.1)) ∧
         (moves r.cons v (ringUsed r.prod r.cons) = false →
           Answers (.consWrite fn page v) s fun t => t = s.bump 4 oDoorbellErrors 1))) ∧
     (s.ctr (oCtlEnable fn) ≠ 0 →
       let c := s.ctl fn
       (moves c.prod v (s.ctlSize fn - ringUsed c.prod c.cons) = true →
         Answers (.prodWrite fn 0 v) s fun t => t = s.setCtl fn { c with prod := v % 2 ^ 32 }) ∧
       (moves c.prod v (s.ctlSize fn - ringUsed c.prod c.cons) = false →
         Answers (.prodWrite fn 0 v) s fun t => t = s.bump 4 oDoorbellErrors 1))) ∧
  ((∀ (s : State) (r : Nat) (c : Cmd), 32 ≤ r → s.submits r = true → (s.ring r).fetched = none → s.readHead r = some c →
     Answers (.commandFetch r) s fun t => t.ring r = { s.ring r with fetched := some c } ∧ t.host = s.host ∧
       t.parkq = (match s.parkedCtx c with
         | some x => if x ∈ s.parkq then s.parkq else s.parkq ++ [x]
         | none => s.parkq)) ∧
   (∀ (s : State) (key : Nat) (c : Cmd), (s.ring key).fetched = some c → compKey (s.ring key) ≠ key →
     (s.acceptable key c = true →
       let r := s.ring key
       let k := s.ring (compKey r)
       let bad := s.checkCmd r c.recs
       let d : Cmd := { c with aseq := (r.aseq + 1) % 2 ^ 32, bad := bad, ended := if bad = 0 then none else some (4, bad) }
       Answers (.accept key) s fun t =>
         (t.ring key).fetched = none ∧ (t.ring key).accepted = r.accepted ++ [d] ∧ (t.ring key).aseq = d.aseq ∧
           (t.ring key).cons = (r.cons + c.recs.length) % 2 ^ 32 ∧ (t.ring (compKey r)).prod = (k.prod + 1) % 2 ^ 32 ∧
           (t.ring (compKey r)).rseq = (k.rseq + 1) % 2 ^ 32 ∧
           Memory.num t.host (hostKey (k.fn / 16) (k.base + 64 * (k.rseq % 2 ^ k.log2))) 64 =
             (compRec 1 0 0 d + s.mtime % 2 ^ 64 * 2 ^ 256 + (k.rseq + 1) % 2 ^ 32) % 2 ^ 512) ∧
     (s.submits key = true → c.op = 0 → c.bad = 0 → Answers (.nop key) s fun t =>
       t = s.setRing key { s.ring key with fetched := none, cons := ((s.ring key).cons + c.recs.length) % 2 ^ 32 })) ∧
   (∀ (s : State) (slot : Nat) (rest : List Nat), s.parkq = slot :: rest → (s.ctx slot).live = true → (s.ctx slot).hw = none →
     (lowestFree s.hwUsed < 4096 → Answers .parkEviction s fun t =>
       t.parkq = rest ∧ t.ctx slot = { s.ctx slot with hw := some (lowestFree s.hwUsed) } ∧ ∀ x ∈ t.tlbs, x.slot ≠ lowestFree s.hwUsed) ∧
     (4096 ≤ lowestFree s.hwUsed → s.oldestIdle = none → Answers .parkEviction s fun t => t = s) ∧
     (∀ old hw, 4096 ≤ lowestFree s.hwUsed → s.oldestIdle = some old → (s.ctx old).hw = some hw → old ≠ slot → Answers .parkEviction s fun t =>
       t.parkq = rest ∧ (t.ctx old).hw = none ∧ t.ctx slot = { s.ctx slot with hw := some hw } ∧ (∀ x ∈ t.tlbs, x.slot ≠ hw) ∧
         t.ctr oParkEvictions = min (s.ctr oParkEvictions + 1) (2 ^ 64 - 1))) ∧
   (∀ (s : State) (key since : Nat) (c : Cmd), (s.ring key).next = some c → c.waitSince = some since →
     ((s.ring key).kind = 2 → s.coreHalted (s.ring key).engine = false) →
     Answers (.waitTimeout key) s fun t => t.now = max s.now (since + (s.ring key).waitTo) ∧
       ∃ x ∈ (t.ring key).accepted, x.aseq = c.aseq ∧ x.ended = some (4, 0x0907) ∧ x.begun = c.begun) ∧
   ∀ (s : State) (key ty reason : Nat) (c : Cmd) (rest : List Cmd), (s.ring key).accepted = c :: rest → c.ended = some (ty, reason) →
     compKey (s.ring key) ≠ key → (s.ring key).live = true → (s.ring key).recon = false → s.up = true → s.compFree key ≠ 0 →
     (ty = 2 → s.performed key c = true) →
     let r := s.ring key
     let k := s.ring (compKey r)
     Answers (.terminalRecord key) s fun t => ∃ u : State,
       (u.ring key).accepted = rest ∧ u.hbm = s.hbm ∧ u.sigAdds = s.sigAdds ∧ (u.ring (compKey r)).prod = (k.prod + 1) % 2 ^ 32 ∧
         Memory.num u.host (hostKey (k.fn / 16) (k.base + 64 * (k.rseq % 2 ^ k.log2))) 64 =
           (terminalRec c ty reason false + s.mtime % 2 ^ 64 * 2 ^ 256 + (k.rseq + 1) % 2 ^ 32) % 2 ^ 512 ∧
         let w := if ty = 2 ∧ c.op ≤ 3 ∧ c.csig.1 ≠ 0 then u.addSignal ⟨c.ctx, c.csig.1, c.csig.2, .host (r.fn / 16), key, c.aseq⟩ else u
         t = w.setRing key { w.ring key with signalled := c.aseq })

/-! ### Control rings -/

/-- Any control command whose header or reserved bits are wrong, or whose opcode R279 does not give, is answered and has no other effect
(R278, R279, R281, R283).
INVALIDATE (R265, R266): the context's entries of the range leave every translation cache at once and its walks start again; the answer comes when its
accesses are performed, at once for a parked context or one in ERROR, and with it the addition to the command's signal, which waits where its word has
no translation (the model's choice: log entry 92). -/
def Obligations.ControlFormAndInvalidation : Prop :=
  (∀ (s : State) (fn v : Nat), isFn fn = true → s.ctlHead fn = some v → (s.ctl fn).stale = 0 →
     (isControlOp (hOp v) = false → Answers (.commandFetch fn) s fun t => s.CtlAnswered t fn v 0x0903 0 0 ∧ t.rings = s.rings) ∧
     ∀ cmd op zero, (cmd, op, zero) ∈ ([(.ctxCreate fn, 0x41, [(1, 31, 4), (2, 63, 32), (3, 63, 0), (4, 63, 0), (5, 63, 0)]),
         (.ctxDestroy fn, 0x42, onlyHandle), (.ringCreate fn, 0x43, [(1, 15, 9), (1, 31, 24), (1, 59, 48), (3, 63, 36), (5, 63, 0)]),
         (.ringDestroy fn, 0x44, onlyHandle), (.memCreate fn, 0x45, [(2, 63, 4), (3, 63, 0), (4, 63, 0), (5, 63, 0)]),
         (.memDestroy fn, 0x46, onlyHandle), (.arcCreate fn, 0x47, [(0, 63, 2), (1, 63, 32), (5, 63, 0)]), (.arcDestroy fn, 0x48, onlyHandle),
         (.sigCreate fn, 0x49, [(0, 63, 32), (2, 63, 17), (3, 63, 0), (4, 63, 0), (5, 63, 0)]),
         (.sigDestroy fn, 0x4A, onlyHandle)] : List (Instr × Nat × List (Nat × Nat × Nat))) →
       hOp v = op →
       (ctlHeadOk v = false → Answers cmd s fun t => s.CtlAnswered t fn v 0x0903 0 0 ∧
         t = { s with host := t.host, ctls := t.ctls, out := t.out }) ∧
       (ctlHeadOk v = true → (∃ z ∈ zero, bits z.2.1 z.2.2 (ctlW v z.1) ≠ 0) → Answers cmd s fun t => s.CtlAnswered t fn v 0x0912 0 0 ∧
         t = { s with host := t.host, ctls := t.ctls, out := t.out })) ∧
  (∀ (s : State) (fn v : Nat), isFn fn = true → s.ctlHead fn = some v → hOp v = 0x4B →
     let h := bits 31 0 (ctlW v 0)
     let count := min (s.ctr oInvalidations + 1) (2 ^ 64 - 1)
     let x : SigAdd := ⟨h, ctlW v 3, ctlW v 4, .host (fn / 16), 0, 0⟩
     let u := s.bump 8 oInvalidations 1
     let ends := fun (t : State) => t = (u.addSignal x).ctlDone fn v (0, 0, 0) ∧
       (u.xlate h x.va = none → (u.ctxOf h).isSome = true → s.CtlAnswered t fn v 0 0 0 ∧ t.ctr oInvalidations = count ∧ t.sigAdds = s.sigAdds ++ [x])
     ((s.ctl fn).stale = 0 → ctlHeadOk v = true → bits 63 32 (ctlW v 0) = 0 → ctlW v 5 = 0 → s.ctlCtx fn h = 0 →
       ctlW v 1 % 65536 = 0 → ctlW v 3 % 8 = 0 →
       (∀ hw, (s.ctx (hSlot h)).hw = some hw → (s.ctx (hSlot h)).error = false → Answers (.invalidate fn) s fun t =>
         (t.ctl fn).stale = hSlot h + 1 ∧ (t.ctl fn).cons = (s.ctl fn).cons ∧
           t.tlbs = (s.tlbs.filter fun x => !(x.slot = hw && overlaps x (ctlW v 1) (ctlW v 2))) ∧
           t.walks = s.walks.map fun (w : Walk) => if w.acc.ctx = h then { w with at_ := none } else w) ∧
       (((s.ctx (hSlot h)).hw = none ∨ (s.ctx (hSlot h)).error = true) → Answers (.invalidate fn) s ends)) ∧
     ((s.ctl fn).stale = 0 → ctlHeadOk v = false → Answers (.invalidate fn) s fun t => s.CtlAnswered t fn v 0x0903 0 0 ∧ t.tlbs = s.tlbs) ∧
     ((s.ctl fn).stale = 0 → ctlHeadOk v = true →
       (bits 63 32 (ctlW v 0) ≠ 0 ∨ ctlW v 5 ≠ 0 ∨ s.ctlCtx fn h = 0 ∧ (ctlW v 1 % 65536 ≠ 0 ∨ ctlW v 3 % 8 ≠ 0)) →
       Answers (.invalidate fn) s fun t => s.CtlAnswered t fn v 0x0912 0 0 ∧ t.tlbs = s.tlbs) ∧
     ((s.ctl fn).stale = 0 → ctlHeadOk v = true → bits 63 32 (ctlW v 0) = 0 → ctlW v 5 = 0 → s.ctlCtx fn h ≠ 0 → Answers (.invalidate fn) s fun t =>
       s.CtlAnswered t fn v (s.ctlCtx fn h) 0 0 ∧ t.tlbs = s.tlbs) ∧
     ((s.ctl fn).stale = hSlot h + 1 → s.ctxInFlight h = false → Answers (.invalidateComplete fn) s ends) ∧
     ((s.ctl fn).stale = hSlot h + 1 → s.ctxInFlight h = true → Answers (.invalidateComplete fn) s fun t => t = s))

/-- Contexts and rings are created and destroyed (R250, R270 to R272, R275, R279, R295, R297, R298): each gets the lowest free slot, and its handle, and
is listed in its port's host object table. A context's destruction first makes its handle stale and stops its work; its slot is free, and the command
is answered, once what it issued is performed and its commands have their records. -/
def Obligations.ContextsAndRings : Prop :=
  (∀ (s : State) (fn v : Nat), s.Commands fn 0x41 v [(1, 31, 4), (2, 63, 32), (3, 63, 0), (4, 63, 0), (5, 63, 0)] →
    let p := s.fnPart fn (bits 3 0 (ctlW v 1))
    let fr := bits 63 32 (ctlW v 1)
    let us := bits 31 0 (ctlW v 2)
    let slot := lowestFree ((s.ctxs.filter fun e => e.2.live).map fun e => e.1)
    let hw := lowestFree s.hwUsed
    (s.ctr (oPartState p) = 2 → Answers (.ctxCreate fn) s fun t => s.CtlAnswered t fn v 0x0911 0 0 ∧ t.ctxs = s.ctxs) ∧
    (s.ctr (oPartState p) ≠ 2 → (rootOk (ctlW v 0) = false ∨ us ≠ 0 ∧ timeoutOk us = false) → Answers (.ctxCreate fn) s fun t =>
      s.CtlAnswered t fn v 0x0912 0 0 ∧ t.ctxs = s.ctxs) ∧
    (s.ctr (oPartState p) ≠ 2 → rootOk (ctlW v 0) = true → (us = 0 ∨ timeoutOk us = true) → slot < 65536 →
      (fr = 0 ∨ s.ctlHandle fn 8 fr (s.ring (65536 * 8 + hSlot fr)).live (s.ring (65536 * 8 + hSlot fr)).part = 0 ∧
        (s.ring (65536 * 8 + hSlot fr)).part = p) →
      Answers (.ctxCreate fn) s fun t =>
        s.CtlAnswered t fn v 0 (s.handle 1 slot) (if hw < 4096 then 0 else 1) ∧
          t.ctx slot = { Ctx.reset with
            live := true, root := ctlW v 0, part := p, fring := fr, fn := fn, hw := if hw < 4096 then some hw else none
            timeout := if us = 0 then s.objD 100000000 oFaultTimeoutDefault else 1000 * us } ∧
          (∀ x, x ≠ slot → t.ctx x = s.ctx x) ∧
          (hSlot (s.handle 1 slot) = slot → hKind (s.handle 1 slot) = 1 → s.tableKey 0 ≠ s.tableKey 1 →
            Tbl.get Ctx.reset (t.hostTable (fn / 16)).ctxs slot = t.ctx slot))) ∧
  (∀ (s : State) (fn v : Nat), s.Commands fn 0x42 v onlyHandle →
    let h := bits 31 0 (ctlW v 0)
    (s.ctlCtx fn h ≠ 0 → Answers (.ctxDestroy fn) s fun t => s.CtlAnswered t fn v (s.ctlCtx fn h) 0 0 ∧ t.ctxs = s.ctxs) ∧
    (s.ctlCtx fn h = 0 → (∀ k x, k < 96 → (s.core k).shard = some x → x.ctx ≠ h) →
      (∀ e, e < 32 → ∀ c ∈ (s.ring (kCopyRing e)).copying, c.ctx ≠ h) →
      Answers (.ctxDestroy fn) s fun t =>
        t.fresh h = false ∧ (∀ w ∈ t.watch, w.ctx ≠ h) ∧ (∀ a ∈ t.sigAdds, a.ctx ≠ h) ∧ (∀ w ∈ t.walks, w.acc.ctx ≠ h) ∧ hSlot h ∉ t.parkq ∧
          (∀ key, ∀ c ∈ (s.ring key).accepted, c.ctx = h → c.ended = none → ∃ d ∈ (t.ring key).accepted, d.aseq = c.aseq ∧ d.ended = some (4, 0x0908)) ∧
          (s.recordsDue h = false → s.arcsBusy h = false →
            s.CtlAnswered t fn v 0 0 0 ∧ t.ctx (hSlot h) = Ctx.reset ∧ ∀ hw, (s.ctx (hSlot h)).hw = some hw → ∀ x ∈ t.tlbs, x.slot ≠ hw) ∧
          ((s.recordsDue h = true ∨ s.arcsBusy h = true) →
            t.ctl fn = { s.ctl fn with stale := hSlot h + 1 } ∧ (t.ctx (hSlot h)).destroying = true ∧ (t.ctx (hSlot h)).formerly = h))) ∧
  (∀ (s : State) (fn v : Nat), isFn fn = true → s.ctlHead fn = some v → hOp v = 0x42 →
    let h := bits 31 0 (ctlW v 0)
    let x := s.ctx (hSlot h)
    (s.ctl fn).stale = hSlot h + 1 → s.recordsDue h = false → s.arcsBusy h = false → (∀ n ∈ x.drains, s.engineBusy n = false) →
      Answers (.ctxDestroy fn) s fun t => s.CtlAnswered t fn v 0 0 0 ∧ t.ctx (hSlot h) = Ctx.reset ∧
        t.ctr oDestroyMax = max (s.ctr oDestroyMax) (min (s.now - x.destroyedAt) (2 ^ 64 - 1))) ∧
  (∀ (s : State) (fn v : Nat), s.Commands fn 0x43 v [(1, 15, 9), (1, 31, 24), (1, 59, 48), (3, 63, 36), (5, 63, 0)] →
    let w1 := ctlW v 1
    let kind := bits 3 0 w1
    let p := s.fnPart fn (bits 63 60 w1)
    let hk := ringHandleKind kind
    let used := (s.rings.filter fun e => e.2.live && e.1 / 65536 = hk).map fun e => e.1 % 65536
    let slot := (fixedSlot kind p (bits 23 16 w1)).getD (lowestFree used)
    let page := lowestFree (0 :: (s.rings.filter fun e => e.2.live && e.2.fn = fn).map fun e => e.2.page)
    let fits := kind ≤ 5 ∧ 6 ≤ bits 8 4 w1 ∧ bits 8 4 w1 ≤ 20 ∧ ctlW v 0 % 4096 = 0 ∧ bits 47 32 w1 < msixSize
    (¬ fits → Answers (.ringCreate fn) s fun t => s.CtlAnswered t fn v 0x0912 0 0 ∧ t.rings = s.rings) ∧
    (fits → kind < 4 → s.submitCheck fn v kind p ≠ 0 → Answers (.ringCreate fn) s fun t =>
      s.CtlAnswered t fn v (s.submitCheck fn v kind p) 0 0 ∧ t.rings = s.rings) ∧
    (fits → (kind < 4 → s.submitCheck fn v kind p = 0) → (slot ∈ used ∨ 4 ≤ kind ∧ ringSlots kind ≤ slot ∨ 3839 < page) →
      Answers (.ringCreate fn) s fun t => s.CtlAnswered t fn v 0x0910 0 0 ∧ t.rings = s.rings) ∧
    (fits →
      (kind < 4 → s.submitCheck fn v kind p = 0) → slot ∉ used → (4 ≤ kind → slot < ringSlots kind) → page ≤ 3839 →
      Answers (.ringCreate fn) s fun t =>
        let r := t.ring (65536 * hk + slot)
        s.CtlAnswered t fn v 0 (s.handle hk slot) page ∧ r.live = true ∧ r.kind = kind ∧ r.part = p ∧ r.fn = fn ∧ r.base = ctlW v 0 ∧
          r.log2 = bits 8 4 w1 ∧ r.page = page ∧ r.vector = bits 47 32 w1 ∧ r.prod = 0 ∧ r.cons = 0 ∧ r.accepted = [] ∧
          (kind < 4 → r.comp = bits 31 0 (ctlW v 2) ∧ r.runTo = 1000 * bits 63 32 (ctlW v 2) ∧ r.waitTo = 1000 * bits 31 0 (ctlW v 3)) ∧
          ∀ key, key ≠ 65536 * hk + slot → t.ring key = s.ring key)) ∧
  ∀ (s : State) (fn v : Nat), s.Commands fn 0x44 v onlyHandle →
    let h := bits 31 0 (ctlW v 0)
    let key := 65536 * hKind h + hSlot h
    let busy := (s.ring key).prod ≠ (s.ring key).cons ∨ (s.ring key).accepted ≠ []
    (s.ctlRing fn h ≠ 0 → Answers (.ringDestroy fn) s fun t => s.CtlAnswered t fn v (s.ctlRing fn h) 0 0 ∧ t.rings = s.rings) ∧
    (s.ctlRing fn h = 0 → busy → Answers (.ringDestroy fn) s fun t => s.CtlAnswered t fn v 0x0911 0 0 ∧ t.rings = s.rings) ∧
    (s.ctlRing fn h = 0 → ¬ busy → Answers (.ringDestroy fn) s fun t =>
      s.CtlAnswered t fn v 0 0 0 ∧ t.ring key = Ring.reset ∧ t.fresh h = false ∧ ∀ j, j ≠ key → t.ring j = s.ring j)

/-- Memory objects, signals and arcs are created and destroyed (R270, R271, R279, R363, R364). -/
def Obligations.ObjectsOfContexts : Prop :=
  (∀ (s : State) (fn v : Nat), s.Commands fn 0x45 v [(2, 63, 4), (3, 63, 0), (4, 63, 0), (5, 63, 0)] →
    let a := ctlW v 0
    let n := ctlW v 1
    let p := s.fnPart fn (bits 3 0 (ctlW v 2))
    let slot := lowestFree ((s.mems.filter fun e => e.2.live).map fun e => e.1)
    let free := ∀ e ∈ s.mems, e.2.live = true → e.2.pa + e.2.len ≤ a ∨ a + n ≤ e.2.pa
    ((a % 65536 ≠ 0 ∨ n % 65536 ≠ 0 ∨ n = 0 ∨ s.inRegion p a n = false ∨ ¬ free) → Answers (.memCreate fn) s fun t =>
      s.CtlAnswered t fn v 0x0912 0 0 ∧ t.mems = s.mems) ∧
    (a % 65536 = 0 → n % 65536 = 0 → n ≠ 0 → s.inRegion p a n = true → free → slot < 65536 → Answers (.memCreate fn) s fun t =>
      s.CtlAnswered t fn v 0 (s.handle 2 slot) 0 ∧ Tbl.get MemObj.reset t.mems slot = { live := true, pa := a, len := n, part := p, fn := fn })) ∧
  (∀ (s : State) (fn v : Nat), s.Commands fn 0x46 v onlyHandle →
    let h := bits 31 0 (ctlW v 0)
    let m := Tbl.get MemObj.reset s.mems (hSlot h)
    let c := s.ctlHandle fn 2 h m.live m.part
    (c ≠ 0 → Answers (.memDestroy fn) s fun t => s.CtlAnswered t fn v c 0 0 ∧ t.mems = s.mems) ∧
    (c = 0 → Answers (.memDestroy fn) s fun t =>
      s.CtlAnswered t fn v 0 0 0 ∧ Tbl.get MemObj.reset t.mems (hSlot h) = MemObj.reset ∧ t.fresh h = false ∧ t.hbm = s.hbm)) ∧
  (∀ (s : State) (fn v : Nat), s.Commands fn 0x49 v [(0, 63, 32), (2, 63, 17), (3, 63, 0), (4, 63, 0), (5, 63, 0)] →
    let h := bits 31 0 (ctlW v 0)
    let slot := lowestFree ((s.sigs.filter fun e => e.2.live).map fun e => e.1)
    (s.ctlCtx fn h ≠ 0 → Answers (.sigCreate fn) s fun t => s.CtlAnswered t fn v (s.ctlCtx fn h) 0 0 ∧ t.sigs = s.sigs) ∧
    (s.ctlCtx fn h = 0 → (ctlW v 1 % 8 ≠ 0 ∨ 2 ^ 56 ≤ ctlW v 1 ∨ msixSize ≤ bits 15 0 (ctlW v 2)) → Answers (.sigCreate fn) s fun t => s.CtlAnswered t fn v 0x0912 0 0 ∧ t.sigs = s.sigs) ∧
    (s.ctlCtx fn h = 0 → ctlW v 1 % 8 = 0 → ctlW v 1 < 2 ^ 56 → bits 15 0 (ctlW v 2) < msixSize → slot < 65536 → Answers (.sigCreate fn) s fun t =>
      s.CtlAnswered t fn v 0 (s.handle 4 slot) 0 ∧
        t.sigs = Tbl.set s.sigs slot { live := true, ctx := h, part := (s.ctx (hSlot h)).part, va := ctlW v 1, vector := bits 15 0 (ctlW v 2),
                                       msix := bit 16 (ctlW v 2), fn := fn })) ∧
  (∀ (s : State) (fn v : Nat), s.Commands fn 0x4A v onlyHandle →
    let h := bits 31 0 (ctlW v 0)
    let x := Tbl.get SigObj.reset s.sigs (hSlot h)
    let c := s.ctlHandle fn 4 h x.live x.part
    (c ≠ 0 → Answers (.sigDestroy fn) s fun t => s.CtlAnswered t fn v c 0 0 ∧ t.sigs = s.sigs) ∧
    (c = 0 → Answers (.sigDestroy fn) s fun t => s.CtlAnswered t fn v 0 0 0 ∧ t.sigOf h = none ∧ t.fresh h = false)) ∧
  (∀ (s : State) (fn v : Nat), s.Commands fn 0x47 v [(0, 63, 2), (1, 63, 32), (5, 63, 0)] →
    let kind := bits 1 0 (ctlW v 0)
    let h := bits 31 0 (ctlW v 1)
    let w2 := ctlW v 2
    let vertex := bits 15 0 w2
    let slot := lowestFree ((s.arcs.filter fun e => e.2.live).map fun e => e.1)
    (kind = 3 → Answers (.arcCreate fn) s fun t => s.CtlAnswered t fn v 0x0912 0 0 ∧ t.arcs = s.arcs) ∧
    (kind ≠ 3 → s.ctlCtx fn h ≠ 0 → Answers (.arcCreate fn) s fun t => s.CtlAnswered t fn v (s.ctlCtx fn h) 0 0 ∧ t.arcs = s.arcs) ∧
    let fits :=
      kind = 0 ∧ w2 = 0 ∧ ctlW v 3 = 0 ∧ ctlW v 4 = 0 ∨
        kind ≠ 0 ∧ vertex ≠ s.vertex ∧ unassignable vertex = false ∧ bits 31 16 w2 < 16 ∧ bits 63 32 w2 = 0 ∧ ctlW v 3 ≠ 0 ∧
          (ctlW v 4 = 0 ∨ 5 ≤ ctlW v 4 ∧ ctlW v 4 ≤ 10000) ∧
          (∀ e ∈ s.arcs, e.2.live = true → e.2.kind ≠ 0 → e.2.vertex = vertex → e.2.name ≠ ctlW v 3) ∧ (kind = 1 → s.carrier h vertex = none)
    (kind ≠ 3 → s.ctlCtx fn h = 0 → ¬ fits → Answers (.arcCreate fn) s fun t => s.CtlAnswered t fn v 0x0912 0 0 ∧ t.arcs = s.arcs) ∧
    (kind ≠ 3 → s.ctlCtx fn h = 0 → fits → slot < 16384 → Answers (.arcCreate fn) s fun t =>
        let a := t.arc slot
        s.CtlAnswered t fn v 0 (s.handle 3 slot) 0 ∧ a.live = true ∧ a.kind = kind ∧ a.ctx = h ∧ a.part = (s.ctx (hSlot h)).part ∧ a.fn = fn ∧ a.vertex = vertex ∧
          a.name = ctlW v 3 ∧ a.keySlot = bits 19 16 w2 ∧ a.rto = 1000 * ctlW v 4 ∧ a.state = (if kind = 0 then 1 else 0) ∧
          a.epoch = ((s.arc slot).epoch + 1) % 65536 ∧ a.unacked = [] ∧ ∀ x, x ≠ slot → t.arc x = s.arc x)) ∧
  ∀ (s : State) (fn v : Nat), s.Commands fn 0x48 v onlyHandle →
    let h := bits 31 0 (ctlW v 0)
    let c := s.ctlHandle fn 3 h (s.arc (hSlot h)).live (s.arc (hSlot h)).part
    (c ≠ 0 → Answers (.arcDestroy fn) s fun t => s.CtlAnswered t fn v c 0 0 ∧ t.arcs = s.arcs) ∧
    (c = 0 → Answers (.arcDestroy fn) s fun t => (t.arc (hSlot h)).live = false ∧
      ((s.arc (hSlot h)).unacked = [] → (∀ q ∈ s.peers, q.arc = hSlot h → q.data.isSome = true) → (∀ i, i < 64 → ∀ r ∈ s.remotes i, hSlot r ≠ hSlot h) →
        s.CtlAnswered t fn v 0 0 0 ∧ (t.arc (hSlot h)).epoch = (s.arc (hSlot h)).epoch ∧ t.fresh h = false))

/-- STEP, RUN, WAIT, SIGNAL and COPY at the head of their ring (R264, R289, R290, R292, R293, R309, R310, R333, R340): what begins, what waits, and what
ends; a WAIT of a copy ring on an instance's release signal arrives at the instance.
Copies move their bytes piece by piece and end when every write is acknowledged (R291, R292): one piece that nothing holds back, one whose source is
uncorrectable or that a code stops, and COPY_COMPLETE of a copy that has moved them all. -/
def Obligations.CommandsBeginAndCopiesMove : Prop :=
  ((∀ (s : State) (key op : Nat) (cmd : Instr) (c : Cmd), (cmd, op) ∈ ([(.step key, 1), (.run key, 2)] : List (Instr × Nat)) →
     (s.ring key).next = some c → c.op = op → s.serves = true →
     let ends := fun (ty reason : Nat) => Answers cmd s fun t => ∃ x ∈ (t.ring key).accepted, x.aseq = c.aseq ∧ x.ended = some (ty, reason)
     (c.begun = true → s.noEngine (s.ring key) = true → s.shardsOn key c.aseq = false → c.code = 0 → ends 3 0x0A02) ∧
     (c.begun = false → ∀ x, s.ctxOf c.ctx = some x → x.error = true → ends 4 0x0803) ∧
     (c.begun = false → (∀ x, s.ctxOf c.ctx = some x → x.error = false) →
       (s.noEngine (s.ring key) = true → ends 3 0x0A02) ∧
       (s.noEngine (s.ring key) = false →
         (s.fenceOk c = true → Answers cmd s fun t =>
           (∃ x ∈ (t.ring key).accepted, x.aseq = c.aseq ∧ x.begun = true ∧ x.waitSince = none) ∧ ((s.ring key).kind < 2 → (t.ring key).able = true)) ∧
         (s.fenceOk c = false → s.sigPeer c.ctx c.fence.1 = true → ends 4 0x0B01) ∧
         (s.fenceOk c = false → s.sigPeer c.ctx c.fence.1 = false → Answers cmd s fun t =>
           (∃ x ∈ (t.ring key).accepted, x.aseq = c.aseq ∧ x.waitSince = some (c.waitSince.getD s.now)) ∧
             ∃ w ∈ t.watch, w.who = .cmd key c.aseq)))) ∧
   (∀ (s : State) (key : Nat) (c : Cmd), (s.ring key).next = some c → c.op = 4 → s.serves = true →
     (∀ x ∈ (s.ring key).accepted, x.aseq = c.aseq → x = c) →
     let ends := fun (ty reason : Nat) => Answers (.wait key) s fun t => ∃ x ∈ (t.ring key).accepted, x.aseq = c.aseq ∧ x.ended = some (ty, reason)
     (s.sigPeer c.ctx c.word.1 = true → ends 4 0x0B01) ∧
     (s.sigPeer c.ctx c.word.1 = false → s.waitChord (s.ring key) c = none →
       ((s.sigReached c.ctx c.word.1 c.word.2 = true ∨ c.reached = true) → ends 2 0) ∧
       (s.sigReached c.ctx c.word.1 c.word.2 = false → c.reached = false → Answers (.wait key) s fun t =>
         (∃ x ∈ (t.ring key).accepted, x.aseq = c.aseq ∧ x.ended = none ∧ x.waitSince = some (c.waitSince.getD s.now)) ∧
           ∃ w ∈ t.watch, w.who = .cmd key c.aseq)) ∧
     (∀ i, s.sigPeer c.ctx c.word.1 = false → s.waitChord (s.ring key) c = some i → c.begun = true →
       (s.sigReached c.ctx c.word.1 c.word.2 = true ∨ c.reached = true) → ends 2 0) ∧
     (∀ i, s.sigPeer c.ctx c.word.1 = false → s.waitChord (s.ring key) c = some i → c.begun = false →
       (s.ctr (oChordState i) = 3 → ends 4 0x0B03) ∧
       (∀ u, s.ctr (oChordState i) ≠ 3 → s.arriveChord i (96 + (s.ring key).engine) = some u → c ∈ (u.ring key).accepted →
         Answers (.wait key) s fun t => ∃ x ∈ (t.ring key).accepted, x.aseq = c.aseq ∧ x.begun = true))) ∧
   (∀ (s : State) (key : Nat) (c : Cmd) (rest : List Cmd), (s.ring key).accepted = c :: rest → c.op = 5 → c.ended = none → s.serves = true →
     let x : SigAdd := ⟨c.ctx, c.word.1, c.word.2, .host ((s.ring key).fn / 16), key, c.aseq⟩
     (∀ v a code, s.xlate c.ctx c.word.1 = some (.peer v a) → s.peerArc c.ctx v = .error code → Answers (.signal key) s fun t =>
       ∃ x ∈ (t.ring key).accepted, x.aseq = c.aseq ∧ x.ended = some (4, code)) ∧
     (∀ v a, s.xlate c.ctx c.word.1 = some (.peer v a) → (s.arcs.all fun e => !(e.2.live && e.2.kind = 1 && e.2.ctx = c.ctx && e.2.vertex = v)) = true →
       s.peerArc c.ctx v = .error 0x0C04) ∧
     ((∀ v a, s.xlate c.ctx c.word.1 = some (.peer v a) → ∃ slot, s.peerArc c.ctx v = .ok slot) →
       Answers (.signal key) s fun t => t = (s.addSignal x).endCmd key c.aseq 2 0) ∧
     (s.xlate c.ctx c.word.1 = none → (s.ctxOf c.ctx).isSome = true → Answers (.signal key) s fun t =>
       t.sigAdds = s.sigAdds ++ [x] ∧ ∃ y ∈ (t.ring key).accepted, y.aseq = c.aseq ∧ y.ended = some (2, 0) ∧ t.performed key y = false)) ∧
   ∀ (s : State) (key : Nat) (c : Cmd), (s.ring key).next = some c → c.op = 3 → (s.ring key).kind = 3 → s.serves = true → (s.ring key).copying.length < 4 →
     let e := (s.ring key).engine
     let ends := fun (ty reason : Nat) => Answers (.copy key) s fun t => ∃ x ∈ (t.ring key).accepted, x.aseq = c.aseq ∧ x.ended = some (ty, reason)
     (∀ x, s.ctxOf c.ctx = some x → x.error = true → ends 4 0x0803) ∧
     ((∀ x, s.ctxOf c.ctx = some x → x.error = false) →
       (s.noEngine (s.ring key) = true → ends 3 0x0A02) ∧
       (s.noEngine (s.ring key) = false → s.ctr (oCeState e) ≠ 3 →
         let g := s.arcGate (hSlot (copyArc c.head))
         (copyArc c.head ≠ 0 → 1 < g → ends 4 g) ∧
         (copyArc c.head ≠ 0 → g = 1 → Answers (.copy key) s fun t =>
           ∃ x ∈ (t.ring key).accepted, x.aseq = c.aseq ∧ x.begun = c.begun ∧ x.waitSince = some (c.waitSince.getD s.now)) ∧
         ((copyArc c.head = 0 ∨ g = 0) → Answers (.copy key) s fun t =>
           t = ((s.setCmd key c.aseq fun x => { x with begun := true, waitSince := none, start := s.now }).bump 8 (oCeCommands e) 1).copyRun
             e c.aseq c.pieces)))) ∧
  ((∀ (s s1 s2 s3 : State) (e aseq f x m code : Nat) (b : Bool) (c : Cmd), (s.ring (kCopyRing e)).copying.find? (fun c => c.aseq = aseq) = some c →
     let v := c.head
     let src := (bits 511 456 v + c.done) % 2 ^ 56
     let dst := (bits 447 392 v + c.done) % 2 ^ 56
     let n := min (bits 383 344 v - c.done) (min (4096 - src % 4096) (4096 - dst % 4096))
     (c.done = bits 383 344 v → s.copyRun e aseq (f + 1) = s) ∧
     (c.done < bits 383 344 v → s.copyRoom e c dst n = (s1, .wait) → s.copyRun e aseq (f + 1) = s1) ∧
     (c.done < bits 383 344 v → s.copyRoom e c dst n = (s1, .fail code) → s.copyRun e aseq (f + 1) = s1.failCopy e c code) ∧
     (c.done < bits 383 344 v → s.copyRoom e c dst n = (s1, .data 0 false) →
       s1.unitRead (.copyEngine e) (copyAccess e 4 src c) n (kCopyRing e) aseq = (s2, .data x false) →
       s2.copyWrite e (kCopyRing e) c (bits 343 340 v) dst n x = (s3, .data m b) →
       s.copyRun e aseq (f + 1) =
         ((s3.setCmd (kCopyRing e) aseq fun c => { c with done := c.done + n }).bump 8 (oCeBytes e) n).copyRun e aseq f) ∧
     (c.done < bits 383 344 v → s.copyRoom e c dst n = (s1, .data 0 false) →
       s1.unitRead (.copyEngine e) (copyAccess e 4 src c) n (kCopyRing e) aseq = (s2, .data x true) →
       s.copyRun e aseq (f + 1) = s2.failCopy e c 0x0A01)) ∧
   ∀ (s : State) (e : Nat) (c : Cmd), isCe e = true → (s.ring (kCopyRing e)).copying = [c] → s.copyOver e c = true →
     Answers (.copyComplete e) s fun t =>
       (∃ x ∈ (t.ring (kCopyRing e)).accepted, x.aseq = c.aseq ∧ x.ended = some (2, 0) ∧ x.engineNs = c.engineNs + (s.now - c.start)) ∧
         t.ctr (oEngineNs (s.ring (kCopyRing e)).part) =
           min (s.ctr (oEngineNs (s.ring (kCopyRing e)).part) + (s.now - c.start)) (2 ^ 64 - 1) ∧ t.hbm = s.hbm)

/-- The core that became free first takes the next shard, or halts before it at a breakpoint; its end settles the command; a shard or copy at its run
bound ends with RUN-TIMEOUT (R164, R288, R293, R319). -/
def Obligations.ShardsBeginAndEnd : Prop :=
  (∀ (s : State) (k key : Nat) (c : Cmd), isCore k = true → s.coreFree k = true → s.pickRing k = some key → s.ableCmd key = some c →
    (s.firstFree k key = false → Answers (.shardBegin k) s fun t => t = s) ∧
    (s.firstFree k key = true → (∃ x, s.ctxOf c.ctx = some x ∧ x.error = true) →
      (c.shardsBegun = c.shardsEnded → Answers (.shardBegin k) s fun t => ∃ x ∈ (t.ring key).accepted, x.aseq = c.aseq ∧ x.ended = some (4, 0x0803)) ∧
      (c.shardsBegun ≠ c.shardsEnded → Answers (.shardBegin k) s fun t => ∃ x ∈ (t.ring key).accepted, x.aseq = c.aseq ∧ x.code = 0x0803)) ∧
    (s.firstFree k key = true → (∀ x, s.ctxOf c.ctx = some x → x.error = false) → (s.core k).stood = none →
      let r := s.ring key
      let recd := c.recs.getD (c.shardsBegun + 1) 0
      let h : Shard := { Shard.reset with
        ring := key, aseq := c.aseq, index := c.shardsBegun, tag := c.tag, ctx := c.ctx, recd := recd, bound := runBound r c, start := s.now }
      let counts := fun (t : State) => ∃ x ∈ (t.ring key).accepted, x.aseq = c.aseq ∧ x.shardsBegun = c.shardsBegun + 1
      (s.breakpoint k c.tag = 0 → Answers (.shardBegin k) s fun t =>
        counts t ∧ (t.core k).shard = some { h with begun := true, seqDone := decide (bits 511 456 recd = 0) } ∧
          t.seqState k = (if bits 511 456 recd = 0 then 0 else 1) ∧ t.ctr (oHaltCause k) = 0 ∧
          t.ctr (oCommandCount k) = min (s.ctr (oCommandCount k) + 1) (2 ^ 64 - 1)) ∧
      (s.breakpoint k c.tag ≠ 0 → Answers (.shardBegin k) s fun t =>
        counts t ∧ (t.core k).shard = some { h with haltAt := some s.now } ∧ t.seqState k = 3 ∧ t.ctr (oHaltCause k) = s.breakpoint k c.tag))) ∧
  (∀ (s : State) (k : Nat) (h : Shard), isCore k = true → (s.core k).shard = some h → s.shardOver k h = true → h.code = 0 →
    (s.core k).pendStale = false → Answers (.shardEnd k) s fun t => (t.core k).shard = none ∧
      ∀ c, s.groupsOf k = [] → (s.ring h.ring).accepted.find? (fun x => x.aseq = h.aseq) = some c → c.ended = none → c.code = 0 →
        c.shardsEnded + 1 = c.shards → (∀ j x, (j, x) ∈ s.cores → x.shard.map (fun y => (y.ring, y.aseq)) = some (h.ring, h.aseq) → j = k) →
        ∃ x ∈ (t.ring h.ring).accepted, x.aseq = h.aseq ∧ x.ended = some (2, 0)) ∧
  (∀ (s : State) (k : Nat) (h : Shard), isCore k = true → (s.core k).shard = some h → s.running k = true → s.coreHalted k = false →
    Answers (.runTimeout k) s fun t => t.now = max s.now (h.start + h.bound) ∧ (t.core k).shard = some { h with code := 0x0906 }) ∧
  ∀ (s : State) (e : Nat) (c : Cmd), isCe e = true →
    ((s.ring (kCopyRing e)).accepted.find? fun c => c.op = 3 && c.begun && c.ended.isNone) = some c →
    Answers (.runTimeout (256 + e)) s fun t =>
      t.now = max s.now (c.start + (s.ring (kCopyRing e)).runTo) ∧
        ∃ x ∈ (t.ring (kCopyRing e)).accepted, x.aseq = c.aseq ∧ x.ended = some (4, 0x0906)

/-! ### Signals and chord instances -/

/-- Additions to signals and the examination of waiters (R329 to R336): an addition is performed as an atomic add at the word's home, counted, and
releases the waiters on the word; it goes to a peer over the carrier arc; and it waits while its word has no translation, its home cannot take it, or
the arc has no room, and is lost where no arc can carry it (the model's choices: log entry 92). SIG_POLL and WAKE release the waiters whose word holds their value, and leave the others; a write that may not be is
counted in REJECTS.
CHORD_ARRIVE (R335, R338, R340, R341, R343): an arrival that is not the last is registered; the last one of a round without remote arcs ends the round,
and one with a remote arc sends ARRIVE; one that may not be is counted in REJECTS. -/
def Obligations.SignalsAndArrivals : Prop :=
  ((∀ (s : State) (x : SigAdd),
     let later := fun (t : State) => t = { s with sigAdds := s.sigAdds ++ [x] }
     (s.xlate x.ctx x.va = none → (s.ctxOf x.ctx).isSome = true → later (s.addSignal x)) ∧
     (s.xlate x.ctx x.va = none → s.ctxOf x.ctx = none → s.addSignal x = s) ∧
     (∀ pa m, s.xlate x.ctx x.va = some (.mem pa m) →
       (s.rangeShut pa 8 = true → later (s.addSignal x)) ∧
       (s.rangeShut pa 8 = false → (∀ b ∈ s.reqBuckets (pa / 128) (.unit x.who pa 8 true), s.bucketRate b = 0) → x.ring = 0 →
         s.addSignal x = ((s.admitDone x.who pa 8).agentAtomFor x.who (((s.ctxOf x.ctx).map fun c => c.fn).getD 0) .add pa 8 x.value 0).1)) ∧
     (∀ v a, s.xlate x.ctx x.va = some (.peer v a) →
       (s.carrier x.ctx v = none → s.addSignal x = s.lostAdd x 0x0C04 ∧ (x.ring = 0 → s.addSignal x = s)) ∧
       (∀ slot u, s.carrier x.ctx v = some slot → s.arcSignal slot a x.value x.ring x.aseq = some u → s.addSignal x = u) ∧
       (∀ slot, s.carrier x.ctx v = some slot → s.arcSignal slot a x.value x.ring x.aseq = none →
         ((s.arc slot).state ≠ 3 → later (s.addSignal x)) ∧ ((s.arc slot).state = 3 → s.addSignal x = s.lostAdd x 0x0C02)))) ∧
   (∀ (s : State) (r : Agent) (fn pa v : Nat), ∃ u : State, (s.agentAtomFor r fn .add pa 8 v 0).1 = u.added pa) ∧
   (∀ (s : State) (pa : Nat), (s.added pa).ctr oSigAdds = min (s.ctr oSigAdds + 1) (2 ^ 64 - 1) ∧
     let u := s.bump 8 oSigAdds 1
     (s.added pa).watch = s.watch.filter fun w => !(w.entry && s.sigPa w.ctx w.va = some pa && u.watchReached w)) ∧
   (∀ (s : State) (h va v : Nat),
     let mine := fun (a : SigAdd) => decide (a.ctx = h) && decide (a.va = va) && decide (a.value = v)
     Answers (.signalAdd h va v) s fun t =>
       t = { s with sigAdds := dropFirst mine s.sigAdds }.addSignal ((s.sigAdds.find? mine).getD ⟨h, va, v, .link 0, 0, 0⟩)) ∧
   (∀ s : State, Answers .sigPoll s fun t =>
     t.watch = s.watch.filter (fun w => !s.watchReached w) ∧
       (∀ w ∈ s.watch, s.watchReached w = true →
         (∀ k, w.who = .seq k → (t.seq k).released = true) ∧
         (∀ k g h va, g < 64 → w.who = .group k g → (s.group k g).wait = .sig h va → (t.group k g).wait = .none) ∧
         ∀ r a, w.who = .cmd r a → ∀ c ∈ (t.ring r).accepted, c.aseq = a → c.reached = true) ∧
       ∀ k, (∀ w ∈ s.watch, w.who = .seq k → s.watchReached w = false) → t.seq k = s.seq k) ∧
   ∀ (s : State) (fn page v : Nat), isFn fn = true → s.up = true → isSignalPage page = true →
     let n := 4096 * fn + page
     let rejected := fun (t : State) => t = { s with rejects := Tbl.modify 0 s.rejects n fun n => (n + 1) % 2 ^ 32 }
     (s.doorSignal fn (v % 2 ^ 32) = none → Answers (.wake fn page v) s rejected) ∧
     (∀ x, s.doorSignal fn (v % 2 ^ 32) = some x → Answers (.wake fn page v) s fun t =>
       t.watch = s.watch.filter fun w => !(w.entry && s.sigPa w.ctx w.va = s.sigPa x.ctx x.va && s.watchReached w)) ∧
     (s.doorSignal fn (Tbl.get 0 s.addHandle n) = none → Answers (.addValue fn page v) s rejected) ∧
     ∀ x, s.doorSignal fn (Tbl.get 0 s.addHandle n) = some x → Answers (.addValue fn page v) s fun t =>
       t = s.addSignal ⟨x.ctx, x.va, v % 2 ^ 64, .host (fn / 16), 0, 0⟩) ∧
  (∀ (s : State) (fn page v : Nat), isFn fn = true → s.up = true → isSignalPage page = true →
     let i := bits 5 0 v
     let b := 128 + fn / 16
     let may := bits 31 6 v = 0 ∧ (fn % 16 = 0 ∨ s.ctr (oFuncPartition fn) = s.objD 0xFF (oOwner i)) ∧ (s.ctr (oMembers i)).testBit b = true ∧
       s.ctr (oChordState i) ≠ 3
     ((¬ may ∨ s.arrivalFor i b = none) → Answers (.chordArrive fn page v) s fun t =>
       t = { s with rejects := Tbl.modify 0 s.rejects (4096 * fn + page) fun n => (n + 1) % 2 ^ 32 }) ∧
     (may → s.arrivalFor i b = some false → setBit (s.ctr (oArrived i)) b ≠ s.ctr (oMembers i) → Answers (.chordArrive fn page v) s fun t =>
       t.ctr (oArrived i) = setBit (s.ctr (oArrived i)) b ∧ t.ctr (oRound i) = s.ctr (oRound i) ∧ t.rejects = s.rejects) ∧
     (may → s.arrivalFor i b = some true → Answers (.chordArrive fn page v) s fun t =>
       (t.chordU i).next = setBit (s.chordU i).next b ∧ t.ctr (oArrived i) = s.ctr (oArrived i) ∧ t.ctr (oRound i) = s.ctr (oRound i)) ∧
     (may → s.arrivalFor i b = some false → setBit (s.ctr (oArrived i)) b = s.ctr (oMembers i) → (s.chordU i).next = 0 → s.remotes i = [] →
       s.sigOf (s.ctr (oReleaseSig i)) = none → Answers (.chordArrive fn page v) s fun t =>
         t.ctr (oRound i) = s.ctr (oRound i) + 1 ∧ t.ctr (oArrived i) = 0 ∧ (t.chordU i).relTime = s.now) ∧
     (∀ x, may → s.arrivalFor i b = some false → setBit (s.ctr (oArrived i)) b = s.ctr (oMembers i) → (s.chordU i).next = 0 → s.remotes i = [] →
       s.sigOf (s.ctr (oReleaseSig i)) = some x → Answers (.chordArrive fn page v) s fun t => ∃ u : State,
         u.ctr (oRound i) = s.ctr (oRound i) + 1 ∧ u.ctr (oArrived i) = 0 ∧ (u.chordU i).relTime = s.now ∧
           t = ((u.addSignal ⟨x.ctx, x.va, 1, .link 0, 0, 0⟩).chordState i).tryRelease i) ∧
     (∀ r, may → s.arrivalFor i b = some false → setBit (s.ctr (oArrived i)) b = s.ctr (oMembers i) → s.remotes i = [r] → hKind r = 3 →
       s.fresh r = true → (s.chordU i).sent = false → (s.chordU i).remote.testBit 0 = false →
       (s.arc (hSlot r)).live = true → (s.arc (hSlot r)).state ≠ 3 → (s.arc (hSlot r)).unacked.length < 256 →
       Answers (.chordArrive fn page v) s fun t => t.ctr (oRound i) = s.ctr (oRound i) ∧ (t.chordU i).sent = true ∧
         ∃ y, (t.arc (hSlot r)).unacked = (s.arc (hSlot r)).unacked ++ [y] ∧ y.m.mtype = 12 ∧ y.m.addr = s.ctr (oRound i) + 1 ∧ y.sent = false))

/-! ### Perimeter links and arcs -/

/-- A link comes up and goes down (R358, R454, R456): a cable, 100 ms, training, HELLOs, and what ends them.
Flits, credits, forwarding and draining (R355, R356, R360, R361, R374): a message not begun leaves a drained link (the model's choice: log entry 63), and
STOP follows the end of the last drain that the latch waits for (R455, log entry 60). -/
def Obligations.LinksTrainAndCarry : Prop :=
  (∀ (s : State) (l : Nat), isLink l = true →
     ((s.link l).prsntSince = none → Answers (.linkPrsntAssert l) s fun t =>
       (t.link l).prsntSince = some s.now ∧ t.nat oPresence = setBit (s.nat oPresence) l ∧ t.linkState l = s.linkState l) ∧
     (∀ p, (s.link l).prsntSince = some p → s.linkState l = lsDown →
       (Answers (.linkTrainingStart l) s fun t => t.linkState l = lsTraining ∧ t.now = max s.now (p + 100000000)) ∧
       (Answers (.linkDownLedTimer l) s fun t => (t.link l).downLate = true ∧ t.now = max s.now (p + 5000000000) ∧ t.linkState l = lsDown)) ∧
     (∀ p, (s.link l).prsntSince = some p → s.linkState l ≠ lsRetired → s.stopDue l = false → Answers (.linkPrsntDeassert l) s fun t =>
       (t.link l).prsntSince = none ∧ t.linkState l = lsDown ∧ t.nat (oNbrVertex l) = 0xFFFF ∧ (t.link l).queue = [] ∧ (t.link l).replay = [] ∧
         t.ctr oUndrainedPulls = (if s.linkState l = lsDrained then s.ctr oUndrainedPulls else min (s.ctr oUndrainedPulls + 1) (2 ^ 32 - 1))) ∧
     (s.linkState l = lsTraining → (s.link l).trained = false → Answers (.linkTrained l) s fun t =>
       (t.link l).trained = true ∧ (t.link l).heard = false ∧ t.linkState l = lsTraining) ∧
     (s.helloes l = true →
       (Answers (.helloSend l) s fun t => t.out.getLast? = some (.lctrl l 0 s.vertex l) ∧
         t.now = max s.now ((s.link l).helloAt + if (s.link l).heard then 100000000 else 1000000)) ∧
       (s.stopDue l = false → Answers (.helloTimeout l) s fun t =>
         t.linkState l = lsTraining ∧ (t.link l).trained = false ∧ t.now = max s.now ((s.link l).lastHello + 300000000)) ∧
       ∀ vertex nlink,
         ((s.assigned = false ∨ vertex ≠ s.vertex) → Answers (.hello l vertex nlink) s fun t =>
           t.linkState l = (if s.linkState l = lsTraining ∨ s.linkState l = lsLooped then lsUp else s.linkState l) ∧
             t.nat (oNbrVertex l) = vertex % 65536 ∧ t.nat (oNbrLink l) = nlink % 256 ∧ (t.link l).heard = true ∧ (t.link l).lastHello = s.now) ∧
         (s.assigned = true → vertex = s.vertex → Answers (.hello l vertex nlink) s fun t => t.linkState l = lsLooped ∧ (t.link l).trained = true))) ∧
  (∀ (s : State) (l : Nat), isLink l = true →
     (s.helloes l = true →
       (∀ seq, seq < 4096 → (s.link l).queue = [] → Answers (.lctrlAck l seq) s fun t =>
         (t.link l).replay = (s.link l).replay.filter fun f => !acked seq f.lseq) ∧
       (∀ seq, seq < 4096 → (∀ f ∈ (s.link l).replay, acked seq f.lseq = false) → (s.link l).replay ≠ [] →
         ((s.link l).replays < 7 → Answers (.lctrlNak l seq) s fun t =>
           t.link l = { s.link l with replays := (s.link l).replays + 1 } ∧ t.ctr (oReplays l) = min (s.ctr (oReplays l) + 1) (2 ^ 32 - 1) ∧
             t.out = s.out ++ (s.link l).replay.flatMap fun f =>
               Out.flit l (linkHeader f (s.link l).expect) (if f.first then some (transportHeader f.m) else none) ::
                 (if f.last then [Out.perimeter l f.m] else [])) ∧
         (7 ≤ (s.link l).replays → s.stopDue l = false → Answers (.lctrlNak l seq) s fun t =>
           t = ((((s.setLink l { s.link l with replays := (s.link l).replays + 1 }).bump 4 (oReplays l) 1).retrain l).report (l / 6) (384 + 2 * (l % 6))
             .linkRetrained))) ∧
       (∀ cls vc n, cls < 2 → vc < 4 → n < 4096 → (s.link l).queue = [] → Answers (.lctrlCredit l cls vc n) s fun t =>
         Tbl.get 0 (t.link l).credits (4 * cls + vc) = Tbl.get 0 (s.link l).credits (4 * cls + vc) + n ∧
           ∀ k, k ≠ 4 * cls + vc → Tbl.get 0 (t.link l).credits k = Tbl.get 0 (s.link l).credits k) ∧
       (∀ left m, (s.link l).queue = [(left, m)] → Tbl.get 0 (s.link l).credits (creditKey m.cls m.mtype) = 0 → m.cls < 2 →
         (s.link l).replay.length < 512 → s.linkState l = lsUp → Answers (.lctrlCredit l m.cls (vcOf m.mtype) 1) s fun t =>
           let f : Flit := { lseq := (s.link l).nextSeq, m := m, first := decide (left = flitsOf m), last := decide (left ≤ 1), sentAt := s.now }
           (t.link l).replay = (s.link l).replay ++ [f] ∧ (t.link l).queue = (if left ≤ 1 then [] else [(left - 1, m)]) ∧
             Tbl.get 0 (t.link l).credits (creditKey m.cls m.mtype) = 0 ∧ (t.link l).nextSeq = ((s.link l).nextSeq + 1) % 4096) ∧
       ((s.link l).naking = true → Answers (.flitCrcFail l) s fun t => t = s) ∧
       ((s.link l).naking = false → Answers (.flitCrcFail l) s fun t =>
         t.link l = { s.link l with naking := true } ∧ t.out = s.out ++ [.lctrl l 2 (s.link l).expect 0])) ∧
     (∀ m : PMsg, s.carries l = true → m.dv ≠ s.vertex →
       (m.hops = 0 → Answers (.messageForward l m) s fun t =>
         t = (s.flitsIn l m).bump 4 oHopDrops 1) ∧
       (m.hops ≠ 0 → (s.flitsIn l m).chooseAlt (s.routeEntry (l / 6) m.dv) { m with hops := m.hops - 1 } = none →
         Answers (.messageForward l m) s fun t => t = (s.flitsIn l m).bump 4 oNoRouteDrops 1) ∧
       ∀ a, m.hops ≠ 0 → (s.flitsIn l m).chooseAlt (s.routeEntry (l / 6) m.dv) { m with hops := m.hops - 1 } = some a →
         Answers (.messageForward l m) s fun t =>
           t.ctr oForwardedBytes = min (s.ctr oForwardedBytes + 256 * flitsOf m) (2 ^ 64 - 1) ∧
             (512 ≤ ((s.flitsIn l m).link (a % 64)).replay.length →
               (t.link (a % 64)).queue = ((s.flitsIn l m).link (a % 64)).queue ++
                 [(flitsOf m, { m with hops := m.hops - 1, cls := classVia m.cls a })])) ∧
     (s.linkState l = lsDraining →
       (s.stopDue l = false → (∀ q ∈ (s.link l).queue, flitsOf q.2 ≤ q.1) → (s.link l).replay = [] → Answers (.linkDrained l) s fun t =>
         t.linkState l = lsDrained ∧ (t.link l).queue = [] ∧
         ∀ e ∈ t.arcs, ∀ x ∈ e.2.unacked, x.link = l → x.sent = false) ∧
       (s.stopDue l = true →
         (∀ p, (s.link l).prsntSince = some p → Answers (.linkPrsntDeassert l) s fun t => t.mstate = msAuxOnly ∧ t.powered = false ∧ t.latchStop = false) ∧
         ((∀ q ∈ (s.link l).queue, flitsOf q.2 ≤ q.1) → (s.link l).replay = [] → Answers (.linkDrained l) s fun t =>
           t.mstate = msAuxOnly ∧ t.powered = false ∧ t.latchStop = false) ∧
         (s.helloes l = true → Answers (.helloTimeout l) s fun t => t.mstate = msAuxOnly ∧ t.powered = false ∧ t.latchStop = false) ∧
         (∀ seq, s.helloes l = true → seq < 4096 → (∀ f ∈ (s.link l).replay, acked seq f.lseq = false) → (s.link l).replay ≠ [] →
           7 ≤ (s.link l).replays → Answers (.lctrlNak l seq) s fun t => t.mstate = msAuxOnly ∧ t.powered = false ∧ t.latchStop = false) ∧
         Answers (.drainTimeout l) s fun t => t.mstate = msAuxOnly ∧ t.powered = false ∧ t.latchStop = false) ∧
       (s.stopDue l = false → Answers (.drainTimeout l) s fun t => t.linkState l = lsDrained ∧ t.now = max s.now ((s.link l).drainSince + s.nat oDrainTimeout) ∧
         ((t.link l).queue = (s.link l).queue.filter fun q => q.1 < flitsOf q.2) ∧ ∀ e ∈ t.arcs, ∀ x ∈ e.2.unacked, x.link = l → x.sent = false)))

/-- Numbered messages of an arc (R365, R367, R368): the next one is applied, one ahead waits in the window, and an ACK ends what it names. -/
def Obligations.MessagesAreApplied : Prop :=
  (∀ (s : State) (l slot ty : Nat) (m : PMsg) (cmd : Instr),
    (cmd, ty) ∈ ([(.msgWrite l m, 0), (.msgReduce l m, 1), (.msgReadReq l m, 2), (.msgReadData l m, 3), (.msgAtomic l m, 4), (.msgAtomicRsp l m, 5),
      (.msgArrive l m, 12)] : List (Instr × Nat)) →
    s.Heard l slot m ty →
    let a := s.arc slot
    let d := (m.mseq + 2 ^ 32 - a.applied) % 2 ^ 32
    (1 < d → d ≤ 256 → (∀ x ∈ a.window, x.mseq ≠ m.mseq ∧ x.mseq ≠ (a.applied + 1) % 2 ^ 32) → m.mseq ≠ (a.applied + 1) % 2 ^ 32 →
      Answers cmd s fun t => t.arc slot = { a with window := a.window ++ [m] } ∧ t.hbm = s.hbm) ∧
    ((d = 0 ∨ 2 ^ 31 ≤ d) → a.window = [] → Answers cmd s fun t => t.arc slot = { a with sinceAck := 0 } ∧ t.hbm = s.hbm) ∧
    (256 < d → d < 2 ^ 31 → Answers cmd s fun t => t = s.flitsIn l m) ∧
    (∀ v, a.Next m → (s.taking l slot m).applyMsg slot m = (v, true) → (v.arc slot).window = [m] → (v.arc slot).sinceAck = a.sinceAck →
      Answers cmd s fun t => t.hbm = v.hbm ∧ t.dc = v.dc ∧ t.peers = v.peers ∧ (t.arc slot).applied = m.mseq ∧ (t.arc slot).window = [] ∧
        (t.arc slot).unacked = (v.arc slot).unacked)) ∧
  (∀ (s : State) (l slot : Nat) (m : PMsg), (s.arc slot).Next m →
    let a := s.arc slot
    let u := s.taking l slot m
    (s.Heard l slot m 0 → m.sig = none → m.data ≠ [] → m.addrk = 1 → u.inRegion a.part m.addr m.data.length = true →
      u.rangeBusy m.addr m.data.length = false → m.addr < 2 ^ 56 → Answers (.msgWrite l m) s fun t =>
        t.hbm = (u.agentWrite (arcAgent a) m.addr m.data.length (leNat m.data)).hbm ∧ (t.arc slot).applied = m.mseq) ∧
    (s.Heard l slot m 1 → m.sig = none → m.data ≠ [] → m.addrk = 1 → u.inRegion a.part m.addr m.data.length = true →
      u.rangeBusy m.addr m.data.length = false → m.addr < 2 ^ 56 → Answers (.msgReduce l m) s fun t =>
        t.hbm = (u.reduceAt (arcAgent a) (copyRed m.opx) m.addr m.data.length (leNat m.data)).hbm ∧ (t.arc slot).applied = m.mseq) ∧
    (s.Heard l slot m 2 → a.unacked.length < 256 → a.state ≠ 3 → m.addrk = 1 → u.inRegion a.part m.addr (max m.len 1) = true →
      u.rangeBusy m.addr m.len = false → m.addr < 2 ^ 56 → Answers (.msgReadReq l m) s fun t =>
        let r := u.agentRead (arcAgent a) m.addr m.len
        ∃ x, (t.arc slot).unacked = a.unacked ++ [x] ∧ x.m.mtype = 3 ∧ x.m.data = leBytes m.len r.2.1 ∧ x.m.opx = (if r.2.2 then 1 else 0)) ∧
    (s.Heard l slot m 4 → a.unacked.length < 256 → a.state ≠ 3 → m.addrk = 1 →
      let w := if atomOp m.opx = .cas then m.data.length / 2 else m.data.length
      u.inRegion a.part m.addr (max w 1) = true → u.rangeBusy m.addr w = false → m.addr < 2 ^ 56 → Answers (.msgAtomic l m) s fun t =>
        let r := u.agentAtom (arcAgent a) (atomOp m.opx) m.addr w (leNat (m.data.take w)) (leNat (m.data.drop w))
        t.hbm = r.1.hbm ∧ ∃ x, (t.arc slot).unacked = a.unacked ++ [x] ∧ x.m.mtype = 5 ∧ x.m.data = leBytes w r.2.1) ∧
    (∀ cmd ty, (cmd, ty) ∈ ([(.msgReadData l m, 3), (.msgAtomicRsp l m, 5)] : List (Instr × Nat)) → s.Heard l slot m ty →
      Answers cmd s fun t => t.peers = (s.peerAnswer slot (leNat m.data) (m.opx = 1)).peers ∧ (t.arc slot).applied = m.mseq) ∧
    (s.Heard l slot m 12 →
      let ends := (List.range 64).filter fun i => (s.remotes i).any fun h => hSlot h = slot && hKind h = 3 && s.fresh h
      (ends = [] → Answers (.msgArrive l m) s fun t => t.ctr oRemoteErrors = min (s.ctr oRemoteErrors + 1) (2 ^ 32 - 1)) ∧
      ∀ i j, ends = [i] → ((List.range (s.remotes i).length).find? fun j => hSlot ((s.remotes i).getD j 0) = slot) = some j →
        m.addr = s.ctr (oRound i) + 2 → Answers (.msgArrive l m) s fun t =>
          (t.chordU i).remoteNext = setBit (s.chordU i).remoteNext j ∧ t.ctr (oRound i) = s.ctr (oRound i))) ∧
  ∀ (s : State) (l slot : Nat) (m : PMsg), s.Heard l slot m 6 → (((s.arc slot).next + 2 ^ 32 - m.mseq) % 2 ^ 32 < 2 ^ 31) →
    (∀ i, i < 64 → ∀ h ∈ s.remotes i, hSlot h ≠ slot) →
    Answers (.msgAck l m) s fun t =>
      (t.arc slot).unacked = (s.arc slot).unacked.filter fun x => decide (2 ^ 31 ≤ (m.mseq + 2 ^ 32 - x.m.mseq) % 2 ^ 32)

/-- Sending, opening, resolving and the timers of arcs (R364 to R366, R369, R373).
What refuses messages, and what an arc end does with a NACK (R366, R369 to R373). -/
def Obligations.ArcsOpenResendAndRefuse : Prop :=
  (∀ (s : State) (slot : Nat),
     let a := s.arc slot
     let k := s.keyOf a
     let n := (Tbl.get 0 k.kctr (a.ce / 4) + 1) % 2 ^ 64
     (∀ pre x post, a.live = true → a.kind ≠ 0 → a.state = 1 → a.keywait = false → s.assigned = true → s.noKey a = false →
       a.unacked = pre ++ x :: post → (∀ y ∈ pre, y.sent = true) → x.sent = false → Answers (.messageTransmit slot) s fun t =>
         Tbl.get 0 (t.keyOf a).kctr (a.ce / 4) = n ∧
           ∃ y, (t.arc slot).unacked = pre ++ y :: post ∧ y.sent = true ∧ y.lastTx = s.now ∧ y.m = { x.m with kctr := n }) ∧
     (a.live = true → a.kind ≠ 0 →
       (a.sinceAck ≠ 0 → a.window = [] → Answers (.ackTimer slot) s fun t =>
         t.arc slot = (if s.noKey a then a else { a with sinceAck := 0 }) ∧ t.now = max s.now (a.ackAt + 2000)) ∧
       (a.sinceAck = 0 → a.window = [] → Answers (.ackTimer slot) s fun t => t = s) ∧
       ((a.state = 0 ∨ a.state = 2) → Answers (.arcRetryTimer slot) s fun t =>
         t.now = max s.now (a.ctlAt + 1000000) ∧ t.arc slot = { a with ctlAt := t.now }) ∧
       (a.state = 4 → a.keywait = true → Answers (.arcRtoExpire slot) s fun t =>
         t.now = max s.now (a.ctlAt + s.arcRto a) ∧ t.arc slot = { a with ctlAt := t.now }) ∧
       (∀ x, a.state = 1 → a.keywait = true → a.unacked = [x] → s.assigned = true → s.noKey a = false → Answers (.arcRtoExpire slot) s fun t =>
         t.now = max s.now (x.lastTx + s.arcRto a) ∧
           ∃ y, (t.arc slot).unacked = [y] ∧ y.resends = x.resends ∧ y.lastTx = t.now ∧ y.m = { x.m with kctr := n }) ∧
       (a.state = 4 → a.keywait = false →
         (s.nat oArcResendLimit ≤ a.resolves → Answers (.arcRtoExpire slot) s fun t => (t.arc slot).state = 3 ∧ (t.arc slot).unacked = []) ∧
         (a.resolves < s.nat oArcResendLimit → Answers (.arcRtoExpire slot) s fun t =>
           t.now = max s.now (a.ctlAt + s.arcRto a) ∧ t.arc slot = { a with resolves := a.resolves + 1, ctlAt := t.now })) ∧
       ∀ x, a.state = 1 → a.keywait = false → a.unacked = [x] → x.sent = true → x.lastTx + s.arcRto a < 2 ^ 64 →
         (s.nat oArcResendLimit ≤ x.resends → Answers (.arcRtoExpire slot) s fun t =>
           (t.arc slot).state = 2 ∧ (x.ring = 0 → t.now = max s.now (x.lastTx + s.arcRto a))) ∧
         (x.resends < s.nat oArcResendLimit → s.assigned = true → s.noKey a = false → Answers (.arcRtoExpire slot) s fun t =>
           t.now = max s.now (x.lastTx + s.arcRto a) ∧
             ∃ y, (t.arc slot).unacked = [y] ∧ y.resends = x.resends + 1 ∧ y.lastTx = t.now ∧ y.m = { x.m with kctr := n })) ∧
     ∀ (l : Nat) (m : PMsg),
       (s.Named l slot m 8 → m.opx = a.kind → Answers (.msgOpen l m) s fun t =>
         let b := t.arc slot
         b.darc = m.sarc ∧ b.depoch = m.depoch ∧ b.state = (if a.state = 0 then 1 else a.state) ∧
           ((a.darc ≠ m.sarc ∨ a.depoch ≠ m.depoch) → b.applied = 0 ∧ b.window = []) ∧
           (a.darc = m.sarc → a.depoch = m.depoch → b.applied = a.applied ∧ b.window = a.window)) ∧
       (s.Named l slot m 9 → a.state = 0 → Answers (.openRsp l m) s fun t =>
         t.arc slot = { a with darc := m.darc, depoch := m.depoch, state := 1, keywait := false }) ∧
       (s.Named l slot m 10 →
         let kept := m.darc = slot ∧ (m.depoch + 65536 - a.keptFrom) % 65536 ≤ (a.epoch + 65536 - a.keptFrom) % 65536
         Answers (.resolve l m) s fun t => t.arcs = s.arcs ∧
           t = (s.flitsIn l m).sendCtl slot { blankMsg with
             mtype := 11, darc := slot, depoch := a.epoch, mseq := a.applied, opx := if kept then 1 else 0, name := a.name }) ∧
       (s.Named l slot m 11 → (a.state = 2 ∨ a.state = 4) →
         (m.opx.testBit 0 = true → ((a.next + 2 ^ 32 - m.mseq) % 2 ^ 32 < 2 ^ 31) → (∀ i, i < 64 → ∀ h ∈ s.remotes i, hSlot h ≠ slot) →
           Answers (.resolveRsp l m) s fun t =>
           let b := t.arc slot
           b.darc = m.darc ∧ b.depoch = m.depoch ∧ b.state = 1 ∧ b.keywait = false ∧
             b.unacked = (a.unacked.filter fun x => decide (2 ^ 31 ≤ (m.mseq + 2 ^ 32 - x.m.mseq) % 2 ^ 32)).map fun (x : TxMsg) =>
               { x with sent := false, resends := 0 }) ∧
         (m.opx.testBit 0 = false → Answers (.resolveRsp l m) s fun t =>
           let b := t.arc slot
           b.next = 0 ∧ b.unacked = [] ∧ b.applied = 0 ∧ b.window = []))) ∧
  ((∀ (s : State) (l : Nat) (m : PMsg) (ty : Nat) (cmd : Instr),
     (cmd, ty) ∈ ([(.msgWrite l m, 0), (.msgReduce l m, 1), (.msgReadReq l m, 2), (.msgReadData l m, 3), (.msgAtomic l m, 4), (.msgAtomicRsp l m, 5),
       (.msgAck l m, 6), (.msgArrive l m, 12)] : List (Instr × Nat)) →
     isLink l = true → s.carries l = true → m.dv = s.vertex → m.mtype = ty →
     let a := s.arc m.darc
     let known := a.live = true ∧ a.kind ≠ 0 ∧ a.epoch = m.depoch ∧ a.vertex = m.sv
     (¬ known → Answers cmd s fun t => t.arcs = s.arcs ∧ t.hbm = s.hbm ∧ t.ctr oNackStale = min (s.ctr oNackStale + 1) (2 ^ 32 - 1)) ∧
     (known → (s.keyOf a).cur ≠ 0 → s.tagOk a m = false → Answers cmd s fun t =>
       t.arcs = s.arcs ∧ t.hbm = s.hbm ∧ t.ctr oAuthFails = min (s.ctr oAuthFails + 1) (2 ^ 32 - 1)) ∧
     (known → (s.keyOf a).cur = 0 → Answers cmd s fun t => t.arcs = s.arcs ∧ t.hbm = s.hbm ∧ t.ctr oAuthFails = s.ctr oAuthFails)) ∧
   ∀ (s : State) (l slot : Nat) (m : PMsg),
     let a := s.arc slot
     (s.Nacked l slot m 1 → a.state = 1 → Answers (.nackStale l m) s fun t => t.arc slot = { a with state := 4, resolves := 1, ctlAt := s.now }) ∧
     (s.Nacked l slot m 1 → a.state ≠ 1 → Answers (.nackStale l m) s fun t => t = s.flitsIn l m) ∧
     (s.Nacked l slot m 3 → Answers (.nackNokey l m) s fun t => t = (s.flitsIn l m).setArc slot { a with keywait := true }) ∧
     (∀ x, s.Nacked l slot m 2 → (a.unacked.find? fun t => t.m.mseq = m.mseq && t.sent) = some x →
       (a.keywait = true → Answers (.nackAuth l m) s fun t => t = s.flitsIn l m) ∧
       (a.keywait = false → x.nacks + 1 < s.nat oArcResendLimit → Answers (.nackAuth l m) s fun t =>
         t = (s.flitsIn l m).setArc slot { a with
           unacked := a.unacked.map fun (x : TxMsg) => if x.m.mseq = m.mseq then { x with nacks := x.nacks + 1, sent := false } else x }) ∧
       (a.keywait = false → s.nat oArcResendLimit ≤ x.nacks + 1 → Answers (.nackAuth l m) s fun t =>
         (t.arc slot).state = 3 ∧ (t.arc slot).unacked = [])))

/-! ### Security, measurements and the test access port -/

/-- Link keys (R431 to R433): SET derives a key and makes it current, the current one becomes the previous; a triple is used once; a partition that is
torn down takes no key; CLEAR empties the slot. Each request over a secured session is answered with its code.
TEARDOWN and TEARDOWN_DONE (R436): the partition's key slots are empty at once; when its steps are done it is out of TEARING-DOWN, its accounting
totals are 0 and it owns no chord instance. -/
def Obligations.KeysAndTeardowns : Prop :=
  (∀ (s : State) (q : KeyReq),
     let n := 16 * q.part + q.slot
     let k := s.keySlot n
     let code := fun (t : State) (c : Nat) => t.out = s.out ++ [.spdm spdmVendor [BitVec.ofNat 8 c]]
     (s.keyHeard q = false → (Answers (.keySet q) s fun t => t = s) ∧ Answers (.keyClear q) s fun t => t = s) ∧
     (s.keyHeard q = true →
       ((keyInRange q = false ∨ q.secret.length ≠ 32) → Answers (.keySet q) s fun t => code t 1 ∧ t.keys = s.keys) ∧
       (keyInRange q = false → Answers (.keyClear q) s fun t => code t 1 ∧ t.keys = s.keys) ∧
       (keyInRange q = true →
         (Answers (.keyClear q) s fun t =>
           code t 0 ∧ t.keySlot n = { k with cur := 0, prev := 0 } ∧ ∀ j, j ≠ n → t.keySlot j = s.keySlot j) ∧
         (q.secret.length = 32 →
           (s.ctr (oPartState q.part) = 2 → Answers (.keySet q) s fun t => code t 3 ∧ t.keys = s.keys) ∧
           (s.ctr (oPartState q.part) ≠ 2 →
             ((q.part, q.job, q.epoch) ∈ s.triples → Answers (.keySet q) s fun t => code t 2 ∧ t.keys = s.keys) ∧
             ((q.part, q.job, q.epoch) ∉ s.triples → Answers (.keySet q) s fun t =>
               code t 0 ∧ t.keySlot n = { cur := derivedKey q + 1, prev := k.cur, kctr := [], installs := k.installs + 1 } ∧
                 (q.part, q.job, q.epoch) ∈ t.triples ∧ (s.triples.length < 1024 → ∀ x ∈ s.triples, x ∈ t.triples) ∧
                 ∀ j, j ≠ n → t.keySlot j = s.keySlot j)))))) ∧
  ((∀ (s : State) (w : Who) (p : Nat) (c : Sess), isPart p = true → s.Takes w (oTeardown p) [1] c → Answers (.teardown w p 1) s fun t =>
     t.Accepted w ∧ t.ctr (oPartState p) = 2 ∧ (∀ i, i < 16 → (t.keySlot (16 * p + i)).cur = 0 ∧ (t.keySlot (16 * p + i)).prev = 0) ∧
       ∀ j, (j < 16 * p ∨ 16 * p + 16 ≤ j) → t.keySlot j = s.keySlot j) ∧
   ∀ (s : State) (p n : Nat), isPart p = true → Tbl.get 0 s.teardowns p = n + 1 → Answers (.teardownDone p) s fun t =>
     t.ctr (oPartState p) = 0 ∧ Tbl.get 0 t.teardowns p = 0 ∧ t.ctr (oEngineNs p) = 0 ∧ t.ctr (oMemBytes p) = 0 ∧ t.ctr (oLinkBytes p) = 0 ∧
       t.ctr (oHostBytes p) = 0 ∧ t.ctr (oEnergyMj p) = 0)

/-- SPDM and the test access port (R420, R427, R428), and the counters of a context (R412). -/
def Obligations.AttestationAndTap : Prop :=
  (∀ (s : State) (nonce : List Byte), s.acrunUp = true →
    (∀ i b, i ≠ 0 → i ≠ 0xFF → s.measureBlock i = some b → Answers (.getMeasurements i nonce) s fun t =>
      t.out = s.out ++ [.spdm spdmMeasurements (b ++ s.idSign (nonce ++ b))]) ∧
    (∀ i, i ≠ 0 → i ≠ 0xFF → s.measureBlock i = none → Answers (.getMeasurements i nonce) s fun t => t.out = s.out ++ [.spdm spdmError [1]]) ∧
    (Answers (.getMeasurements 0 nonce) s fun t => t.out = s.out ++ [.spdm spdmMeasurements (13 :: s.idSign (nonce ++ [13]))]) ∧
    (s.spdm < 4 → Answers .keyExchange s fun t => t.spdm = s.spdm + 1 ∧ t.out = s.out ++ [.spdm spdmKeyExchange (s.idSign [])]) ∧
    (4 ≤ s.spdm → Answers .keyExchange s fun t => t.spdm = s.spdm ∧ t.out = s.out ++ [.spdm spdmError [3]]) ∧
    (Answers (.getCertificate 0) s fun t => t.out = s.out ++ [.spdm spdmCertificate Config.certChain]) ∧
    (Answers (.challenge 0 nonce) s fun t => t.out = s.out ++ [.spdm spdmChallengeAuth (s.idSign nonce)]) ∧
    (∀ slot, slot ≠ 0 → (Answers (.getCertificate slot) s fun t => t.out = s.out ++ [.spdm spdmError [1]]) ∧
      Answers (.challenge slot nonce) s fun t => t.out = s.out ++ [.spdm spdmError [1]]) ∧
    Answers (.getMeasurements 0xFF nonce) s fun t =>
      let b := ([1, 2, 3, 4, 5] ++ List.range' 16 8).flatMap fun i => (s.measureBlock i).getD []
      t.out = s.out ++ [.spdm spdmMeasurements (b ++ s.idSign (nonce ++ b))]) ∧
  (∀ (s : State) (i : Nat) (nonce : List Byte), s.acrunUp = false → ∀ cmd ∈ ([.getMeasurements i nonce, .keyExchange, .getCertificate i,
    .challenge i nonce] : List Instr), Answers cmd s fun t => t = s) ∧
  (∀ s : State, Answers .spdmSessionEnd s fun t => t = { s with spdm := s.spdm - 1 }) ∧
  (∀ (s : State) (v : List Bool) (data : List Byte),
    (Answers .bypass s fun t => t = { s with tapIr := 0, out := s.out ++ [.tdo [false]] }) ∧
    (Answers .idcode s fun t => ∃ l : List Bool, t = { s with tapIr := 1, out := s.out ++ [.tdo l] } ∧ l.length = 32 ∧
      ∀ i, i < 32 → l.getD i false = Config.idcode.toNat.testBit i) ∧
    (Answers (.samplePreload v) s fun t => t.tapIr = 2 ∧ t.tapDr = v ∧ t.out = s.out ++ [.tdo s.pins]) ∧
    ((s.nat oModuleState = 0 ∨ s.nat oModuleState = 4) → Answers .extest s fun t => t.tapIr = 3 ∧ t.tapDr = s.tapDr ∧ t.out = s.out ++ [.tdo s.pins]) ∧
    (s.nat oModuleState ≠ 0 → s.nat oModuleState ≠ 4 → Answers .extest s fun t => t.tapIr = 0 ∧ t.out = s.out ++ [.tdo [false]]) ∧
    let u := { s with tapIr := 4, tapRsp := [], out := s.out ++ [.tdo (bitsOfBytes s.tapRsp)] }
    (data = [] → Answers (.geind data) s fun t => t = u) ∧
    (data ≠ [] → Answers (.geind data) s fun t => t = u.answerFrame tapPort (frameFrom data)) ∧
    (∀ f, (s.answer tapPort f).tapRsp = frameBytes f ∧ (s.answer tapPort f).out = s.out ++ [.frame tapPort f]) ∧
    ∀ i, i < 8 * data.length → (bitsOfBytes data).getD i false = (data.getD (i / 8) 0).toNat.testBit (i % 8)) ∧
  ∀ (s : State) (k : Nat) (h : Shard) (x : Ctx), isCore k = true → (s.core k).shard = some h → s.ctxOf h.ctx = some x →
    Answers (.ctxCounterUpdate k) s fun t =>
      (t.core k).cnts = [] ∧ ∀ i, i < 16 →
        let sel := lane 32 i x.cntCfg
        Tbl.get 0 (t.ctx (hSlot h.ctx)).cnt i =
          if sel.testBit 31 then (Tbl.get 0 x.cnt i + Tbl.get 0 (s.core k).cnts (bits 15 0 sel)) % 2 ^ 64 else Tbl.get 0 x.cnt i

/-! ### Power -/

/-- Fast limits, points and hints of clusters (R380, R384, R385, R390, R391).
The power manager's loop, margin samples and energy (R327, R379, R388, R390, R404). -/
def Obligations.PowerActs : Prop :=
  ((∀ (s : State) (c : Nat), isCluster c = true →
     (Answers (.droop c) s fun t => t.reason c 3 = true ∧ (t.cluster c).stretched = true ∧ t.ctr (oDroopEvents c) = min (s.ctr (oDroopEvents c) + 1) (2 ^ 32 - 1)) ∧
     (Answers (.droopEnd c) s fun t => t.reason c 3 = false ∧ (t.cluster c).stretched = s.reason c 4) ∧
     ((s.cluster c).goal ≠ 0 → Answers (.tangentLapse c) s fun t =>
       t.now = max s.now (s.cluster c).resvEnd ∧ t.cluster c = { s.cluster c with resv := 0, goal := 0, raiseAt := 0 }) ∧
     ((s.cluster c).slewing = true →
       let n := max (s.cluster c).target (s.ctr (oPointLimit c))
       ((s.cluster c).calibrated.testBit n = true → (s.pointMv c n ≤ 900 ∨ 3 ≤ n) → Answers (.pointSettled c) s fun t =>
         t.ctr (oPoint c) = n ∧ t.nat (oVoltage c) = s.pointMv c n ∧ (t.cluster c).slewing = false) ∧
       ((s.cluster c).calibrated.testBit n = true → 900 < s.pointMv c n → n < 3 → (s.cluster c).calibrated.testBit (n + 1) = true →
         (s.pointMv c (n + 1) ≤ 900 ∨ n = 2) → Answers (.pointSettled c) s fun t =>
           t.ctr (oPoint c) = n + 1 ∧ t.nat (oVoltage c) = s.pointMv c (n + 1) ∧ (t.cluster c).slewing = false)) ∧
     ((s.cluster c).slewing = false → Answers (.pointSettled c) s fun t => t = s)) ∧
   ∀ (s : State) (watts mv : Nat),
     ((12000 < watts ∨ s.objD 9600 oPowerCap < watts ∧ 10000000 ≤ s.overCap) → Answers (.currentLimit watts) s fun t =>
       t.currentLimit = true ∧ ∀ c, c < 24 → t.reason c 4 = true ∧ (t.cluster c).stretched = true) ∧
     (watts ≤ 12000 → watts ≤ s.objD 9600 oPowerCap → Answers (.currentLimit watts) s fun t =>
       t.currentLimit = false ∧ t.overCap = 0 ∧ ∀ c, c < 24 → t.reason c 4 = false ∧ (t.cluster c).stretched = s.reason c 3) ∧
     (watts ≤ 12000 → s.objD 9600 oPowerCap < watts → s.overCap < 10000000 → Answers (.currentLimit watts) s fun t => t = s) ∧
     (Answers (.vin48Undervoltage mv) s fun t => t.nat oVin48Mv = mv ∧ ∀ c, c < 24 →
       t.reason c 5 = (if mv < 42000 then true else if 43000 < mv then false else s.reason c 5)) ∧
     (Answers .throttleAssert s fun t => t.throttle = true ∧ ∀ c, c < 24 → t.reason c 8 = true ∧ (t.cluster c).stretched = true) ∧
     (Answers .throttleDeassert s fun t => t.throttle = false ∧ ∀ c, c < 24 → t.reason c 8 = false ∧ (t.cluster c).stretched = (s.reason c 3 || s.reason c 4))) ∧
  ((∀ (s : State) (m : PowerSample), Answers (.powerLoop m) s fun t =>
     t.grants = s.divideCap m (m.compute + (List.range 24).foldl (fun n c => n + (s.cluster c).resv) 0 / 1000) ∧
       t.nat oPowerNow = m.input ∧ t.nat oVin48Mv = m.vin48 ∧ t.nat oOutletTemp = twos 32 m.outlet ∧ (∀ p, p < 16 → t.nat (oPartPower p) = m.parts.getD p 0) ∧
       ∀ c, c < 24 → t.nat (oClTemp c) = twos 32 (m.temps.getD c 0)) ∧
   (∀ (s : State) (k mv : Nat), isCore k = true → Answers (.marginSample (.sram k mv)) s fun t =>
     t.nat (oSramVmin (k / 12) (k % 12)) = (match s.val (oSramVmin (k / 12) (k % 12)) with
       | none => mv
       | some x => max x mv)) ∧
   (∀ (s : State) (l n : Nat) (mv : Int), isLink l = true → n < 8 → s.val (oLaneEye (l / 6) (8 * (l % 6) + n)) = none →
     Answers (.marginSample (.lane l n mv)) s fun t =>
       t.nat (oLaneEye (l / 6) (8 * (l % 6) + n)) = twos 32 mv ∧ Tbl.get 0 (Tbl.get Link.reset t.links l).eyes n = mv) ∧
   (∀ (s : State) (c load mv : Nat) (ps : Int), isCluster c = true → 15 ≤ ps → (s.ctr (oProvisional c)).testBit (s.ctr (oPoint c)) = false →
     s.val (oTimingMin (c / 3) (c % 3)) = none → Answers (.marginSample (.timing c ps load mv)) s fun t =>
       t.nat (oMarginPs c) = twos 32 ps ∧ t.nat (oTimingMin (c / 3) (c % 3)) = twos 32 ps ∧ t.ctr (oPoint c) = s.ctr (oPoint c)) ∧
   (∀ (s : State) (c load mv : Nat) (ps : Int), isCluster c = true → ps < 15 → 3 ≤ s.ctr (oPoint c) →
     Answers (.marginSample (.timing c ps load mv)) s fun t =>
       t.nat (oMarginPs c) = twos 32 ps ∧ lane 16 (s.ctr (oPoint c)) (t.nat (oCalVolt c)) = mv % 65536 ∧
         (t.ctr (oProvisional c)).testBit (s.ctr (oPoint c)) = decide (load < 30)) ∧
   ∀ (s : State) (e : EnergySample), Answers (.energyRecalibrate e) s fun t =>
     (∀ p, p < 16 → t.ctr (oEnergyMj p) = min (s.ctr (oEnergyMj p) + e.parts.getD p 0) (2 ^ 64 - 1)) ∧
       t.ctr oIdleEnergy = min (s.ctr oIdleEnergy + e.idle) (2 ^ 64 - 1) ∧ t.ctr oEnergyTotal = min (s.ctr oEnergyTotal + e.total) (2 ^ 64 - 1))

/-! ### The ledger, starts and supplies -/

/-- Supplies, the reference clock and starts (R246, R424, R439 to R445, R447, R449, R467, R468): what each event makes of MODULE_STATE and of the start's record. -/
def Obligations.StartsAndSupplies : Prop :=
  (∀ (s : State) (mv : Nat),
    (s.aux = false → 3000 ≤ mv → s.refclk = true → s.vin48 = false → Answers (.auxPowerOn mv) s fun t =>
      t.aux = true ∧ t.ctlReady = true ∧ t.mstate = msAuxOnly ∧ t.nat oAuxMv = mv) ∧
    (s.ctlReady = true → s.mstate = msAuxOnly → 40000 < mv → Answers (.powerOn mv) s fun t =>
      t.mstate = msConfiguring ∧ t.nat oStartKind = kCold ∧ t.nat oStartCause = 1 ∧ t.nat oStartStep = 5 ∧ t.powered = true ∧ t.hbm = []) ∧
    (s.vin48 = true → mv < 38000 → Answers (.vin48Loss mv) s fun t =>
      t.vin48 = false ∧ t.powered = false ∧ t.hbm = [] ∧ (t.ctlReady = true → t.mstate = msAuxOnly ∧ t.nat oVin48Mv = mv)) ∧
    (s.aux = true → mv < 3000 → Answers (.auxLoss mv) s fun t =>
      t.aux = false ∧ t.ctlReady = false ∧ t.sess = [] ∧ t.subs = [] ∧ t.keys = [] ∧ t.hbm = [])) ∧
  (∀ s : State,
    (s.refclk = true → Answers .refclkLoss s fun t => t.refclk = false ∧ t.ctlReady = false ∧ t.sess = [] ∧ t.powered = false) ∧
    (s.refclk = false → s.aux = true → Answers .refclkRestored s fun t => t.refclk = true ∧ t.ctlReady = true ∧ t.mstate = msAuxOnly) ∧
    (∀ st, s.starting = some st → st.quiescing = true → Answers .quiesceTimeout s fun t =>
      t.mstate = msConfiguring ∧ t.nat oStartKind = kCold ∧ t.nat oStartCause = 6 ∧ t.nat oStartStep = 5) ∧
    (∀ st d, isDie d = true → s.starting = some st → st.kind = kWarm → Answers (.startTimeout (some d)) s fun t => t = s) ∧
    (∀ st d, isDie d = true → s.starting = some st → st.kind ≠ kWarm → Answers (.startTimeout (some d)) s fun t =>
      t.starting = none ∧ t.now = s.now ∧ ∃ k, t.failedStart = some (k, 0x1001)) ∧
    (∀ st, s.starting = some st → Answers (.startTimeout none) s fun t => t.starting = none ∧
      t.now = max s.now (st.began + (if st.kind = kWarm then 5 else if st.kind = kCold then 10 else 180) * 1000000000) ∧
        ∃ k, t.failedStart = some (k, 0x1004) ∧ (st.fromSafe = true → k = 0) ∧ (st.kind = kExtended → k = 0)) ∧
    (∀ code, s.failedStart = some (0, code) → Answers .startEscalation s fun t => t.mstate = msSafe ∧ t.nat oStartStep = 0 ∧ t.powered = false) ∧
    (∀ k code, s.failedStart = some (k, code) → (k = kWarm ∨ k = kCold ∨ k = kExtended) → Answers .startEscalation s fun t =>
      t.mstate = msConfiguring ∧ t.nat oStartKind = k ∧ t.nat oStartCause = 5 ∧ t.starting.isSome = true) ∧
    (∀ st bad, bad.all isStack = true → s.starting = some st → Answers (.startComplete bad) s fun t =>
      (t.mstate = msReady ∨ t.mstate = 3) ∧ t.starting = none ∧ t.fetchStop = false ∧ t.nat oStartStep = 0 ∧
        (st.kind = kWarm → ∀ n ∈ bad, t.nat (oLastFullTrain n) = s.mtime ∧ ∀ a, n * 2 ^ 31 ≤ a → a < (n + 1) * 2 ^ 31 → a ∈ t.poison))) ∧
  (∀ (s : State) (d : Nat), isDie d = true →
    (s.starting = none → s.up = true → Answers (.watchdog d) s fun t =>
      t.mstate = msConfiguring ∧ t.nat oStartKind = kWarm ∧ t.nat oStartCause = 4 ∧ t.nat oStartStep = 1) ∧
    (∀ st, s.starting = some st → Answers (.watchdog d) s fun t => t.starting = none ∧ ∃ k, t.failedStart = some (k, 0x1003)) ∧
    (s.starting = none → Answers (.pllLockLoss d) s fun t => t.nat (oPllLock d) = 0 ∧ (d = 0 → Tbl.get false t.hostLost 0 = true) ∧
      (d = 7 → Tbl.get false t.hostLost 1 = true) ∧ t.now = s.now) ∧
    (∀ st, s.starting = some st → Answers (.pllLockLoss d) s fun t => t.starting = none ∧ ∃ k, t.failedStart = some (k, 0x1002))) ∧
  ∀ (s : State) (sensor : Nat) (mdeg : Int),
    (110000 ≤ mdeg → s.mstate ≠ msAuxOnly → s.mstate ≠ msSafe → Answers (.thermalTrip sensor mdeg) s fun t =>
      t.mstate = msSafe ∧ t.safeThermal = true ∧ t.powered = false) ∧
    (mdeg < 110000 → Answers (.thermalTrip sensor mdeg) s fun t => t = s)

/-- Host ports and management Ethernet (R52, R314, R443, R446).
The service panel and board signals (R452 to R455, R458, R472); that the STOP of a latch waits for the drains is the model's choice (log entry 60). -/
def Obligations.PortsAndPanel : Prop :=
  ((∀ (s : State) (p : Nat), p < 2 →
     (Answers (.hostLinkDown p) s fun t => Tbl.get false t.hostLost p = true ∧ Tbl.get false t.hostTraining p = true) ∧
     (Tbl.get false s.hostLost p = true → Answers (.hostLinkDown p) s fun t => t = { s with hostTraining := Tbl.set s.hostTraining p true }) ∧
     (Tbl.get false s.hostLost p = false → (∀ e, e < 32 → (s.ring (kCopyRing e)).copying = []) →
       ((∀ k, k < 96 → s.running k = false) → Answers (.hostLinkDown p) s fun t =>
         t = { s with hostLost := Tbl.set s.hostLost p true, hostTraining := Tbl.set s.hostTraining p true }) ∧
       ∀ k h, k < 96 → (s.core k).shard = some h → s.running k = true → Answers (.hostLinkDown p) s fun t =>
         (t.core k).shard = some h ∨ (t.core k).shard = some { h with code := 0x0A04 }) ∧
     (Answers (.hostPortReset p) s fun t => Tbl.get false t.hostLost p = true ∧ Tbl.get false t.hostTraining p = true ∧
       ∀ i, i < 16 → t.ctr (oCtlEnable (16 * p + i)) = 0 ∧ t.val (oCtlRingBase (16 * p + i)) = dfltOf (oCtlRingBase (16 * p + i))) ∧
     (s.powered = true → s.ctr (oPllLock (7 * p)) = 1 →
       (∀ st, s.starting = some st → Answers (.hostConfigReady p) s fun t =>
         t.nat oStartStep = 6 ∧ t.starting = some { st with quiescing := false } ∧ Tbl.get false t.hostTraining p = false ∧
           Tbl.get false t.hostLost p = false ∧ (st.kind = kExtended → ∀ n, n < 48 → t.nat (oEvictMode n) = 2)) ∧
       (s.starting = none → s.up = true → Answers (.hostConfigReady p) s fun t =>
         Tbl.get false t.hostTraining p = false ∧ Tbl.get false t.hostLost p = false ∧ t.obj = s.obj)) ∧
     (s.powered = false → Answers (.hostConfigReady p) s fun t => t = s)) ∧
   ∀ s : State, (Answers .ethLinkDown s fun t => t = s.put oEthLink 0) ∧ Answers .ethLinkUp s fun t => t = s.put oEthLink 1) ∧
  (∀ s : State,
     let quiet := s.mstate = msConfiguring ∨ s.mstate = msSafe
     (quiet → Answers .svcBtnPress s fun t => t = s.bump 4 oBtnIgnored 1) ∧
     (¬ quiet →
       ((s.nat oIdentify).testBit 8 = false → Answers .svcBtnPress s fun t =>
         t.nat oIdentify = setBit (s.nat oIdentify) 8 ∧ Tbl.get 0 t.identifyEnds 8 = s.now + 60000000000) ∧
       ((s.nat oIdentify).testBit 8 = true → Answers .svcBtnPress s fun t => t.nat oIdentify = clrBit (s.nat oIdentify) 8)) ∧
     ((s.mstate = msConfiguring ∨ (s.nat oBtnEnable).testBit 8 = false) → Answers .svcBtnHold s fun t => t = s.bump 4 oBtnIgnored 1) ∧
     (s.mstate ≠ msConfiguring → (s.nat oBtnEnable).testBit 8 = true → s.startOk kCold = true → Answers .svcBtnHold s fun t =>
       t.mstate = msConfiguring ∧ t.nat oStartKind = kCold ∧ t.nat oStartCause = 3) ∧
     (∀ d, isDie d = true →
       ((quiet ∨ (s.nat oBtnEnable).testBit d = false) → Answers (.grpBtnPress d) s fun t => t = s.bump 4 oBtnIgnored 1)) ∧
     (s.nat oLatchState ≠ 1 →
       (s.nat oLatchAction = 0 → Answers .latchAssert s fun t => t.nat oLatchState = 1 ∧ t.latchTimer = none ∧ ∀ l, l < 48 → t.linkState l = s.linkState l) ∧
       (s.nat oLatchAction = 1 → Answers .latchAssert s fun t => t.nat oLatchState = 1 ∧ ∀ l, l < 48 →
         t.linkState l = (if s.linkState l = lsUp then lsDraining else s.linkState l) ∧ (s.linkState l = lsUp → (t.link l).latchDrain = true)) ∧
       (2 ≤ s.nat oLatchAction → s.up = true →
         ((∀ l, l < 48 → s.linkState l ≠ lsUp ∧ s.linkState l ≠ lsDraining) → Answers .latchAssert s fun t =>
           t.mstate = msAuxOnly ∧ t.powered = false ∧ t.hbm = [] ∧ t.nat oLatchState = 1) ∧
         ((∃ l, l < 48 ∧ s.linkState l = lsUp) → Answers .latchAssert s fun t => t.latchStop = true ∧ t.up = true ∧ t.nat oLatchState = 1 ∧
           ∀ l, l < 48 → t.linkState l = if s.linkState l = lsUp then lsDraining else s.linkState l))) ∧
     (s.nat oLatchState ≠ 0 → Answers .latchDeassert s fun t =>
       t.nat oLatchState = 0 ∧ t.latchTimer = if s.vin48 then some (s.now + 5000000000) else none) ∧
     (∀ n, s.latchTimer = some n → Answers .latchResumeTimer s fun t => t.latchTimer = none ∧ t.now = max s.now n ∧ ∀ l, l < 48 →
       t.linkState l = if (s.link l).latchDrain = true ∧ (s.linkState l = lsDraining ∨ s.linkState l = lsDrained) then lsUp else s.linkState l) ∧
     (∀ b n, s.identifyEnds = [(b, n)] → Answers .identifyExpire s fun t =>
       t.identifyEnds = [] ∧ t.now = max s.now n ∧ t.nat oIdentify = clrBit (s.nat oIdentify) b) ∧
     (Answers (.inletTempMeasurement none) s fun t => t.nat oInletTemp = 0x80000000 ∧ t.alert = false) ∧
     ∀ mdeg : Int, -2147483648 < mdeg → mdeg < 2147483648 → Answers (.inletTempMeasurement (some mdeg)) s fun t =>
       t.nat oInletTemp = (mdeg % 4294967296).toNat ∧ (t.alert = true ↔ (s.nat oInletLimit : Int) < mdeg))

/-! ### Rules stated whole -/

/-- R481: a request with an item whose bits [35:32] or ISTATUS are not 0, or whose padding is not 0, is answered BAD-FRAME as a whole, and does
nothing. -/
def Obligations.BadItemsAreRefused : Prop :=
  ∀ (s : State) (p : Port) (f : Frame) (cmd : Instr),
    cmd ∈ ([.read p f, .consumeRead p f, .descriptorRead p f, .readMulti p f, .write p f, .subscribe p f, .subscribeCancel p f] : List Instr) →
    s.hears p = true → frameLost f = false → tagFails (s.received.findSess p f.session) f = false →
    (∃ it ∈ f.items, it.rsv ≠ 0 ∨ it.istatus ≠ 0 ∨ it.padOk = false) → (p.tr = .mbx → s.mbxFree p.fn = true) →
    Answers cmd s fun t =>
      (∃ rsp, t.Sent p rsp ∧ rsp.seq = f.seq ∧ rsp.status = stBadFrame ∧ rsp.items = []) ∧
        (∀ key, key ≠ oFramesIn → t.nat key = s.nat key) ∧ t.subs = s.received.subs ∧ t.sess = s.received.sess

/-- R60 to R62: what the codes of L8 and of L4 stand for, and an L4 code is the L8 code 4c + 48 of its sign; T8 and T2 are significands of 2¹⁵. -/
def Obligations.LCodesHaveTheirValues : Prop :=
  ∀ (neg : Bool),
    let sign := fun w => if neg then 2 ^ w else 0
    let zeroOrNan := if neg then FNum.nan else FNum.fin false 0 0
    (decodeFmt 1 (sign 7) = zeroOrNan ∧ decodeFmt 0 (sign 3) = zeroOrNan) ∧
    (∀ c, 1 ≤ c → c ≤ 127 →
      decodeFmt 1 (sign 7 + c) =
        .fin neg ([0x8000, 0x8B96, 0x9838, 0xA5FF, 0xB505, 0xC567, 0xD745, 0xEAC1].getD (c % 8) 0) (((c / 8 : Nat) : Int) - 8 - 15)) ∧
    ∀ c, 1 ≤ c → c ≤ 7 →
      decodeFmt 0 (sign 3 + c) = .fin neg (if c % 2 = 0 then 0x8000 else 0xB505) (((c / 2 : Nat) : Int) - 2 - 15) ∧
        decodeFmt 0 (sign 3 + c) = decodeFmt 1 (sign 7 + (4 * c + 48)) ∧ lOperand 0 (sign 3 + c) = lOperand 1 (sign 7 + (4 * c + 48))

/-- R164: a core counts every command that it begins, and halts before loading the program of one that a breakpoint matches, uncounted. -/
def Obligations.BreakpointsHalt : Prop :=
  (∀ (s : State) (k key : Nat) (c : Cmd), isCore k = true → s.coreFree k = true → s.pickRing k = some key → s.ableCmd key = some c →
    s.firstFree k key = true → (∀ x, s.ctxOf c.ctx = some x → x.error = false) →
    let b := s.ctr (oBrkCtrl k)
    let hit := b.testBit 0 = true ∧ s.ctr (oCommandCount k) + 1 = s.ctr (oBrkCount k) ∨
      b.testBit 1 = true ∧ (c.tag ^^^ s.ctr (oBrkTag k)) &&& s.ctr (oBrkMask k) = 0
    (hit → Answers (.shardBegin k) s fun t => t.seqState k = 3 ∧ t.seq k = s.seq k ∧ t.ctr (oCommandCount k) = s.ctr (oCommandCount k)) ∧
    (¬ hit → Answers (.shardBegin k) s fun t =>
      t.seqState k ≠ 3 ∧ t.ctr (oCommandCount k) = min (s.ctr (oCommandCount k) + 1) (2 ^ 64 - 1)) ∧
    (b.testBit 1 = true → s.ctr (oBrkMask k) = 0 → Answers (.shardBegin k) s fun t => t.seqState k = 3)) ∧
  ∀ (s : State) (w : Who) (k : Nat) (c : Sess) (h : Shard), isCore k = true → s.Takes w (oResume k) (leBytes 2 0) c → s.seqState k = 3 →
    (s.core k).shard = some h → h.begun = false → (∀ x, s.ctxOf h.ctx = some x → x.error = false) → Answers (.resume w k) s fun t =>
      t.Accepted w ∧ t.ctr (oCommandCount k) = min (s.ctr (oCommandCount k) + 1) (2 ^ 64 - 1)

/-- R453: a press of an enabled group button drains every link of the group that has a cable and is neither DRAINING nor DRAINED, whatever routes
need it; where there is none, it resumes those that are. -/
def Obligations.GroupPressDrainsOrResumes : Prop :=
  ∀ (s : State) (d : Nat), isDie d = true → (s.nat oBtnEnable).testBit d = true → s.mstate ≠ msConfiguring → s.mstate ≠ msSafe →
    let out := fun l => s.linkState l = lsDraining ∨ s.linkState l = lsDrained
    let press := fun (P : State → Prop) => Answers (.grpBtnPress d) s fun t => P t ∧ ∀ l, l ∉ groupLinks d → t.linkState l = s.linkState l
    ((∃ l ∈ groupLinks d, (s.link l).prsntSince.isSome = true ∧ ¬ out l) → press fun t =>
      ∀ l ∈ groupLinks d, t.linkState l = if (s.link l).prsntSince.isSome = true ∧ s.linkState l = lsUp then lsDraining else s.linkState l) ∧
    ((∀ l ∈ groupLinks d, (s.link l).prsntSince = none ∨ out l) → press fun t =>
      ∀ l ∈ groupLinks d, t.linkState l = if s.linkState l = lsDraining ∨ s.linkState l = lsDrained then lsUp else s.linkState l)

/-! ### Reset, and what every step keeps -/

/-- What is held right after reset, step 5 of a cold start that power began (R278, R369, R439, R440, R444, R449; that reset stands there is the
model's choice, log entry 3): the start's record, memory of zeros, no key and no control ring, and the bounds that every step keeps. -/
def Obligations.ResetValues : Prop :=
  State.reset.mstate = msConfiguring ∧ State.reset.nat oStartKind = kCold ∧ State.reset.nat oStartCause = 1 ∧ State.reset.nat oStartStep = 5 ∧
    State.reset.pending = [] ∧ (∀ a, Memory.byte State.reset.hbm a = 0) ∧ (∀ n, (State.reset.keySlot n).cur = 0 ∧ (State.reset.keySlot n).prev = 0) ∧
    (∀ fn, fn < 32 → State.reset.ctr (oCtlEnable fn) = 0) ∧ (∀ d, d < 8 → State.reset.nat (oPllLock d) = 1) ∧
    (∀ k, k < 96 → State.reset.seqState k = 0 ∧ (State.reset.core k).shard = none) ∧ State.reset.memOk ∧ State.reset.Bounded

/-- The octets of a request frame spell that frame (R22 to R24, R32): no field is dropped. -/
def Obligations.FramesRoundTrip : Prop :=
  ∀ f : Frame, FrameFits f → frameFrom (frameBytes f) = f

/-- Every step keeps the bounds on sessions, subscriptions and remembered SESSION values (R33, R36, R483). -/
def Obligations.StepKeepsBounds : Prop :=
  ∀ s t : State, s.Bounded → step s = .next t → t.Bounded
end

