-- ==== Sys2Proof/Laws/Table.lean ====
section
/-! SUPPORT. What a sparse table reads after an entry was set or taken out, and numbers as octets. -/

namespace Sys2Proof

namespace Tbl

variable {α : Type}

@[simp] theorem get_erase_self (d : α) (t : Tbl α) (k : Nat) : get d (erase t k) k = d := by
  induction t with
  | nil => rfl
  | cons e r ih => by_cases h : e.1 = k <;> simp [erase, get, h, ih]

theorem get_erase_ne (d : α) (t : Tbl α) {k j : Nat} (h : j ≠ k) : get d (erase t k) j = get d t j := by
  induction t with
  | nil => rfl
  | cons e r ih =>
    by_cases hk : e.1 = k
    · have : e.1 ≠ j := fun he => h (he ▸ hk)
      simp [erase, get, hk, ih]; simp [hk ▸ this]
    · simp [erase, get, hk, ih]

theorem get_insert_ne (d : α) (t : Tbl α) (v : α) {k j : Nat} (h : j ≠ k) : get d (insert t k v) j = get d t j := by
  induction t with
  | nil => simp [insert, get, Ne.symm h]
  | cons e r ih => by_cases hk : k < e.1 <;> simp [insert, get, hk, ih, Ne.symm h]

theorem get_insert_erase (d : α) (t : Tbl α) (k : Nat) (v : α) : get d (insert (erase t k) k v) k = v := by
  induction t with
  | nil => simp [erase, insert, get]
  | cons e r ih =>
    by_cases hk : e.1 = k
    · simp [erase, hk, ih]
    · by_cases hl : k < e.1 <;> simp [erase, hk, insert, get, hl, ih]

@[simp] theorem get_set_self (d : α) (t : Tbl α) (k : Nat) (v : α) : get d (set t k v) k = v := get_insert_erase d t k v

theorem get_set_ne (d : α) (t : Tbl α) (v : α) {k j : Nat} (h : j ≠ k) : get d (set t k v) j = get d t j := by
  rw [set, get_insert_ne d _ v h, get_erase_ne d t h]

theorem get_set (d : α) (t : Tbl α) (k j : Nat) (v : α) : get d (set t k v) j = if j = k then v else get d t j := by
  by_cases h : j = k
  · simp [h]
  · simp [h, get_set_ne d t v h]

@[simp] theorem get_modify_self (d : α) (t : Tbl α) (k : Nat) (f : α → α) : get d (modify d t k f) k = f (get d t k) := by simp [modify]

theorem get_modify_ne (d : α) (t : Tbl α) (f : α → α) {k j : Nat} (h : j ≠ k) : get d (modify d t k f) j = get d t j :=
  get_set_ne d t _ h

end Tbl

@[simp] theorem leBytes_length (n v : Nat) : (leBytes n v).length = n := by
  induction n generalizing v with
  | zero => rfl
  | succ n ih => simp [leBytes, ih]

/-- The octets of a number spell it again, as far as they reach. -/
theorem leNat_leBytes (n v : Nat) : leNat (leBytes n v) = v % 256 ^ n := by
  induction n generalizing v with
  | zero => simp [leBytes, leNat, Nat.mod_one]
  | succ n ih =>
    have : (256 : Nat) ^ (n + 1) = 256 * 256 ^ n := by rw [Nat.pow_succ, Nat.mul_comm]
    rw [this, Nat.mod_mul]
    simp only [leBytes, leNat, ih, BitVec.toNat_ofNat, Nat.reducePow]

theorem leNat_leBytes_of_lt {n v : Nat} (h : v < 256 ^ n) : leNat (leBytes n v) = v := by
  rw [leNat_leBytes, Nat.mod_eq_of_lt h]

end Sys2Proof
end

