-- ==== Sys2Proof/Laws/Memory.lean ====
section
/-! SUPPORT. A byte memory after a write or a clear: what it reads, and that it keeps its canonical form. -/

namespace Sys2Proof.Machine.Memory

variable {m : List Host.Cell} {a b : Nat}

@[simp] theorem byte_put_self (m : List Host.Cell) (a : Nat) (x : Byte) : byte (put m a x) a = x := by
  by_cases h : x = blank <;> simp [put, byte, h]

theorem byte_put_ne (m : List Host.Cell) (x : Byte) (h : b ≠ a) : byte (put m a x) b = byte m b := by
  by_cases hx : x = blank
  · simp [put, byte, hx, Tbl.get_erase_ne _ _ h]
  · simp [put, byte, hx, Tbl.get_set_ne _ _ _ h]

/-- A byte below or above what a write covers reads as before. -/
theorem byte_write_outside (m : List Host.Cell) (l : List Byte) (h : b < a ∨ a + l.length ≤ b) : byte (write m a l) b = byte m b := by
  induction l generalizing m a with
  | nil => rfl
  | cons x r ih =>
    simp only [List.length_cons] at h
    rw [write, ih _ (by omega), byte_put_ne _ _ (by omega)]

/-- A byte that a write covers reads as written. -/
theorem byte_write_inside (m : List Host.Cell) (l : List Byte) (i : Nat) (h : i < l.length) : byte (write m a l) (a + i) = l[i] := by
  induction l generalizing m a i with
  | nil => simp at h
  | cons x r ih =>
    cases i with
    | zero => rw [write, byte_write_outside _ _ (by omega)]; simp
    | succ n =>
      have := ih (put m a x) (a := a + 1) n (by simpa using h)
      simp only [write, List.getElem_cons_succ, ← this]
      congr 1; omega

/-- What was written is read. -/
theorem read_write (m : List Host.Cell) (a : Nat) (l : List Byte) : read (write m a l) a l.length = l := by
  induction l generalizing m a with
  | nil => rfl
  | cons x r ih =>
    simp only [List.length_cons, read, write, ih, List.cons.injEq, and_true]
    rw [byte_write_outside _ _ (by omega)]; simp

theorem byte_clear_outside (m : List Host.Cell) {x : Nat} (h : x < a ∨ b ≤ x) : byte (clear m a b) x = byte m x := by
  induction m with
  | nil => rfl
  | cons c r ih =>
    simp only [byte, clear, List.filter_cons] at *
    by_cases hc : c.1 = x
    · simp [hc, h, Tbl.get]
    · split <;> simp_all [Tbl.get]

/-- Every byte that is cleared reads blank. -/
theorem byte_clear_inside (m : List Host.Cell) {x : Nat} (h : a ≤ x) (h' : x < b) : byte (clear m a b) x = blank := by
  induction m with
  | nil => rfl
  | cons c r ih =>
    simp only [byte, clear, List.filter_cons] at *
    split
    · next hc =>
      have : c.1 ≠ x := by rintro rfl; simp at hc; omega
      simpa [Tbl.get, this] using ih
    · exact ih

/-! ### The canonical form -/

theorem wfFrom_mono {lo lo' : Nat} (h : lo' ≤ lo) (hw : wfFrom lo m = true) : wfFrom lo' m = true := by
  cases m with
  | nil => rfl
  | cons c r => simp only [wfFrom, Bool.and_eq_true, decide_eq_true_eq] at *; exact ⟨⟨by omega, hw.1.2⟩, hw.2⟩

theorem wfFrom_erase {lo : Nat} (k : Nat) (hw : wfFrom lo m = true) : wfFrom lo (Tbl.erase m k) = true := by
  induction m generalizing lo with
  | nil => rfl
  | cons c r ih =>
    simp only [wfFrom, Bool.and_eq_true, decide_eq_true_eq] at hw
    by_cases hk : c.1 = k
    · simp only [Tbl.erase, hk, if_true]; exact wfFrom_mono (by omega) (ih hw.2)
    · simp only [Tbl.erase, hk, if_false, wfFrom, Bool.and_eq_true, decide_eq_true_eq]; exact ⟨hw.1, ih hw.2⟩

theorem wfFrom_insert_erase {lo k : Nat} {x : Byte} (hx : x ≠ blank) (hk : lo ≤ k) (hw : wfFrom lo m = true) :
    wfFrom lo (Tbl.insert (Tbl.erase m k) k x) = true := by
  induction m generalizing lo with
  | nil => simp [Tbl.erase, Tbl.insert, wfFrom, hx, hk]
  | cons c r ih =>
    simp only [wfFrom, Bool.and_eq_true, decide_eq_true_eq] at hw
    by_cases he : c.1 = k
    · simp only [Tbl.erase, he, if_true]
      exact ih hk (wfFrom_mono (by omega) hw.2)
    · simp only [Tbl.erase, he, if_false, Tbl.insert]
      by_cases hl : k < c.1
      · simp only [hl, if_true, wfFrom, Bool.and_eq_true, decide_eq_true_eq]
        exact ⟨⟨hk, by simpa using hx⟩, ⟨by omega, hw.1.2⟩, wfFrom_erase k hw.2⟩
      · simp only [hl, if_false, wfFrom, Bool.and_eq_true, decide_eq_true_eq]
        exact ⟨hw.1, ih (by omega) hw.2⟩

/-- Writing one byte keeps the canonical form. -/
theorem wf_put (hw : wf m = true) (a : Nat) (x : Byte) : wf (put m a x) = true := by
  unfold put
  split
  · exact wfFrom_erase a hw
  · next h => exact wfFrom_insert_erase h (Nat.zero_le _) hw

/-- Writing bytes keeps the canonical form. -/
theorem wf_write (hw : wf m = true) (a : Nat) (l : List Byte) : wf (write m a l) = true := by
  induction l generalizing m a with
  | nil => exact hw
  | cons x r ih => exact ih (wf_put hw a x) (a + 1)

theorem wf_putNum (hw : wf m = true) (a n v : Nat) : wf (putNum m a n v) = true := wf_write hw a _

theorem wfFrom_filter {lo : Nat} (f : Host.Cell → Bool) (hw : wfFrom lo m = true) : wfFrom lo (m.filter f) = true := by
  induction m generalizing lo with
  | nil => rfl
  | cons c r ih =>
    simp only [wfFrom, Bool.and_eq_true, decide_eq_true_eq] at hw
    rw [List.filter_cons]
    split
    · simp only [wfFrom, Bool.and_eq_true, decide_eq_true_eq]; exact ⟨hw.1, ih hw.2⟩
    · exact wfFrom_mono (by omega) (ih hw.2)

/-- Clearing a range keeps the canonical form. -/
theorem wf_clear (hw : wf m = true) (a b : Nat) : wf (clear m a b) = true := wfFrom_filter _ hw

/-- Memories in canonical form that read alike everywhere are the same data. -/
theorem wfFrom_ext {n : List Host.Cell} {lo : Nat} (hm : wfFrom lo m = true) (hn : wfFrom lo n = true)
    (h : ∀ x, byte m x = byte n x) : m = n := by
  have low : ∀ {l : List Host.Cell} {lo x : Nat}, wfFrom lo l = true → x < lo → byte l x = blank := by
    intro l
    induction l with
    | nil => intros; rfl
    | cons c r ih =>
      intro lo x hl hx
      simp only [wfFrom, Bool.and_eq_true, decide_eq_true_eq] at hl
      have : c.1 ≠ x := by omega
      simp only [byte, Tbl.get, this, if_false]
      exact ih hl.2 (by omega)
  induction m generalizing n lo with
  | nil =>
    cases n with
    | nil => rfl
    | cons c r =>
      simp only [wfFrom, Bool.and_eq_true, decide_eq_true_eq] at hn
      have := h c.1
      simp [byte, Tbl.get] at this
      exact absurd this.symm (by simpa using hn.1.2)
  | cons c r ih =>
    cases n with
    | nil =>
      simp only [wfFrom, Bool.and_eq_true, decide_eq_true_eq] at hm
      have := h c.1
      simp [byte, Tbl.get] at this
      exact absurd this (by simpa using hm.1.2)
    | cons e q =>
      have hm0 := hm
      have hn0 := hn
      simp only [wfFrom, Bool.and_eq_true, decide_eq_true_eq] at hm hn
      have key : c.1 = e.1 := by
        rcases Nat.lt_trichotomy c.1 e.1 with hl | he | hl
        · have h1 := h c.1
          have h2 : byte (e :: q) c.1 = blank := by
            have : e.1 ≠ c.1 := by omega
            simp only [byte, Tbl.get, this, if_false]
            exact low hn.2 (by omega)
          rw [h2] at h1; simp [byte, Tbl.get] at h1
          exact absurd h1 (by simpa using hm.1.2)
        · exact he
        · have h1 := h e.1
          have h2 : byte (c :: r) e.1 = blank := by
            have : c.1 ≠ e.1 := by omega
            simp only [byte, Tbl.get, this, if_false]
            exact low hm.2 (by omega)
          rw [h2] at h1; simp [byte, Tbl.get] at h1
          exact absurd h1.symm (by simpa using hn.1.2)
      have val : c.2 = e.2 := by
        have := h c.1
        simpa [byte, Tbl.get, key] using this
      have rest : r = q := by
        refine ih hm.2 (by simpa [key] using hn.2) fun x => ?_
        by_cases hx : x = c.1
        · subst hx
          rw [low hm.2 (by omega), low (l := q) hn.2 (by omega)]
        · have := h x
          have h1 : c.1 ≠ x := fun q => hx q.symm
          have h2 : e.1 ≠ x := fun q => hx (key.trans q).symm
          simpa [byte, Tbl.get, h1, h2] using this
      exact (congrArg₂ List.cons (Prod.ext key val) rest)

/-- Equal memories are equal data. -/
theorem wf_ext {n : List Host.Cell} (hm : wf m = true) (hn : wf n = true) (h : ∀ x, byte m x = byte n x) : m = n := wfFrom_ext hm hn h

end Sys2Proof.Machine.Memory
end

