-- ==== Sys2Proof/Laws/Objects.lean ====
section
/-! SUPPORT. The dictionary's values after one of them was written (R12 to R16, R478), and folds that keep a property. -/

namespace Sys2Proof.Machine

variable (s : State) {k j : Nat}

@[simp] theorem State.val_put_self (k v : Nat) : (s.put k v).val k = some v := by simp [State.val, State.put]
theorem State.val_put_ne (v : Nat) (h : j ≠ k) : (s.put k v).val j = s.val j := by simp [State.val, State.put, Tbl.get_set_ne _ _ _ h]
@[simp] theorem State.nat_put_self (k v : Nat) : (s.put k v).nat k = v := by simp [State.nat]
theorem State.nat_put_ne (v : Nat) (h : j ≠ k) : (s.put k v).nat j = s.nat j := by simp [State.nat, State.val_put_ne s v h]
@[simp] theorem State.ctr_put_self (k v : Nat) : (s.put k v).ctr k = v := by simp [State.ctr, State.put]
theorem State.ctr_put_ne (v : Nat) (h : j ≠ k) : (s.put k v).ctr j = s.ctr j := by simp [State.ctr, State.put, Tbl.get_set_ne _ _ _ h]
@[simp] theorem State.objD_put_self (d k v : Nat) : (s.put k v).objD d k = v := by simp [State.objD, State.put]
theorem State.objD_put_ne (d v : Nat) (h : j ≠ k) : (s.put k v).objD d j = s.objD d j := by
  simp [State.objD, State.put, Tbl.get_set_ne _ _ _ h]

theorem State.nat_put (k j v : Nat) : (s.put k v).nat j = if j = k then v else s.nat j := by
  by_cases h : j = k
  · simp [h]
  · simp [h, State.nat_put_ne s v h]

theorem State.ctr_put (k j v : Nat) : (s.put k v).ctr j = if j = k then v else s.ctr j := by
  by_cases h : j = k
  · simp [h]
  · simp [h, State.ctr_put_ne s v h]

@[simp] theorem State.val_unset_self (k : Nat) : (s.unset k).val k = none := by simp [State.val, State.unset]
theorem State.val_unset_ne (h : j ≠ k) : (s.unset k).val j = s.val j := by simp [State.val, State.unset, Tbl.get_set_ne _ _ _ h]

/-- A counter counts, and stops at the largest value of its type (R478). -/
@[simp] theorem State.ctr_bump_self (w k n : Nat) : (s.bump w k n).ctr k = min (s.ctr k + n) (typeMax w) := by simp [State.bump]
theorem State.ctr_bump_ne (w n : Nat) (h : j ≠ k) : (s.bump w k n).ctr j = s.ctr j := State.ctr_put_ne s _ h
theorem State.nat_bump_ne (w n : Nat) (h : j ≠ k) : (s.bump w k n).nat j = s.nat j := State.nat_put_ne s _ h
theorem State.val_bump_ne (w n : Nat) (h : j ≠ k) : (s.bump w k n).val j = s.val j := State.val_put_ne s _ h

/-- What every step of a fold keeps, the fold keeps. -/
theorem foldl_keeps {α β : Type} {P : β → Prop} {f : β → α → β} (h : ∀ b a, P b → P (f b a)) (l : List α) :
    ∀ b, P b → P (l.foldl f b) := by
  induction l with
  | nil => exact fun _ hb => hb
  | cons a r ih => exact fun b hb => ih _ (h b a hb)

theorem forUpTo_keeps {β : Type} {P : β → Prop} {f : β → Nat → β} (n : Nat) (h : ∀ b i, P b → P (f b i)) {b : β} (hb : P b) :
    P (forUpTo n b f) := foldl_keeps h _ b hb

/-- A part of the state that every step of a fold leaves alone is left alone by the fold. -/
theorem foldl_same {α β γ : Type} (p : β → γ) {f : β → α → β} (h : ∀ b a, p (f b a) = p b) (l : List α) (b : β) :
    p (l.foldl f b) = p b := by
  induction l generalizing b with
  | nil => rfl
  | cons a r ih => rw [List.foldl_cons, ih, h]

theorem forUpTo_same {β γ : Type} (p : β → γ) {f : β → Nat → β} (n : Nat) (h : ∀ b i, p (f b i) = p b) (b : β) :
    p (forUpTo n b f) = p b := foldl_same p h _ b

end Sys2Proof.Machine
end

