-- ==== Sys2Proof/Laws/State.lean ====
section
/-! SUPPORT. One lemma per field of State per operation that replaces one field, so that no later proof unfolds a record update. -/

namespace Sys2Proof.Machine

/-! ### State.put -/

@[simp] theorem State.put_pending (s : State) (key v : Nat) : (s.put key v).pending = s.pending := rfl
@[simp] theorem State.put_admitted (s : State) (key v : Nat) : (s.put key v).admitted = s.admitted := rfl
@[simp] theorem State.put_layout (s : State) (key v : Nat) : (s.put key v).layout = s.layout := rfl
@[simp] theorem State.put_hostTables (s : State) (key v : Nat) : (s.put key v).hostTables = s.hostTables := rfl
@[simp] theorem State.put_tapRsp (s : State) (key v : Nat) : (s.put key v).tapRsp = s.tapRsp := rfl
@[simp] theorem State.put_vers (s : State) (key v : Nat) : (s.put key v).vers = s.vers := rfl
@[simp] theorem State.put_now (s : State) (key v : Nat) : (s.put key v).now = s.now := rfl
@[simp] theorem State.put_timeZero (s : State) (key v : Nat) : (s.put key v).timeZero = s.timeZero := rfl
@[simp] theorem State.put_free (s : State) (key v : Nat) : (s.put key v).free = s.free := rfl
@[simp] theorem State.put_obj (s : State) (key v : Nat) : (s.put key v).obj = Tbl.set s.obj key (some v) := rfl
@[simp] theorem State.put_out (s : State) (key v : Nat) : (s.put key v).out = s.out := rfl
@[simp] theorem State.put_sess (s : State) (key v : Nat) : (s.put key v).sess = s.sess := rfl
@[simp] theorem State.put_sids (s : State) (key v : Nat) : (s.put key v).sids = s.sids := rfl
@[simp] theorem State.put_fails (s : State) (key v : Nat) : (s.put key v).fails = s.fails := rfl
@[simp] theorem State.put_locks (s : State) (key v : Nat) : (s.put key v).locks = s.locks := rfl
@[simp] theorem State.put_subs (s : State) (key v : Nat) : (s.put key v).subs = s.subs := rfl
@[simp] theorem State.put_nextSub (s : State) (key v : Nat) : (s.put key v).nextSub = s.nextSub := rfl
@[simp] theorem State.put_mbx (s : State) (key v : Nat) : (s.put key v).mbx = s.mbx := rfl
@[simp] theorem State.put_flash (s : State) (key v : Nat) : (s.put key v).flash = s.flash := rfl
@[simp] theorem State.put_seqs (s : State) (key v : Nat) : (s.put key v).seqs = s.seqs := rfl
@[simp] theorem State.put_arrays (s : State) (key v : Nat) : (s.put key v).arrays = s.arrays := rfl
@[simp] theorem State.put_tables (s : State) (key v : Nat) : (s.put key v).tables = s.tables := rfl
@[simp] theorem State.put_groups (s : State) (key v : Nat) : (s.put key v).groups = s.groups := rfl
@[simp] theorem State.put_blocks (s : State) (key v : Nat) : (s.put key v).blocks = s.blocks := rfl
@[simp] theorem State.put_cores (s : State) (key v : Nat) : (s.put key v).cores = s.cores := rfl
@[simp] theorem State.put_l1d (s : State) (key v : Nat) : (s.put key v).l1d = s.l1d := rfl
@[simp] theorem State.put_l1i (s : State) (key v : Nat) : (s.put key v).l1i = s.l1i := rfl
@[simp] theorem State.put_dc (s : State) (key v : Nat) : (s.put key v).dc = s.dc := rfl
@[simp] theorem State.put_victim (s : State) (key v : Nat) : (s.put key v).victim = s.victim := rfl
@[simp] theorem State.put_reclaim (s : State) (key v : Nat) : (s.put key v).reclaim = s.reclaim := rfl
@[simp] theorem State.put_dup (s : State) (key v : Nat) : (s.put key v).dup = s.dup := rfl
@[simp] theorem State.put_tx (s : State) (key v : Nat) : (s.put key v).tx = s.tx := rfl
@[simp] theorem State.put_txq (s : State) (key v : Nat) : (s.put key v).txq = s.txq := rfl
@[simp] theorem State.put_lattice (s : State) (key v : Nat) : (s.put key v).lattice = s.lattice := rfl
@[simp] theorem State.put_hlocks (s : State) (key v : Nat) : (s.put key v).hlocks = s.hlocks := rfl
@[simp] theorem State.put_hbm (s : State) (key v : Nat) : (s.put key v).hbm = s.hbm := rfl
@[simp] theorem State.put_poison (s : State) (key v : Nat) : (s.put key v).poison = s.poison := rfl
@[simp] theorem State.put_host (s : State) (key v : Nat) : (s.put key v).host = s.host := rfl
@[simp] theorem State.put_chan (s : State) (key v : Nat) : (s.put key v).chan = s.chan := rfl
@[simp] theorem State.put_ramp (s : State) (key v : Nat) : (s.put key v).ramp = s.ramp := rfl
@[simp] theorem State.put_buckets (s : State) (key v : Nat) : (s.put key v).buckets = s.buckets := rfl
@[simp] theorem State.put_bucketAt (s : State) (key v : Nat) : (s.put key v).bucketAt = s.bucketAt := rfl
@[simp] theorem State.put_bucketQ (s : State) (key v : Nat) : (s.put key v).bucketQ = s.bucketQ := rfl
@[simp] theorem State.put_train (s : State) (key v : Nat) : (s.put key v).train = s.train := rfl
@[simp] theorem State.put_tlbs (s : State) (key v : Nat) : (s.put key v).tlbs = s.tlbs := rfl
@[simp] theorem State.put_walks (s : State) (key v : Nat) : (s.put key v).walks = s.walks := rfl
@[simp] theorem State.put_faults (s : State) (key v : Nat) : (s.put key v).faults = s.faults := rfl
@[simp] theorem State.put_gens (s : State) (key v : Nat) : (s.put key v).gens = s.gens := rfl
@[simp] theorem State.put_ctxs (s : State) (key v : Nat) : (s.put key v).ctxs = s.ctxs := rfl
@[simp] theorem State.put_mems (s : State) (key v : Nat) : (s.put key v).mems = s.mems := rfl
@[simp] theorem State.put_sigs (s : State) (key v : Nat) : (s.put key v).sigs = s.sigs := rfl
@[simp] theorem State.put_arcs (s : State) (key v : Nat) : (s.put key v).arcs = s.arcs := rfl
@[simp] theorem State.put_rings (s : State) (key v : Nat) : (s.put key v).rings = s.rings := rfl
@[simp] theorem State.put_ctls (s : State) (key v : Nat) : (s.put key v).ctls = s.ctls := rfl
@[simp] theorem State.put_peers (s : State) (key v : Nat) : (s.put key v).peers = s.peers := rfl
@[simp] theorem State.put_parkq (s : State) (key v : Nat) : (s.put key v).parkq = s.parkq := rfl
@[simp] theorem State.put_watch (s : State) (key v : Nat) : (s.put key v).watch = s.watch := rfl
@[simp] theorem State.put_sigAdds (s : State) (key v : Nat) : (s.put key v).sigAdds = s.sigAdds := rfl
@[simp] theorem State.put_addHandle (s : State) (key v : Nat) : (s.put key v).addHandle = s.addHandle := rfl
@[simp] theorem State.put_rejects (s : State) (key v : Nat) : (s.put key v).rejects = s.rejects := rfl
@[simp] theorem State.put_chords (s : State) (key v : Nat) : (s.put key v).chords = s.chords := rfl
@[simp] theorem State.put_links (s : State) (key v : Nat) : (s.put key v).links = s.links := rfl
@[simp] theorem State.put_clusters (s : State) (key v : Nat) : (s.put key v).clusters = s.clusters := rfl
@[simp] theorem State.put_duty (s : State) (key v : Nat) : (s.put key v).duty = s.duty := rfl
@[simp] theorem State.put_grants (s : State) (key v : Nat) : (s.put key v).grants = s.grants := rfl
@[simp] theorem State.put_powerAt (s : State) (key v : Nat) : (s.put key v).powerAt = s.powerAt := rfl
@[simp] theorem State.put_overCap (s : State) (key v : Nat) : (s.put key v).overCap = s.overCap := rfl
@[simp] theorem State.put_sites (s : State) (key v : Nat) : (s.put key v).sites = s.sites := rfl
@[simp] theorem State.put_winLog (s : State) (key v : Nat) : (s.put key v).winLog = s.winLog := rfl
@[simp] theorem State.put_life (s : State) (key v : Nat) : (s.put key v).life = s.life := rfl
@[simp] theorem State.put_ledger (s : State) (key v : Nat) : (s.put key v).ledger = s.ledger := rfl
@[simp] theorem State.put_floors (s : State) (key v : Nat) : (s.put key v).floors = s.floors := rfl
@[simp] theorem State.put_retFuse (s : State) (key v : Nat) : (s.put key v).retFuse = s.retFuse := rfl
@[simp] theorem State.put_trend (s : State) (key v : Nat) : (s.put key v).trend = s.trend := rfl
@[simp] theorem State.put_timingDays (s : State) (key v : Nat) : (s.put key v).timingDays = s.timingDays := rfl
@[simp] theorem State.put_traceProd (s : State) (key v : Nat) : (s.put key v).traceProd = s.traceProd := rfl
@[simp] theorem State.put_traceCons (s : State) (key v : Nat) : (s.put key v).traceCons = s.traceCons := rfl
@[simp] theorem State.put_traceSeq (s : State) (key v : Nat) : (s.put key v).traceSeq = s.traceSeq := rfl
@[simp] theorem State.put_traceLoss (s : State) (key v : Nat) : (s.put key v).traceLoss = s.traceLoss := rfl
@[simp] theorem State.put_watches (s : State) (key v : Nat) : (s.put key v).watches = s.watches := rfl
@[simp] theorem State.put_tapIr (s : State) (key v : Nat) : (s.put key v).tapIr = s.tapIr := rfl
@[simp] theorem State.put_tapDr (s : State) (key v : Nat) : (s.put key v).tapDr = s.tapDr := rfl
@[simp] theorem State.put_keys (s : State) (key v : Nat) : (s.put key v).keys = s.keys := rfl
@[simp] theorem State.put_triples (s : State) (key v : Nat) : (s.put key v).triples = s.triples := rfl
@[simp] theorem State.put_spdm (s : State) (key v : Nat) : (s.put key v).spdm = s.spdm := rfl
@[simp] theorem State.put_aux (s : State) (key v : Nat) : (s.put key v).aux = s.aux := rfl
@[simp] theorem State.put_vin48 (s : State) (key v : Nat) : (s.put key v).vin48 = s.vin48 := rfl
@[simp] theorem State.put_refclk (s : State) (key v : Nat) : (s.put key v).refclk = s.refclk := rfl
@[simp] theorem State.put_powered (s : State) (key v : Nat) : (s.put key v).powered = s.powered := rfl
@[simp] theorem State.put_ctlReady (s : State) (key v : Nat) : (s.put key v).ctlReady = s.ctlReady := rfl
@[simp] theorem State.put_hostTraining (s : State) (key v : Nat) : (s.put key v).hostTraining = s.hostTraining := rfl
@[simp] theorem State.put_hostLost (s : State) (key v : Nat) : (s.put key v).hostLost = s.hostLost := rfl
@[simp] theorem State.put_throttle (s : State) (key v : Nat) : (s.put key v).throttle = s.throttle := rfl
@[simp] theorem State.put_thermTrip (s : State) (key v : Nat) : (s.put key v).thermTrip = s.thermTrip := rfl
@[simp] theorem State.put_alert (s : State) (key v : Nat) : (s.put key v).alert = s.alert := rfl
@[simp] theorem State.put_currentLimit (s : State) (key v : Nat) : (s.put key v).currentLimit = s.currentLimit := rfl
@[simp] theorem State.put_safeThermal (s : State) (key v : Nat) : (s.put key v).safeThermal = s.safeThermal := rfl
@[simp] theorem State.put_hot (s : State) (key v : Nat) : (s.put key v).hot = s.hot := rfl
@[simp] theorem State.put_starting (s : State) (key v : Nat) : (s.put key v).starting = s.starting := rfl
@[simp] theorem State.put_failedStart (s : State) (key v : Nat) : (s.put key v).failedStart = s.failedStart := rfl
@[simp] theorem State.put_warmFails (s : State) (key v : Nat) : (s.put key v).warmFails = s.warmFails := rfl
@[simp] theorem State.put_fetchStop (s : State) (key v : Nat) : (s.put key v).fetchStop = s.fetchStop := rfl
@[simp] theorem State.put_identifyEnds (s : State) (key v : Nat) : (s.put key v).identifyEnds = s.identifyEnds := rfl
@[simp] theorem State.put_latchTimer (s : State) (key v : Nat) : (s.put key v).latchTimer = s.latchTimer := rfl
@[simp] theorem State.put_latchStop (s : State) (key v : Nat) : (s.put key v).latchStop = s.latchStop := rfl
@[simp] theorem State.put_teardowns (s : State) (key v : Nat) : (s.put key v).teardowns = s.teardowns := rfl

/-! ### State.unset -/

@[simp] theorem State.unset_pending (s : State) (key : Nat) : (s.unset key).pending = s.pending := rfl
@[simp] theorem State.unset_admitted (s : State) (key : Nat) : (s.unset key).admitted = s.admitted := rfl
@[simp] theorem State.unset_layout (s : State) (key : Nat) : (s.unset key).layout = s.layout := rfl
@[simp] theorem State.unset_hostTables (s : State) (key : Nat) : (s.unset key).hostTables = s.hostTables := rfl
@[simp] theorem State.unset_tapRsp (s : State) (key : Nat) : (s.unset key).tapRsp = s.tapRsp := rfl
@[simp] theorem State.unset_vers (s : State) (key : Nat) : (s.unset key).vers = s.vers := rfl
@[simp] theorem State.unset_now (s : State) (key : Nat) : (s.unset key).now = s.now := rfl
@[simp] theorem State.unset_timeZero (s : State) (key : Nat) : (s.unset key).timeZero = s.timeZero := rfl
@[simp] theorem State.unset_free (s : State) (key : Nat) : (s.unset key).free = s.free := rfl
@[simp] theorem State.unset_obj (s : State) (key : Nat) : (s.unset key).obj = Tbl.set s.obj key none := rfl
@[simp] theorem State.unset_out (s : State) (key : Nat) : (s.unset key).out = s.out := rfl
@[simp] theorem State.unset_sess (s : State) (key : Nat) : (s.unset key).sess = s.sess := rfl
@[simp] theorem State.unset_sids (s : State) (key : Nat) : (s.unset key).sids = s.sids := rfl
@[simp] theorem State.unset_fails (s : State) (key : Nat) : (s.unset key).fails = s.fails := rfl
@[simp] theorem State.unset_locks (s : State) (key : Nat) : (s.unset key).locks = s.locks := rfl
@[simp] theorem State.unset_subs (s : State) (key : Nat) : (s.unset key).subs = s.subs := rfl
@[simp] theorem State.unset_nextSub (s : State) (key : Nat) : (s.unset key).nextSub = s.nextSub := rfl
@[simp] theorem State.unset_mbx (s : State) (key : Nat) : (s.unset key).mbx = s.mbx := rfl
@[simp] theorem State.unset_flash (s : State) (key : Nat) : (s.unset key).flash = s.flash := rfl
@[simp] theorem State.unset_seqs (s : State) (key : Nat) : (s.unset key).seqs = s.seqs := rfl
@[simp] theorem State.unset_arrays (s : State) (key : Nat) : (s.unset key).arrays = s.arrays := rfl
@[simp] theorem State.unset_tables (s : State) (key : Nat) : (s.unset key).tables = s.tables := rfl
@[simp] theorem State.unset_groups (s : State) (key : Nat) : (s.unset key).groups = s.groups := rfl
@[simp] theorem State.unset_blocks (s : State) (key : Nat) : (s.unset key).blocks = s.blocks := rfl
@[simp] theorem State.unset_cores (s : State) (key : Nat) : (s.unset key).cores = s.cores := rfl
@[simp] theorem State.unset_l1d (s : State) (key : Nat) : (s.unset key).l1d = s.l1d := rfl
@[simp] theorem State.unset_l1i (s : State) (key : Nat) : (s.unset key).l1i = s.l1i := rfl
@[simp] theorem State.unset_dc (s : State) (key : Nat) : (s.unset key).dc = s.dc := rfl
@[simp] theorem State.unset_victim (s : State) (key : Nat) : (s.unset key).victim = s.victim := rfl
@[simp] theorem State.unset_reclaim (s : State) (key : Nat) : (s.unset key).reclaim = s.reclaim := rfl
@[simp] theorem State.unset_dup (s : State) (key : Nat) : (s.unset key).dup = s.dup := rfl
@[simp] theorem State.unset_tx (s : State) (key : Nat) : (s.unset key).tx = s.tx := rfl
@[simp] theorem State.unset_txq (s : State) (key : Nat) : (s.unset key).txq = s.txq := rfl
@[simp] theorem State.unset_lattice (s : State) (key : Nat) : (s.unset key).lattice = s.lattice := rfl
@[simp] theorem State.unset_hlocks (s : State) (key : Nat) : (s.unset key).hlocks = s.hlocks := rfl
@[simp] theorem State.unset_hbm (s : State) (key : Nat) : (s.unset key).hbm = s.hbm := rfl
@[simp] theorem State.unset_poison (s : State) (key : Nat) : (s.unset key).poison = s.poison := rfl
@[simp] theorem State.unset_host (s : State) (key : Nat) : (s.unset key).host = s.host := rfl
@[simp] theorem State.unset_chan (s : State) (key : Nat) : (s.unset key).chan = s.chan := rfl
@[simp] theorem State.unset_ramp (s : State) (key : Nat) : (s.unset key).ramp = s.ramp := rfl
@[simp] theorem State.unset_buckets (s : State) (key : Nat) : (s.unset key).buckets = s.buckets := rfl
@[simp] theorem State.unset_bucketAt (s : State) (key : Nat) : (s.unset key).bucketAt = s.bucketAt := rfl
@[simp] theorem State.unset_bucketQ (s : State) (key : Nat) : (s.unset key).bucketQ = s.bucketQ := rfl
@[simp] theorem State.unset_train (s : State) (key : Nat) : (s.unset key).train = s.train := rfl
@[simp] theorem State.unset_tlbs (s : State) (key : Nat) : (s.unset key).tlbs = s.tlbs := rfl
@[simp] theorem State.unset_walks (s : State) (key : Nat) : (s.unset key).walks = s.walks := rfl
@[simp] theorem State.unset_faults (s : State) (key : Nat) : (s.unset key).faults = s.faults := rfl
@[simp] theorem State.unset_gens (s : State) (key : Nat) : (s.unset key).gens = s.gens := rfl
@[simp] theorem State.unset_ctxs (s : State) (key : Nat) : (s.unset key).ctxs = s.ctxs := rfl
@[simp] theorem State.unset_mems (s : State) (key : Nat) : (s.unset key).mems = s.mems := rfl
@[simp] theorem State.unset_sigs (s : State) (key : Nat) : (s.unset key).sigs = s.sigs := rfl
@[simp] theorem State.unset_arcs (s : State) (key : Nat) : (s.unset key).arcs = s.arcs := rfl
@[simp] theorem State.unset_rings (s : State) (key : Nat) : (s.unset key).rings = s.rings := rfl
@[simp] theorem State.unset_ctls (s : State) (key : Nat) : (s.unset key).ctls = s.ctls := rfl
@[simp] theorem State.unset_peers (s : State) (key : Nat) : (s.unset key).peers = s.peers := rfl
@[simp] theorem State.unset_parkq (s : State) (key : Nat) : (s.unset key).parkq = s.parkq := rfl
@[simp] theorem State.unset_watch (s : State) (key : Nat) : (s.unset key).watch = s.watch := rfl
@[simp] theorem State.unset_sigAdds (s : State) (key : Nat) : (s.unset key).sigAdds = s.sigAdds := rfl
@[simp] theorem State.unset_addHandle (s : State) (key : Nat) : (s.unset key).addHandle = s.addHandle := rfl
@[simp] theorem State.unset_rejects (s : State) (key : Nat) : (s.unset key).rejects = s.rejects := rfl
@[simp] theorem State.unset_chords (s : State) (key : Nat) : (s.unset key).chords = s.chords := rfl
@[simp] theorem State.unset_links (s : State) (key : Nat) : (s.unset key).links = s.links := rfl
@[simp] theorem State.unset_clusters (s : State) (key : Nat) : (s.unset key).clusters = s.clusters := rfl
@[simp] theorem State.unset_duty (s : State) (key : Nat) : (s.unset key).duty = s.duty := rfl
@[simp] theorem State.unset_grants (s : State) (key : Nat) : (s.unset key).grants = s.grants := rfl
@[simp] theorem State.unset_powerAt (s : State) (key : Nat) : (s.unset key).powerAt = s.powerAt := rfl
@[simp] theorem State.unset_overCap (s : State) (key : Nat) : (s.unset key).overCap = s.overCap := rfl
@[simp] theorem State.unset_sites (s : State) (key : Nat) : (s.unset key).sites = s.sites := rfl
@[simp] theorem State.unset_winLog (s : State) (key : Nat) : (s.unset key).winLog = s.winLog := rfl
@[simp] theorem State.unset_life (s : State) (key : Nat) : (s.unset key).life = s.life := rfl
@[simp] theorem State.unset_ledger (s : State) (key : Nat) : (s.unset key).ledger = s.ledger := rfl
@[simp] theorem State.unset_floors (s : State) (key : Nat) : (s.unset key).floors = s.floors := rfl
@[simp] theorem State.unset_retFuse (s : State) (key : Nat) : (s.unset key).retFuse = s.retFuse := rfl
@[simp] theorem State.unset_trend (s : State) (key : Nat) : (s.unset key).trend = s.trend := rfl
@[simp] theorem State.unset_timingDays (s : State) (key : Nat) : (s.unset key).timingDays = s.timingDays := rfl
@[simp] theorem State.unset_traceProd (s : State) (key : Nat) : (s.unset key).traceProd = s.traceProd := rfl
@[simp] theorem State.unset_traceCons (s : State) (key : Nat) : (s.unset key).traceCons = s.traceCons := rfl
@[simp] theorem State.unset_traceSeq (s : State) (key : Nat) : (s.unset key).traceSeq = s.traceSeq := rfl
@[simp] theorem State.unset_traceLoss (s : State) (key : Nat) : (s.unset key).traceLoss = s.traceLoss := rfl
@[simp] theorem State.unset_watches (s : State) (key : Nat) : (s.unset key).watches = s.watches := rfl
@[simp] theorem State.unset_tapIr (s : State) (key : Nat) : (s.unset key).tapIr = s.tapIr := rfl
@[simp] theorem State.unset_tapDr (s : State) (key : Nat) : (s.unset key).tapDr = s.tapDr := rfl
@[simp] theorem State.unset_keys (s : State) (key : Nat) : (s.unset key).keys = s.keys := rfl
@[simp] theorem State.unset_triples (s : State) (key : Nat) : (s.unset key).triples = s.triples := rfl
@[simp] theorem State.unset_spdm (s : State) (key : Nat) : (s.unset key).spdm = s.spdm := rfl
@[simp] theorem State.unset_aux (s : State) (key : Nat) : (s.unset key).aux = s.aux := rfl
@[simp] theorem State.unset_vin48 (s : State) (key : Nat) : (s.unset key).vin48 = s.vin48 := rfl
@[simp] theorem State.unset_refclk (s : State) (key : Nat) : (s.unset key).refclk = s.refclk := rfl
@[simp] theorem State.unset_powered (s : State) (key : Nat) : (s.unset key).powered = s.powered := rfl
@[simp] theorem State.unset_ctlReady (s : State) (key : Nat) : (s.unset key).ctlReady = s.ctlReady := rfl
@[simp] theorem State.unset_hostTraining (s : State) (key : Nat) : (s.unset key).hostTraining = s.hostTraining := rfl
@[simp] theorem State.unset_hostLost (s : State) (key : Nat) : (s.unset key).hostLost = s.hostLost := rfl
@[simp] theorem State.unset_throttle (s : State) (key : Nat) : (s.unset key).throttle = s.throttle := rfl
@[simp] theorem State.unset_thermTrip (s : State) (key : Nat) : (s.unset key).thermTrip = s.thermTrip := rfl
@[simp] theorem State.unset_alert (s : State) (key : Nat) : (s.unset key).alert = s.alert := rfl
@[simp] theorem State.unset_currentLimit (s : State) (key : Nat) : (s.unset key).currentLimit = s.currentLimit := rfl
@[simp] theorem State.unset_safeThermal (s : State) (key : Nat) : (s.unset key).safeThermal = s.safeThermal := rfl
@[simp] theorem State.unset_hot (s : State) (key : Nat) : (s.unset key).hot = s.hot := rfl
@[simp] theorem State.unset_starting (s : State) (key : Nat) : (s.unset key).starting = s.starting := rfl
@[simp] theorem State.unset_failedStart (s : State) (key : Nat) : (s.unset key).failedStart = s.failedStart := rfl
@[simp] theorem State.unset_warmFails (s : State) (key : Nat) : (s.unset key).warmFails = s.warmFails := rfl
@[simp] theorem State.unset_fetchStop (s : State) (key : Nat) : (s.unset key).fetchStop = s.fetchStop := rfl
@[simp] theorem State.unset_identifyEnds (s : State) (key : Nat) : (s.unset key).identifyEnds = s.identifyEnds := rfl
@[simp] theorem State.unset_latchTimer (s : State) (key : Nat) : (s.unset key).latchTimer = s.latchTimer := rfl
@[simp] theorem State.unset_latchStop (s : State) (key : Nat) : (s.unset key).latchStop = s.latchStop := rfl
@[simp] theorem State.unset_teardowns (s : State) (key : Nat) : (s.unset key).teardowns = s.teardowns := rfl

/-! ### State.bump -/

@[simp] theorem State.bump_pending (s : State) (w key n : Nat) : (s.bump w key n).pending = s.pending := rfl
@[simp] theorem State.bump_admitted (s : State) (w key n : Nat) : (s.bump w key n).admitted = s.admitted := rfl
@[simp] theorem State.bump_layout (s : State) (w key n : Nat) : (s.bump w key n).layout = s.layout := rfl
@[simp] theorem State.bump_hostTables (s : State) (w key n : Nat) : (s.bump w key n).hostTables = s.hostTables := rfl
@[simp] theorem State.bump_tapRsp (s : State) (w key n : Nat) : (s.bump w key n).tapRsp = s.tapRsp := rfl
@[simp] theorem State.bump_vers (s : State) (w key n : Nat) : (s.bump w key n).vers = s.vers := rfl
@[simp] theorem State.bump_now (s : State) (w key n : Nat) : (s.bump w key n).now = s.now := rfl
@[simp] theorem State.bump_timeZero (s : State) (w key n : Nat) : (s.bump w key n).timeZero = s.timeZero := rfl
@[simp] theorem State.bump_free (s : State) (w key n : Nat) : (s.bump w key n).free = s.free := rfl
@[simp] theorem State.bump_obj (s : State) (w key n : Nat) : (s.bump w key n).obj = Tbl.set s.obj key (some (min (s.ctr key + n) (typeMax w))) := rfl
@[simp] theorem State.bump_out (s : State) (w key n : Nat) : (s.bump w key n).out = s.out := rfl
@[simp] theorem State.bump_sess (s : State) (w key n : Nat) : (s.bump w key n).sess = s.sess := rfl
@[simp] theorem State.bump_sids (s : State) (w key n : Nat) : (s.bump w key n).sids = s.sids := rfl
@[simp] theorem State.bump_fails (s : State) (w key n : Nat) : (s.bump w key n).fails = s.fails := rfl
@[simp] theorem State.bump_locks (s : State) (w key n : Nat) : (s.bump w key n).locks = s.locks := rfl
@[simp] theorem State.bump_subs (s : State) (w key n : Nat) : (s.bump w key n).subs = s.subs := rfl
@[simp] theorem State.bump_nextSub (s : State) (w key n : Nat) : (s.bump w key n).nextSub = s.nextSub := rfl
@[simp] theorem State.bump_mbx (s : State) (w key n : Nat) : (s.bump w key n).mbx = s.mbx := rfl
@[simp] theorem State.bump_flash (s : State) (w key n : Nat) : (s.bump w key n).flash = s.flash := rfl
@[simp] theorem State.bump_seqs (s : State) (w key n : Nat) : (s.bump w key n).seqs = s.seqs := rfl
@[simp] theorem State.bump_arrays (s : State) (w key n : Nat) : (s.bump w key n).arrays = s.arrays := rfl
@[simp] theorem State.bump_tables (s : State) (w key n : Nat) : (s.bump w key n).tables = s.tables := rfl
@[simp] theorem State.bump_groups (s : State) (w key n : Nat) : (s.bump w key n).groups = s.groups := rfl
@[simp] theorem State.bump_blocks (s : State) (w key n : Nat) : (s.bump w key n).blocks = s.blocks := rfl
@[simp] theorem State.bump_cores (s : State) (w key n : Nat) : (s.bump w key n).cores = s.cores := rfl
@[simp] theorem State.bump_l1d (s : State) (w key n : Nat) : (s.bump w key n).l1d = s.l1d := rfl
@[simp] theorem State.bump_l1i (s : State) (w key n : Nat) : (s.bump w key n).l1i = s.l1i := rfl
@[simp] theorem State.bump_dc (s : State) (w key n : Nat) : (s.bump w key n).dc = s.dc := rfl
@[simp] theorem State.bump_victim (s : State) (w key n : Nat) : (s.bump w key n).victim = s.victim := rfl
@[simp] theorem State.bump_reclaim (s : State) (w key n : Nat) : (s.bump w key n).reclaim = s.reclaim := rfl
@[simp] theorem State.bump_dup (s : State) (w key n : Nat) : (s.bump w key n).dup = s.dup := rfl
@[simp] theorem State.bump_tx (s : State) (w key n : Nat) : (s.bump w key n).tx = s.tx := rfl
@[simp] theorem State.bump_txq (s : State) (w key n : Nat) : (s.bump w key n).txq = s.txq := rfl
@[simp] theorem State.bump_lattice (s : State) (w key n : Nat) : (s.bump w key n).lattice = s.lattice := rfl
@[simp] theorem State.bump_hlocks (s : State) (w key n : Nat) : (s.bump w key n).hlocks = s.hlocks := rfl
@[simp] theorem State.bump_hbm (s : State) (w key n : Nat) : (s.bump w key n).hbm = s.hbm := rfl
@[simp] theorem State.bump_poison (s : State) (w key n : Nat) : (s.bump w key n).poison = s.poison := rfl
@[simp] theorem State.bump_host (s : State) (w key n : Nat) : (s.bump w key n).host = s.host := rfl
@[simp] theorem State.bump_chan (s : State) (w key n : Nat) : (s.bump w key n).chan = s.chan := rfl
@[simp] theorem State.bump_ramp (s : State) (w key n : Nat) : (s.bump w key n).ramp = s.ramp := rfl
@[simp] theorem State.bump_buckets (s : State) (w key n : Nat) : (s.bump w key n).buckets = s.buckets := rfl
@[simp] theorem State.bump_bucketAt (s : State) (w key n : Nat) : (s.bump w key n).bucketAt = s.bucketAt := rfl
@[simp] theorem State.bump_bucketQ (s : State) (w key n : Nat) : (s.bump w key n).bucketQ = s.bucketQ := rfl
@[simp] theorem State.bump_train (s : State) (w key n : Nat) : (s.bump w key n).train = s.train := rfl
@[simp] theorem State.bump_tlbs (s : State) (w key n : Nat) : (s.bump w key n).tlbs = s.tlbs := rfl
@[simp] theorem State.bump_walks (s : State) (w key n : Nat) : (s.bump w key n).walks = s.walks := rfl
@[simp] theorem State.bump_faults (s : State) (w key n : Nat) : (s.bump w key n).faults = s.faults := rfl
@[simp] theorem State.bump_gens (s : State) (w key n : Nat) : (s.bump w key n).gens = s.gens := rfl
@[simp] theorem State.bump_ctxs (s : State) (w key n : Nat) : (s.bump w key n).ctxs = s.ctxs := rfl
@[simp] theorem State.bump_mems (s : State) (w key n : Nat) : (s.bump w key n).mems = s.mems := rfl
@[simp] theorem State.bump_sigs (s : State) (w key n : Nat) : (s.bump w key n).sigs = s.sigs := rfl
@[simp] theorem State.bump_arcs (s : State) (w key n : Nat) : (s.bump w key n).arcs = s.arcs := rfl
@[simp] theorem State.bump_rings (s : State) (w key n : Nat) : (s.bump w key n).rings = s.rings := rfl
@[simp] theorem State.bump_ctls (s : State) (w key n : Nat) : (s.bump w key n).ctls = s.ctls := rfl
@[simp] theorem State.bump_peers (s : State) (w key n : Nat) : (s.bump w key n).peers = s.peers := rfl
@[simp] theorem State.bump_parkq (s : State) (w key n : Nat) : (s.bump w key n).parkq = s.parkq := rfl
@[simp] theorem State.bump_watch (s : State) (w key n : Nat) : (s.bump w key n).watch = s.watch := rfl
@[simp] theorem State.bump_sigAdds (s : State) (w key n : Nat) : (s.bump w key n).sigAdds = s.sigAdds := rfl
@[simp] theorem State.bump_addHandle (s : State) (w key n : Nat) : (s.bump w key n).addHandle = s.addHandle := rfl
@[simp] theorem State.bump_rejects (s : State) (w key n : Nat) : (s.bump w key n).rejects = s.rejects := rfl
@[simp] theorem State.bump_chords (s : State) (w key n : Nat) : (s.bump w key n).chords = s.chords := rfl
@[simp] theorem State.bump_links (s : State) (w key n : Nat) : (s.bump w key n).links = s.links := rfl
@[simp] theorem State.bump_clusters (s : State) (w key n : Nat) : (s.bump w key n).clusters = s.clusters := rfl
@[simp] theorem State.bump_duty (s : State) (w key n : Nat) : (s.bump w key n).duty = s.duty := rfl
@[simp] theorem State.bump_grants (s : State) (w key n : Nat) : (s.bump w key n).grants = s.grants := rfl
@[simp] theorem State.bump_powerAt (s : State) (w key n : Nat) : (s.bump w key n).powerAt = s.powerAt := rfl
@[simp] theorem State.bump_overCap (s : State) (w key n : Nat) : (s.bump w key n).overCap = s.overCap := rfl
@[simp] theorem State.bump_sites (s : State) (w key n : Nat) : (s.bump w key n).sites = s.sites := rfl
@[simp] theorem State.bump_winLog (s : State) (w key n : Nat) : (s.bump w key n).winLog = s.winLog := rfl
@[simp] theorem State.bump_life (s : State) (w key n : Nat) : (s.bump w key n).life = s.life := rfl
@[simp] theorem State.bump_ledger (s : State) (w key n : Nat) : (s.bump w key n).ledger = s.ledger := rfl
@[simp] theorem State.bump_floors (s : State) (w key n : Nat) : (s.bump w key n).floors = s.floors := rfl
@[simp] theorem State.bump_retFuse (s : State) (w key n : Nat) : (s.bump w key n).retFuse = s.retFuse := rfl
@[simp] theorem State.bump_trend (s : State) (w key n : Nat) : (s.bump w key n).trend = s.trend := rfl
@[simp] theorem State.bump_timingDays (s : State) (w key n : Nat) : (s.bump w key n).timingDays = s.timingDays := rfl
@[simp] theorem State.bump_traceProd (s : State) (w key n : Nat) : (s.bump w key n).traceProd = s.traceProd := rfl
@[simp] theorem State.bump_traceCons (s : State) (w key n : Nat) : (s.bump w key n).traceCons = s.traceCons := rfl
@[simp] theorem State.bump_traceSeq (s : State) (w key n : Nat) : (s.bump w key n).traceSeq = s.traceSeq := rfl
@[simp] theorem State.bump_traceLoss (s : State) (w key n : Nat) : (s.bump w key n).traceLoss = s.traceLoss := rfl
@[simp] theorem State.bump_watches (s : State) (w key n : Nat) : (s.bump w key n).watches = s.watches := rfl
@[simp] theorem State.bump_tapIr (s : State) (w key n : Nat) : (s.bump w key n).tapIr = s.tapIr := rfl
@[simp] theorem State.bump_tapDr (s : State) (w key n : Nat) : (s.bump w key n).tapDr = s.tapDr := rfl
@[simp] theorem State.bump_keys (s : State) (w key n : Nat) : (s.bump w key n).keys = s.keys := rfl
@[simp] theorem State.bump_triples (s : State) (w key n : Nat) : (s.bump w key n).triples = s.triples := rfl
@[simp] theorem State.bump_spdm (s : State) (w key n : Nat) : (s.bump w key n).spdm = s.spdm := rfl
@[simp] theorem State.bump_aux (s : State) (w key n : Nat) : (s.bump w key n).aux = s.aux := rfl
@[simp] theorem State.bump_vin48 (s : State) (w key n : Nat) : (s.bump w key n).vin48 = s.vin48 := rfl
@[simp] theorem State.bump_refclk (s : State) (w key n : Nat) : (s.bump w key n).refclk = s.refclk := rfl
@[simp] theorem State.bump_powered (s : State) (w key n : Nat) : (s.bump w key n).powered = s.powered := rfl
@[simp] theorem State.bump_ctlReady (s : State) (w key n : Nat) : (s.bump w key n).ctlReady = s.ctlReady := rfl
@[simp] theorem State.bump_hostTraining (s : State) (w key n : Nat) : (s.bump w key n).hostTraining = s.hostTraining := rfl
@[simp] theorem State.bump_hostLost (s : State) (w key n : Nat) : (s.bump w key n).hostLost = s.hostLost := rfl
@[simp] theorem State.bump_throttle (s : State) (w key n : Nat) : (s.bump w key n).throttle = s.throttle := rfl
@[simp] theorem State.bump_thermTrip (s : State) (w key n : Nat) : (s.bump w key n).thermTrip = s.thermTrip := rfl
@[simp] theorem State.bump_alert (s : State) (w key n : Nat) : (s.bump w key n).alert = s.alert := rfl
@[simp] theorem State.bump_currentLimit (s : State) (w key n : Nat) : (s.bump w key n).currentLimit = s.currentLimit := rfl
@[simp] theorem State.bump_safeThermal (s : State) (w key n : Nat) : (s.bump w key n).safeThermal = s.safeThermal := rfl
@[simp] theorem State.bump_hot (s : State) (w key n : Nat) : (s.bump w key n).hot = s.hot := rfl
@[simp] theorem State.bump_starting (s : State) (w key n : Nat) : (s.bump w key n).starting = s.starting := rfl
@[simp] theorem State.bump_failedStart (s : State) (w key n : Nat) : (s.bump w key n).failedStart = s.failedStart := rfl
@[simp] theorem State.bump_warmFails (s : State) (w key n : Nat) : (s.bump w key n).warmFails = s.warmFails := rfl
@[simp] theorem State.bump_fetchStop (s : State) (w key n : Nat) : (s.bump w key n).fetchStop = s.fetchStop := rfl
@[simp] theorem State.bump_identifyEnds (s : State) (w key n : Nat) : (s.bump w key n).identifyEnds = s.identifyEnds := rfl
@[simp] theorem State.bump_latchTimer (s : State) (w key n : Nat) : (s.bump w key n).latchTimer = s.latchTimer := rfl
@[simp] theorem State.bump_latchStop (s : State) (w key n : Nat) : (s.bump w key n).latchStop = s.latchStop := rfl
@[simp] theorem State.bump_teardowns (s : State) (w key n : Nat) : (s.bump w key n).teardowns = s.teardowns := rfl

/-! ### State.peak -/

@[simp] theorem State.peak_pending (s : State) (w key v : Nat) : (s.peak w key v).pending = s.pending := rfl
@[simp] theorem State.peak_admitted (s : State) (w key v : Nat) : (s.peak w key v).admitted = s.admitted := rfl
@[simp] theorem State.peak_layout (s : State) (w key v : Nat) : (s.peak w key v).layout = s.layout := rfl
@[simp] theorem State.peak_hostTables (s : State) (w key v : Nat) : (s.peak w key v).hostTables = s.hostTables := rfl
@[simp] theorem State.peak_tapRsp (s : State) (w key v : Nat) : (s.peak w key v).tapRsp = s.tapRsp := rfl
@[simp] theorem State.peak_vers (s : State) (w key v : Nat) : (s.peak w key v).vers = s.vers := rfl
@[simp] theorem State.peak_now (s : State) (w key v : Nat) : (s.peak w key v).now = s.now := rfl
@[simp] theorem State.peak_timeZero (s : State) (w key v : Nat) : (s.peak w key v).timeZero = s.timeZero := rfl
@[simp] theorem State.peak_free (s : State) (w key v : Nat) : (s.peak w key v).free = s.free := rfl
@[simp] theorem State.peak_obj (s : State) (w key v : Nat) : (s.peak w key v).obj = Tbl.set s.obj key (some (max (s.ctr key) (min v (typeMax w)))) := rfl
@[simp] theorem State.peak_out (s : State) (w key v : Nat) : (s.peak w key v).out = s.out := rfl
@[simp] theorem State.peak_sess (s : State) (w key v : Nat) : (s.peak w key v).sess = s.sess := rfl
@[simp] theorem State.peak_sids (s : State) (w key v : Nat) : (s.peak w key v).sids = s.sids := rfl
@[simp] theorem State.peak_fails (s : State) (w key v : Nat) : (s.peak w key v).fails = s.fails := rfl
@[simp] theorem State.peak_locks (s : State) (w key v : Nat) : (s.peak w key v).locks = s.locks := rfl
@[simp] theorem State.peak_subs (s : State) (w key v : Nat) : (s.peak w key v).subs = s.subs := rfl
@[simp] theorem State.peak_nextSub (s : State) (w key v : Nat) : (s.peak w key v).nextSub = s.nextSub := rfl
@[simp] theorem State.peak_mbx (s : State) (w key v : Nat) : (s.peak w key v).mbx = s.mbx := rfl
@[simp] theorem State.peak_flash (s : State) (w key v : Nat) : (s.peak w key v).flash = s.flash := rfl
@[simp] theorem State.peak_seqs (s : State) (w key v : Nat) : (s.peak w key v).seqs = s.seqs := rfl
@[simp] theorem State.peak_arrays (s : State) (w key v : Nat) : (s.peak w key v).arrays = s.arrays := rfl
@[simp] theorem State.peak_tables (s : State) (w key v : Nat) : (s.peak w key v).tables = s.tables := rfl
@[simp] theorem State.peak_groups (s : State) (w key v : Nat) : (s.peak w key v).groups = s.groups := rfl
@[simp] theorem State.peak_blocks (s : State) (w key v : Nat) : (s.peak w key v).blocks = s.blocks := rfl
@[simp] theorem State.peak_cores (s : State) (w key v : Nat) : (s.peak w key v).cores = s.cores := rfl
@[simp] theorem State.peak_l1d (s : State) (w key v : Nat) : (s.peak w key v).l1d = s.l1d := rfl
@[simp] theorem State.peak_l1i (s : State) (w key v : Nat) : (s.peak w key v).l1i = s.l1i := rfl
@[simp] theorem State.peak_dc (s : State) (w key v : Nat) : (s.peak w key v).dc = s.dc := rfl
@[simp] theorem State.peak_victim (s : State) (w key v : Nat) : (s.peak w key v).victim = s.victim := rfl
@[simp] theorem State.peak_reclaim (s : State) (w key v : Nat) : (s.peak w key v).reclaim = s.reclaim := rfl
@[simp] theorem State.peak_dup (s : State) (w key v : Nat) : (s.peak w key v).dup = s.dup := rfl
@[simp] theorem State.peak_tx (s : State) (w key v : Nat) : (s.peak w key v).tx = s.tx := rfl
@[simp] theorem State.peak_txq (s : State) (w key v : Nat) : (s.peak w key v).txq = s.txq := rfl
@[simp] theorem State.peak_lattice (s : State) (w key v : Nat) : (s.peak w key v).lattice = s.lattice := rfl
@[simp] theorem State.peak_hlocks (s : State) (w key v : Nat) : (s.peak w key v).hlocks = s.hlocks := rfl
@[simp] theorem State.peak_hbm (s : State) (w key v : Nat) : (s.peak w key v).hbm = s.hbm := rfl
@[simp] theorem State.peak_poison (s : State) (w key v : Nat) : (s.peak w key v).poison = s.poison := rfl
@[simp] theorem State.peak_host (s : State) (w key v : Nat) : (s.peak w key v).host = s.host := rfl
@[simp] theorem State.peak_chan (s : State) (w key v : Nat) : (s.peak w key v).chan = s.chan := rfl
@[simp] theorem State.peak_ramp (s : State) (w key v : Nat) : (s.peak w key v).ramp = s.ramp := rfl
@[simp] theorem State.peak_buckets (s : State) (w key v : Nat) : (s.peak w key v).buckets = s.buckets := rfl
@[simp] theorem State.peak_bucketAt (s : State) (w key v : Nat) : (s.peak w key v).bucketAt = s.bucketAt := rfl
@[simp] theorem State.peak_bucketQ (s : State) (w key v : Nat) : (s.peak w key v).bucketQ = s.bucketQ := rfl
@[simp] theorem State.peak_train (s : State) (w key v : Nat) : (s.peak w key v).train = s.train := rfl
@[simp] theorem State.peak_tlbs (s : State) (w key v : Nat) : (s.peak w key v).tlbs = s.tlbs := rfl
@[simp] theorem State.peak_walks (s : State) (w key v : Nat) : (s.peak w key v).walks = s.walks := rfl
@[simp] theorem State.peak_faults (s : State) (w key v : Nat) : (s.peak w key v).faults = s.faults := rfl
@[simp] theorem State.peak_gens (s : State) (w key v : Nat) : (s.peak w key v).gens = s.gens := rfl
@[simp] theorem State.peak_ctxs (s : State) (w key v : Nat) : (s.peak w key v).ctxs = s.ctxs := rfl
@[simp] theorem State.peak_mems (s : State) (w key v : Nat) : (s.peak w key v).mems = s.mems := rfl
@[simp] theorem State.peak_sigs (s : State) (w key v : Nat) : (s.peak w key v).sigs = s.sigs := rfl
@[simp] theorem State.peak_arcs (s : State) (w key v : Nat) : (s.peak w key v).arcs = s.arcs := rfl
@[simp] theorem State.peak_rings (s : State) (w key v : Nat) : (s.peak w key v).rings = s.rings := rfl
@[simp] theorem State.peak_ctls (s : State) (w key v : Nat) : (s.peak w key v).ctls = s.ctls := rfl
@[simp] theorem State.peak_peers (s : State) (w key v : Nat) : (s.peak w key v).peers = s.peers := rfl
@[simp] theorem State.peak_parkq (s : State) (w key v : Nat) : (s.peak w key v).parkq = s.parkq := rfl
@[simp] theorem State.peak_watch (s : State) (w key v : Nat) : (s.peak w key v).watch = s.watch := rfl
@[simp] theorem State.peak_sigAdds (s : State) (w key v : Nat) : (s.peak w key v).sigAdds = s.sigAdds := rfl
@[simp] theorem State.peak_addHandle (s : State) (w key v : Nat) : (s.peak w key v).addHandle = s.addHandle := rfl
@[simp] theorem State.peak_rejects (s : State) (w key v : Nat) : (s.peak w key v).rejects = s.rejects := rfl
@[simp] theorem State.peak_chords (s : State) (w key v : Nat) : (s.peak w key v).chords = s.chords := rfl
@[simp] theorem State.peak_links (s : State) (w key v : Nat) : (s.peak w key v).links = s.links := rfl
@[simp] theorem State.peak_clusters (s : State) (w key v : Nat) : (s.peak w key v).clusters = s.clusters := rfl
@[simp] theorem State.peak_duty (s : State) (w key v : Nat) : (s.peak w key v).duty = s.duty := rfl
@[simp] theorem State.peak_grants (s : State) (w key v : Nat) : (s.peak w key v).grants = s.grants := rfl
@[simp] theorem State.peak_powerAt (s : State) (w key v : Nat) : (s.peak w key v).powerAt = s.powerAt := rfl
@[simp] theorem State.peak_overCap (s : State) (w key v : Nat) : (s.peak w key v).overCap = s.overCap := rfl
@[simp] theorem State.peak_sites (s : State) (w key v : Nat) : (s.peak w key v).sites = s.sites := rfl
@[simp] theorem State.peak_winLog (s : State) (w key v : Nat) : (s.peak w key v).winLog = s.winLog := rfl
@[simp] theorem State.peak_life (s : State) (w key v : Nat) : (s.peak w key v).life = s.life := rfl
@[simp] theorem State.peak_ledger (s : State) (w key v : Nat) : (s.peak w key v).ledger = s.ledger := rfl
@[simp] theorem State.peak_floors (s : State) (w key v : Nat) : (s.peak w key v).floors = s.floors := rfl
@[simp] theorem State.peak_retFuse (s : State) (w key v : Nat) : (s.peak w key v).retFuse = s.retFuse := rfl
@[simp] theorem State.peak_trend (s : State) (w key v : Nat) : (s.peak w key v).trend = s.trend := rfl
@[simp] theorem State.peak_timingDays (s : State) (w key v : Nat) : (s.peak w key v).timingDays = s.timingDays := rfl
@[simp] theorem State.peak_traceProd (s : State) (w key v : Nat) : (s.peak w key v).traceProd = s.traceProd := rfl
@[simp] theorem State.peak_traceCons (s : State) (w key v : Nat) : (s.peak w key v).traceCons = s.traceCons := rfl
@[simp] theorem State.peak_traceSeq (s : State) (w key v : Nat) : (s.peak w key v).traceSeq = s.traceSeq := rfl
@[simp] theorem State.peak_traceLoss (s : State) (w key v : Nat) : (s.peak w key v).traceLoss = s.traceLoss := rfl
@[simp] theorem State.peak_watches (s : State) (w key v : Nat) : (s.peak w key v).watches = s.watches := rfl
@[simp] theorem State.peak_tapIr (s : State) (w key v : Nat) : (s.peak w key v).tapIr = s.tapIr := rfl
@[simp] theorem State.peak_tapDr (s : State) (w key v : Nat) : (s.peak w key v).tapDr = s.tapDr := rfl
@[simp] theorem State.peak_keys (s : State) (w key v : Nat) : (s.peak w key v).keys = s.keys := rfl
@[simp] theorem State.peak_triples (s : State) (w key v : Nat) : (s.peak w key v).triples = s.triples := rfl
@[simp] theorem State.peak_spdm (s : State) (w key v : Nat) : (s.peak w key v).spdm = s.spdm := rfl
@[simp] theorem State.peak_aux (s : State) (w key v : Nat) : (s.peak w key v).aux = s.aux := rfl
@[simp] theorem State.peak_vin48 (s : State) (w key v : Nat) : (s.peak w key v).vin48 = s.vin48 := rfl
@[simp] theorem State.peak_refclk (s : State) (w key v : Nat) : (s.peak w key v).refclk = s.refclk := rfl
@[simp] theorem State.peak_powered (s : State) (w key v : Nat) : (s.peak w key v).powered = s.powered := rfl
@[simp] theorem State.peak_ctlReady (s : State) (w key v : Nat) : (s.peak w key v).ctlReady = s.ctlReady := rfl
@[simp] theorem State.peak_hostTraining (s : State) (w key v : Nat) : (s.peak w key v).hostTraining = s.hostTraining := rfl
@[simp] theorem State.peak_hostLost (s : State) (w key v : Nat) : (s.peak w key v).hostLost = s.hostLost := rfl
@[simp] theorem State.peak_throttle (s : State) (w key v : Nat) : (s.peak w key v).throttle = s.throttle := rfl
@[simp] theorem State.peak_thermTrip (s : State) (w key v : Nat) : (s.peak w key v).thermTrip = s.thermTrip := rfl
@[simp] theorem State.peak_alert (s : State) (w key v : Nat) : (s.peak w key v).alert = s.alert := rfl
@[simp] theorem State.peak_currentLimit (s : State) (w key v : Nat) : (s.peak w key v).currentLimit = s.currentLimit := rfl
@[simp] theorem State.peak_safeThermal (s : State) (w key v : Nat) : (s.peak w key v).safeThermal = s.safeThermal := rfl
@[simp] theorem State.peak_hot (s : State) (w key v : Nat) : (s.peak w key v).hot = s.hot := rfl
@[simp] theorem State.peak_starting (s : State) (w key v : Nat) : (s.peak w key v).starting = s.starting := rfl
@[simp] theorem State.peak_failedStart (s : State) (w key v : Nat) : (s.peak w key v).failedStart = s.failedStart := rfl
@[simp] theorem State.peak_warmFails (s : State) (w key v : Nat) : (s.peak w key v).warmFails = s.warmFails := rfl
@[simp] theorem State.peak_fetchStop (s : State) (w key v : Nat) : (s.peak w key v).fetchStop = s.fetchStop := rfl
@[simp] theorem State.peak_identifyEnds (s : State) (w key v : Nat) : (s.peak w key v).identifyEnds = s.identifyEnds := rfl
@[simp] theorem State.peak_latchTimer (s : State) (w key v : Nat) : (s.peak w key v).latchTimer = s.latchTimer := rfl
@[simp] theorem State.peak_latchStop (s : State) (w key v : Nat) : (s.peak w key v).latchStop = s.latchStop := rfl
@[simp] theorem State.peak_teardowns (s : State) (w key v : Nat) : (s.peak w key v).teardowns = s.teardowns := rfl

/-! ### State.atTime -/

@[simp] theorem State.atTime_pending (s : State) (t : Nat) : (s.atTime t).pending = s.pending := rfl
@[simp] theorem State.atTime_admitted (s : State) (t : Nat) : (s.atTime t).admitted = s.admitted := rfl
@[simp] theorem State.atTime_layout (s : State) (t : Nat) : (s.atTime t).layout = s.layout := rfl
@[simp] theorem State.atTime_hostTables (s : State) (t : Nat) : (s.atTime t).hostTables = s.hostTables := rfl
@[simp] theorem State.atTime_tapRsp (s : State) (t : Nat) : (s.atTime t).tapRsp = s.tapRsp := rfl
@[simp] theorem State.atTime_vers (s : State) (t : Nat) : (s.atTime t).vers = s.vers := rfl
@[simp] theorem State.atTime_now (s : State) (t : Nat) : (s.atTime t).now = max s.now t := rfl
@[simp] theorem State.atTime_timeZero (s : State) (t : Nat) : (s.atTime t).timeZero = s.timeZero := rfl
@[simp] theorem State.atTime_free (s : State) (t : Nat) : (s.atTime t).free = s.free := rfl
@[simp] theorem State.atTime_obj (s : State) (t : Nat) : (s.atTime t).obj = s.obj := rfl
@[simp] theorem State.atTime_out (s : State) (t : Nat) : (s.atTime t).out = s.out := rfl
@[simp] theorem State.atTime_sess (s : State) (t : Nat) : (s.atTime t).sess = s.sess := rfl
@[simp] theorem State.atTime_sids (s : State) (t : Nat) : (s.atTime t).sids = s.sids := rfl
@[simp] theorem State.atTime_fails (s : State) (t : Nat) : (s.atTime t).fails = s.fails := rfl
@[simp] theorem State.atTime_locks (s : State) (t : Nat) : (s.atTime t).locks = s.locks := rfl
@[simp] theorem State.atTime_subs (s : State) (t : Nat) : (s.atTime t).subs = s.subs := rfl
@[simp] theorem State.atTime_nextSub (s : State) (t : Nat) : (s.atTime t).nextSub = s.nextSub := rfl
@[simp] theorem State.atTime_mbx (s : State) (t : Nat) : (s.atTime t).mbx = s.mbx := rfl
@[simp] theorem State.atTime_flash (s : State) (t : Nat) : (s.atTime t).flash = s.flash := rfl
@[simp] theorem State.atTime_seqs (s : State) (t : Nat) : (s.atTime t).seqs = s.seqs := rfl
@[simp] theorem State.atTime_arrays (s : State) (t : Nat) : (s.atTime t).arrays = s.arrays := rfl
@[simp] theorem State.atTime_tables (s : State) (t : Nat) : (s.atTime t).tables = s.tables := rfl
@[simp] theorem State.atTime_groups (s : State) (t : Nat) : (s.atTime t).groups = s.groups := rfl
@[simp] theorem State.atTime_blocks (s : State) (t : Nat) : (s.atTime t).blocks = s.blocks := rfl
@[simp] theorem State.atTime_cores (s : State) (t : Nat) : (s.atTime t).cores = s.cores := rfl
@[simp] theorem State.atTime_l1d (s : State) (t : Nat) : (s.atTime t).l1d = s.l1d := rfl
@[simp] theorem State.atTime_l1i (s : State) (t : Nat) : (s.atTime t).l1i = s.l1i := rfl
@[simp] theorem State.atTime_dc (s : State) (t : Nat) : (s.atTime t).dc = s.dc := rfl
@[simp] theorem State.atTime_victim (s : State) (t : Nat) : (s.atTime t).victim = s.victim := rfl
@[simp] theorem State.atTime_reclaim (s : State) (t : Nat) : (s.atTime t).reclaim = s.reclaim := rfl
@[simp] theorem State.atTime_dup (s : State) (t : Nat) : (s.atTime t).dup = s.dup := rfl
@[simp] theorem State.atTime_tx (s : State) (t : Nat) : (s.atTime t).tx = s.tx := rfl
@[simp] theorem State.atTime_txq (s : State) (t : Nat) : (s.atTime t).txq = s.txq := rfl
@[simp] theorem State.atTime_lattice (s : State) (t : Nat) : (s.atTime t).lattice = s.lattice := rfl
@[simp] theorem State.atTime_hlocks (s : State) (t : Nat) : (s.atTime t).hlocks = s.hlocks := rfl
@[simp] theorem State.atTime_hbm (s : State) (t : Nat) : (s.atTime t).hbm = s.hbm := rfl
@[simp] theorem State.atTime_poison (s : State) (t : Nat) : (s.atTime t).poison = s.poison := rfl
@[simp] theorem State.atTime_host (s : State) (t : Nat) : (s.atTime t).host = s.host := rfl
@[simp] theorem State.atTime_chan (s : State) (t : Nat) : (s.atTime t).chan = s.chan := rfl
@[simp] theorem State.atTime_ramp (s : State) (t : Nat) : (s.atTime t).ramp = s.ramp := rfl
@[simp] theorem State.atTime_buckets (s : State) (t : Nat) : (s.atTime t).buckets = s.buckets := rfl
@[simp] theorem State.atTime_bucketAt (s : State) (t : Nat) : (s.atTime t).bucketAt = s.bucketAt := rfl
@[simp] theorem State.atTime_bucketQ (s : State) (t : Nat) : (s.atTime t).bucketQ = s.bucketQ := rfl
@[simp] theorem State.atTime_train (s : State) (t : Nat) : (s.atTime t).train = s.train := rfl
@[simp] theorem State.atTime_tlbs (s : State) (t : Nat) : (s.atTime t).tlbs = s.tlbs := rfl
@[simp] theorem State.atTime_walks (s : State) (t : Nat) : (s.atTime t).walks = s.walks := rfl
@[simp] theorem State.atTime_faults (s : State) (t : Nat) : (s.atTime t).faults = s.faults := rfl
@[simp] theorem State.atTime_gens (s : State) (t : Nat) : (s.atTime t).gens = s.gens := rfl
@[simp] theorem State.atTime_ctxs (s : State) (t : Nat) : (s.atTime t).ctxs = s.ctxs := rfl
@[simp] theorem State.atTime_mems (s : State) (t : Nat) : (s.atTime t).mems = s.mems := rfl
@[simp] theorem State.atTime_sigs (s : State) (t : Nat) : (s.atTime t).sigs = s.sigs := rfl
@[simp] theorem State.atTime_arcs (s : State) (t : Nat) : (s.atTime t).arcs = s.arcs := rfl
@[simp] theorem State.atTime_rings (s : State) (t : Nat) : (s.atTime t).rings = s.rings := rfl
@[simp] theorem State.atTime_ctls (s : State) (t : Nat) : (s.atTime t).ctls = s.ctls := rfl
@[simp] theorem State.atTime_peers (s : State) (t : Nat) : (s.atTime t).peers = s.peers := rfl
@[simp] theorem State.atTime_parkq (s : State) (t : Nat) : (s.atTime t).parkq = s.parkq := rfl
@[simp] theorem State.atTime_watch (s : State) (t : Nat) : (s.atTime t).watch = s.watch := rfl
@[simp] theorem State.atTime_sigAdds (s : State) (t : Nat) : (s.atTime t).sigAdds = s.sigAdds := rfl
@[simp] theorem State.atTime_addHandle (s : State) (t : Nat) : (s.atTime t).addHandle = s.addHandle := rfl
@[simp] theorem State.atTime_rejects (s : State) (t : Nat) : (s.atTime t).rejects = s.rejects := rfl
@[simp] theorem State.atTime_chords (s : State) (t : Nat) : (s.atTime t).chords = s.chords := rfl
@[simp] theorem State.atTime_links (s : State) (t : Nat) : (s.atTime t).links = s.links := rfl
@[simp] theorem State.atTime_clusters (s : State) (t : Nat) : (s.atTime t).clusters = s.clusters := rfl
@[simp] theorem State.atTime_duty (s : State) (t : Nat) : (s.atTime t).duty = s.duty := rfl
@[simp] theorem State.atTime_grants (s : State) (t : Nat) : (s.atTime t).grants = s.grants := rfl
@[simp] theorem State.atTime_powerAt (s : State) (t : Nat) : (s.atTime t).powerAt = s.powerAt := rfl
@[simp] theorem State.atTime_overCap (s : State) (t : Nat) : (s.atTime t).overCap = s.overCap := rfl
@[simp] theorem State.atTime_sites (s : State) (t : Nat) : (s.atTime t).sites = s.sites := rfl
@[simp] theorem State.atTime_winLog (s : State) (t : Nat) : (s.atTime t).winLog = s.winLog := rfl
@[simp] theorem State.atTime_life (s : State) (t : Nat) : (s.atTime t).life = s.life := rfl
@[simp] theorem State.atTime_ledger (s : State) (t : Nat) : (s.atTime t).ledger = s.ledger := rfl
@[simp] theorem State.atTime_floors (s : State) (t : Nat) : (s.atTime t).floors = s.floors := rfl
@[simp] theorem State.atTime_retFuse (s : State) (t : Nat) : (s.atTime t).retFuse = s.retFuse := rfl
@[simp] theorem State.atTime_trend (s : State) (t : Nat) : (s.atTime t).trend = s.trend := rfl
@[simp] theorem State.atTime_timingDays (s : State) (t : Nat) : (s.atTime t).timingDays = s.timingDays := rfl
@[simp] theorem State.atTime_traceProd (s : State) (t : Nat) : (s.atTime t).traceProd = s.traceProd := rfl
@[simp] theorem State.atTime_traceCons (s : State) (t : Nat) : (s.atTime t).traceCons = s.traceCons := rfl
@[simp] theorem State.atTime_traceSeq (s : State) (t : Nat) : (s.atTime t).traceSeq = s.traceSeq := rfl
@[simp] theorem State.atTime_traceLoss (s : State) (t : Nat) : (s.atTime t).traceLoss = s.traceLoss := rfl
@[simp] theorem State.atTime_watches (s : State) (t : Nat) : (s.atTime t).watches = s.watches := rfl
@[simp] theorem State.atTime_tapIr (s : State) (t : Nat) : (s.atTime t).tapIr = s.tapIr := rfl
@[simp] theorem State.atTime_tapDr (s : State) (t : Nat) : (s.atTime t).tapDr = s.tapDr := rfl
@[simp] theorem State.atTime_keys (s : State) (t : Nat) : (s.atTime t).keys = s.keys := rfl
@[simp] theorem State.atTime_triples (s : State) (t : Nat) : (s.atTime t).triples = s.triples := rfl
@[simp] theorem State.atTime_spdm (s : State) (t : Nat) : (s.atTime t).spdm = s.spdm := rfl
@[simp] theorem State.atTime_aux (s : State) (t : Nat) : (s.atTime t).aux = s.aux := rfl
@[simp] theorem State.atTime_vin48 (s : State) (t : Nat) : (s.atTime t).vin48 = s.vin48 := rfl
@[simp] theorem State.atTime_refclk (s : State) (t : Nat) : (s.atTime t).refclk = s.refclk := rfl
@[simp] theorem State.atTime_powered (s : State) (t : Nat) : (s.atTime t).powered = s.powered := rfl
@[simp] theorem State.atTime_ctlReady (s : State) (t : Nat) : (s.atTime t).ctlReady = s.ctlReady := rfl
@[simp] theorem State.atTime_hostTraining (s : State) (t : Nat) : (s.atTime t).hostTraining = s.hostTraining := rfl
@[simp] theorem State.atTime_hostLost (s : State) (t : Nat) : (s.atTime t).hostLost = s.hostLost := rfl
@[simp] theorem State.atTime_throttle (s : State) (t : Nat) : (s.atTime t).throttle = s.throttle := rfl
@[simp] theorem State.atTime_thermTrip (s : State) (t : Nat) : (s.atTime t).thermTrip = s.thermTrip := rfl
@[simp] theorem State.atTime_alert (s : State) (t : Nat) : (s.atTime t).alert = s.alert := rfl
@[simp] theorem State.atTime_currentLimit (s : State) (t : Nat) : (s.atTime t).currentLimit = s.currentLimit := rfl
@[simp] theorem State.atTime_safeThermal (s : State) (t : Nat) : (s.atTime t).safeThermal = s.safeThermal := rfl
@[simp] theorem State.atTime_hot (s : State) (t : Nat) : (s.atTime t).hot = s.hot := rfl
@[simp] theorem State.atTime_starting (s : State) (t : Nat) : (s.atTime t).starting = s.starting := rfl
@[simp] theorem State.atTime_failedStart (s : State) (t : Nat) : (s.atTime t).failedStart = s.failedStart := rfl
@[simp] theorem State.atTime_warmFails (s : State) (t : Nat) : (s.atTime t).warmFails = s.warmFails := rfl
@[simp] theorem State.atTime_fetchStop (s : State) (t : Nat) : (s.atTime t).fetchStop = s.fetchStop := rfl
@[simp] theorem State.atTime_identifyEnds (s : State) (t : Nat) : (s.atTime t).identifyEnds = s.identifyEnds := rfl
@[simp] theorem State.atTime_latchTimer (s : State) (t : Nat) : (s.atTime t).latchTimer = s.latchTimer := rfl
@[simp] theorem State.atTime_latchStop (s : State) (t : Nat) : (s.atTime t).latchStop = s.latchStop := rfl
@[simp] theorem State.atTime_teardowns (s : State) (t : Nat) : (s.atTime t).teardowns = s.teardowns := rfl

/-! ### State.send -/

@[simp] theorem State.send_pending (s : State) (o : Out) : (s.send o).pending = s.pending := rfl
@[simp] theorem State.send_admitted (s : State) (o : Out) : (s.send o).admitted = s.admitted := rfl
@[simp] theorem State.send_layout (s : State) (o : Out) : (s.send o).layout = s.layout := rfl
@[simp] theorem State.send_hostTables (s : State) (o : Out) : (s.send o).hostTables = s.hostTables := rfl
@[simp] theorem State.send_tapRsp (s : State) (o : Out) : (s.send o).tapRsp = s.tapRsp := rfl
@[simp] theorem State.send_vers (s : State) (o : Out) : (s.send o).vers = s.vers := rfl
@[simp] theorem State.send_now (s : State) (o : Out) : (s.send o).now = s.now := rfl
@[simp] theorem State.send_timeZero (s : State) (o : Out) : (s.send o).timeZero = s.timeZero := rfl
@[simp] theorem State.send_free (s : State) (o : Out) : (s.send o).free = s.free := rfl
@[simp] theorem State.send_obj (s : State) (o : Out) : (s.send o).obj = s.obj := rfl
@[simp] theorem State.send_out (s : State) (o : Out) : (s.send o).out = s.out ++ [o] := rfl
@[simp] theorem State.send_sess (s : State) (o : Out) : (s.send o).sess = s.sess := rfl
@[simp] theorem State.send_sids (s : State) (o : Out) : (s.send o).sids = s.sids := rfl
@[simp] theorem State.send_fails (s : State) (o : Out) : (s.send o).fails = s.fails := rfl
@[simp] theorem State.send_locks (s : State) (o : Out) : (s.send o).locks = s.locks := rfl
@[simp] theorem State.send_subs (s : State) (o : Out) : (s.send o).subs = s.subs := rfl
@[simp] theorem State.send_nextSub (s : State) (o : Out) : (s.send o).nextSub = s.nextSub := rfl
@[simp] theorem State.send_mbx (s : State) (o : Out) : (s.send o).mbx = s.mbx := rfl
@[simp] theorem State.send_flash (s : State) (o : Out) : (s.send o).flash = s.flash := rfl
@[simp] theorem State.send_seqs (s : State) (o : Out) : (s.send o).seqs = s.seqs := rfl
@[simp] theorem State.send_arrays (s : State) (o : Out) : (s.send o).arrays = s.arrays := rfl
@[simp] theorem State.send_tables (s : State) (o : Out) : (s.send o).tables = s.tables := rfl
@[simp] theorem State.send_groups (s : State) (o : Out) : (s.send o).groups = s.groups := rfl
@[simp] theorem State.send_blocks (s : State) (o : Out) : (s.send o).blocks = s.blocks := rfl
@[simp] theorem State.send_cores (s : State) (o : Out) : (s.send o).cores = s.cores := rfl
@[simp] theorem State.send_l1d (s : State) (o : Out) : (s.send o).l1d = s.l1d := rfl
@[simp] theorem State.send_l1i (s : State) (o : Out) : (s.send o).l1i = s.l1i := rfl
@[simp] theorem State.send_dc (s : State) (o : Out) : (s.send o).dc = s.dc := rfl
@[simp] theorem State.send_victim (s : State) (o : Out) : (s.send o).victim = s.victim := rfl
@[simp] theorem State.send_reclaim (s : State) (o : Out) : (s.send o).reclaim = s.reclaim := rfl
@[simp] theorem State.send_dup (s : State) (o : Out) : (s.send o).dup = s.dup := rfl
@[simp] theorem State.send_tx (s : State) (o : Out) : (s.send o).tx = s.tx := rfl
@[simp] theorem State.send_txq (s : State) (o : Out) : (s.send o).txq = s.txq := rfl
@[simp] theorem State.send_lattice (s : State) (o : Out) : (s.send o).lattice = s.lattice := rfl
@[simp] theorem State.send_hlocks (s : State) (o : Out) : (s.send o).hlocks = s.hlocks := rfl
@[simp] theorem State.send_hbm (s : State) (o : Out) : (s.send o).hbm = s.hbm := rfl
@[simp] theorem State.send_poison (s : State) (o : Out) : (s.send o).poison = s.poison := rfl
@[simp] theorem State.send_host (s : State) (o : Out) : (s.send o).host = s.host := rfl
@[simp] theorem State.send_chan (s : State) (o : Out) : (s.send o).chan = s.chan := rfl
@[simp] theorem State.send_ramp (s : State) (o : Out) : (s.send o).ramp = s.ramp := rfl
@[simp] theorem State.send_buckets (s : State) (o : Out) : (s.send o).buckets = s.buckets := rfl
@[simp] theorem State.send_bucketAt (s : State) (o : Out) : (s.send o).bucketAt = s.bucketAt := rfl
@[simp] theorem State.send_bucketQ (s : State) (o : Out) : (s.send o).bucketQ = s.bucketQ := rfl
@[simp] theorem State.send_train (s : State) (o : Out) : (s.send o).train = s.train := rfl
@[simp] theorem State.send_tlbs (s : State) (o : Out) : (s.send o).tlbs = s.tlbs := rfl
@[simp] theorem State.send_walks (s : State) (o : Out) : (s.send o).walks = s.walks := rfl
@[simp] theorem State.send_faults (s : State) (o : Out) : (s.send o).faults = s.faults := rfl
@[simp] theorem State.send_gens (s : State) (o : Out) : (s.send o).gens = s.gens := rfl
@[simp] theorem State.send_ctxs (s : State) (o : Out) : (s.send o).ctxs = s.ctxs := rfl
@[simp] theorem State.send_mems (s : State) (o : Out) : (s.send o).mems = s.mems := rfl
@[simp] theorem State.send_sigs (s : State) (o : Out) : (s.send o).sigs = s.sigs := rfl
@[simp] theorem State.send_arcs (s : State) (o : Out) : (s.send o).arcs = s.arcs := rfl
@[simp] theorem State.send_rings (s : State) (o : Out) : (s.send o).rings = s.rings := rfl
@[simp] theorem State.send_ctls (s : State) (o : Out) : (s.send o).ctls = s.ctls := rfl
@[simp] theorem State.send_peers (s : State) (o : Out) : (s.send o).peers = s.peers := rfl
@[simp] theorem State.send_parkq (s : State) (o : Out) : (s.send o).parkq = s.parkq := rfl
@[simp] theorem State.send_watch (s : State) (o : Out) : (s.send o).watch = s.watch := rfl
@[simp] theorem State.send_sigAdds (s : State) (o : Out) : (s.send o).sigAdds = s.sigAdds := rfl
@[simp] theorem State.send_addHandle (s : State) (o : Out) : (s.send o).addHandle = s.addHandle := rfl
@[simp] theorem State.send_rejects (s : State) (o : Out) : (s.send o).rejects = s.rejects := rfl
@[simp] theorem State.send_chords (s : State) (o : Out) : (s.send o).chords = s.chords := rfl
@[simp] theorem State.send_links (s : State) (o : Out) : (s.send o).links = s.links := rfl
@[simp] theorem State.send_clusters (s : State) (o : Out) : (s.send o).clusters = s.clusters := rfl
@[simp] theorem State.send_duty (s : State) (o : Out) : (s.send o).duty = s.duty := rfl
@[simp] theorem State.send_grants (s : State) (o : Out) : (s.send o).grants = s.grants := rfl
@[simp] theorem State.send_powerAt (s : State) (o : Out) : (s.send o).powerAt = s.powerAt := rfl
@[simp] theorem State.send_overCap (s : State) (o : Out) : (s.send o).overCap = s.overCap := rfl
@[simp] theorem State.send_sites (s : State) (o : Out) : (s.send o).sites = s.sites := rfl
@[simp] theorem State.send_winLog (s : State) (o : Out) : (s.send o).winLog = s.winLog := rfl
@[simp] theorem State.send_life (s : State) (o : Out) : (s.send o).life = s.life := rfl
@[simp] theorem State.send_ledger (s : State) (o : Out) : (s.send o).ledger = s.ledger := rfl
@[simp] theorem State.send_floors (s : State) (o : Out) : (s.send o).floors = s.floors := rfl
@[simp] theorem State.send_retFuse (s : State) (o : Out) : (s.send o).retFuse = s.retFuse := rfl
@[simp] theorem State.send_trend (s : State) (o : Out) : (s.send o).trend = s.trend := rfl
@[simp] theorem State.send_timingDays (s : State) (o : Out) : (s.send o).timingDays = s.timingDays := rfl
@[simp] theorem State.send_traceProd (s : State) (o : Out) : (s.send o).traceProd = s.traceProd := rfl
@[simp] theorem State.send_traceCons (s : State) (o : Out) : (s.send o).traceCons = s.traceCons := rfl
@[simp] theorem State.send_traceSeq (s : State) (o : Out) : (s.send o).traceSeq = s.traceSeq := rfl
@[simp] theorem State.send_traceLoss (s : State) (o : Out) : (s.send o).traceLoss = s.traceLoss := rfl
@[simp] theorem State.send_watches (s : State) (o : Out) : (s.send o).watches = s.watches := rfl
@[simp] theorem State.send_tapIr (s : State) (o : Out) : (s.send o).tapIr = s.tapIr := rfl
@[simp] theorem State.send_tapDr (s : State) (o : Out) : (s.send o).tapDr = s.tapDr := rfl
@[simp] theorem State.send_keys (s : State) (o : Out) : (s.send o).keys = s.keys := rfl
@[simp] theorem State.send_triples (s : State) (o : Out) : (s.send o).triples = s.triples := rfl
@[simp] theorem State.send_spdm (s : State) (o : Out) : (s.send o).spdm = s.spdm := rfl
@[simp] theorem State.send_aux (s : State) (o : Out) : (s.send o).aux = s.aux := rfl
@[simp] theorem State.send_vin48 (s : State) (o : Out) : (s.send o).vin48 = s.vin48 := rfl
@[simp] theorem State.send_refclk (s : State) (o : Out) : (s.send o).refclk = s.refclk := rfl
@[simp] theorem State.send_powered (s : State) (o : Out) : (s.send o).powered = s.powered := rfl
@[simp] theorem State.send_ctlReady (s : State) (o : Out) : (s.send o).ctlReady = s.ctlReady := rfl
@[simp] theorem State.send_hostTraining (s : State) (o : Out) : (s.send o).hostTraining = s.hostTraining := rfl
@[simp] theorem State.send_hostLost (s : State) (o : Out) : (s.send o).hostLost = s.hostLost := rfl
@[simp] theorem State.send_throttle (s : State) (o : Out) : (s.send o).throttle = s.throttle := rfl
@[simp] theorem State.send_thermTrip (s : State) (o : Out) : (s.send o).thermTrip = s.thermTrip := rfl
@[simp] theorem State.send_alert (s : State) (o : Out) : (s.send o).alert = s.alert := rfl
@[simp] theorem State.send_currentLimit (s : State) (o : Out) : (s.send o).currentLimit = s.currentLimit := rfl
@[simp] theorem State.send_safeThermal (s : State) (o : Out) : (s.send o).safeThermal = s.safeThermal := rfl
@[simp] theorem State.send_hot (s : State) (o : Out) : (s.send o).hot = s.hot := rfl
@[simp] theorem State.send_starting (s : State) (o : Out) : (s.send o).starting = s.starting := rfl
@[simp] theorem State.send_failedStart (s : State) (o : Out) : (s.send o).failedStart = s.failedStart := rfl
@[simp] theorem State.send_warmFails (s : State) (o : Out) : (s.send o).warmFails = s.warmFails := rfl
@[simp] theorem State.send_fetchStop (s : State) (o : Out) : (s.send o).fetchStop = s.fetchStop := rfl
@[simp] theorem State.send_identifyEnds (s : State) (o : Out) : (s.send o).identifyEnds = s.identifyEnds := rfl
@[simp] theorem State.send_latchTimer (s : State) (o : Out) : (s.send o).latchTimer = s.latchTimer := rfl
@[simp] theorem State.send_latchStop (s : State) (o : Out) : (s.send o).latchStop = s.latchStop := rfl
@[simp] theorem State.send_teardowns (s : State) (o : Out) : (s.send o).teardowns = s.teardowns := rfl

/-! ### State.drew -/

@[simp] theorem State.drew_pending (s : State) : s.drew.pending = s.pending := rfl
@[simp] theorem State.drew_admitted (s : State) : s.drew.admitted = s.admitted := rfl
@[simp] theorem State.drew_layout (s : State) : s.drew.layout = s.layout := rfl
@[simp] theorem State.drew_hostTables (s : State) : s.drew.hostTables = s.hostTables := rfl
@[simp] theorem State.drew_tapRsp (s : State) : s.drew.tapRsp = s.tapRsp := rfl
@[simp] theorem State.drew_vers (s : State) : s.drew.vers = s.vers := rfl
@[simp] theorem State.drew_now (s : State) : s.drew.now = s.now := rfl
@[simp] theorem State.drew_timeZero (s : State) : s.drew.timeZero = s.timeZero := rfl
@[simp] theorem State.drew_free (s : State) : s.drew.free = s.free + 1 := rfl
@[simp] theorem State.drew_obj (s : State) : s.drew.obj = s.obj := rfl
@[simp] theorem State.drew_out (s : State) : s.drew.out = s.out := rfl
@[simp] theorem State.drew_sess (s : State) : s.drew.sess = s.sess := rfl
@[simp] theorem State.drew_sids (s : State) : s.drew.sids = s.sids := rfl
@[simp] theorem State.drew_fails (s : State) : s.drew.fails = s.fails := rfl
@[simp] theorem State.drew_locks (s : State) : s.drew.locks = s.locks := rfl
@[simp] theorem State.drew_subs (s : State) : s.drew.subs = s.subs := rfl
@[simp] theorem State.drew_nextSub (s : State) : s.drew.nextSub = s.nextSub := rfl
@[simp] theorem State.drew_mbx (s : State) : s.drew.mbx = s.mbx := rfl
@[simp] theorem State.drew_flash (s : State) : s.drew.flash = s.flash := rfl
@[simp] theorem State.drew_seqs (s : State) : s.drew.seqs = s.seqs := rfl
@[simp] theorem State.drew_arrays (s : State) : s.drew.arrays = s.arrays := rfl
@[simp] theorem State.drew_tables (s : State) : s.drew.tables = s.tables := rfl
@[simp] theorem State.drew_groups (s : State) : s.drew.groups = s.groups := rfl
@[simp] theorem State.drew_blocks (s : State) : s.drew.blocks = s.blocks := rfl
@[simp] theorem State.drew_cores (s : State) : s.drew.cores = s.cores := rfl
@[simp] theorem State.drew_l1d (s : State) : s.drew.l1d = s.l1d := rfl
@[simp] theorem State.drew_l1i (s : State) : s.drew.l1i = s.l1i := rfl
@[simp] theorem State.drew_dc (s : State) : s.drew.dc = s.dc := rfl
@[simp] theorem State.drew_victim (s : State) : s.drew.victim = s.victim := rfl
@[simp] theorem State.drew_reclaim (s : State) : s.drew.reclaim = s.reclaim := rfl
@[simp] theorem State.drew_dup (s : State) : s.drew.dup = s.dup := rfl
@[simp] theorem State.drew_tx (s : State) : s.drew.tx = s.tx := rfl
@[simp] theorem State.drew_txq (s : State) : s.drew.txq = s.txq := rfl
@[simp] theorem State.drew_lattice (s : State) : s.drew.lattice = s.lattice := rfl
@[simp] theorem State.drew_hlocks (s : State) : s.drew.hlocks = s.hlocks := rfl
@[simp] theorem State.drew_hbm (s : State) : s.drew.hbm = s.hbm := rfl
@[simp] theorem State.drew_poison (s : State) : s.drew.poison = s.poison := rfl
@[simp] theorem State.drew_host (s : State) : s.drew.host = s.host := rfl
@[simp] theorem State.drew_chan (s : State) : s.drew.chan = s.chan := rfl
@[simp] theorem State.drew_ramp (s : State) : s.drew.ramp = s.ramp := rfl
@[simp] theorem State.drew_buckets (s : State) : s.drew.buckets = s.buckets := rfl
@[simp] theorem State.drew_bucketAt (s : State) : s.drew.bucketAt = s.bucketAt := rfl
@[simp] theorem State.drew_bucketQ (s : State) : s.drew.bucketQ = s.bucketQ := rfl
@[simp] theorem State.drew_train (s : State) : s.drew.train = s.train := rfl
@[simp] theorem State.drew_tlbs (s : State) : s.drew.tlbs = s.tlbs := rfl
@[simp] theorem State.drew_walks (s : State) : s.drew.walks = s.walks := rfl
@[simp] theorem State.drew_faults (s : State) : s.drew.faults = s.faults := rfl
@[simp] theorem State.drew_gens (s : State) : s.drew.gens = s.gens := rfl
@[simp] theorem State.drew_ctxs (s : State) : s.drew.ctxs = s.ctxs := rfl
@[simp] theorem State.drew_mems (s : State) : s.drew.mems = s.mems := rfl
@[simp] theorem State.drew_sigs (s : State) : s.drew.sigs = s.sigs := rfl
@[simp] theorem State.drew_arcs (s : State) : s.drew.arcs = s.arcs := rfl
@[simp] theorem State.drew_rings (s : State) : s.drew.rings = s.rings := rfl
@[simp] theorem State.drew_ctls (s : State) : s.drew.ctls = s.ctls := rfl
@[simp] theorem State.drew_peers (s : State) : s.drew.peers = s.peers := rfl
@[simp] theorem State.drew_parkq (s : State) : s.drew.parkq = s.parkq := rfl
@[simp] theorem State.drew_watch (s : State) : s.drew.watch = s.watch := rfl
@[simp] theorem State.drew_sigAdds (s : State) : s.drew.sigAdds = s.sigAdds := rfl
@[simp] theorem State.drew_addHandle (s : State) : s.drew.addHandle = s.addHandle := rfl
@[simp] theorem State.drew_rejects (s : State) : s.drew.rejects = s.rejects := rfl
@[simp] theorem State.drew_chords (s : State) : s.drew.chords = s.chords := rfl
@[simp] theorem State.drew_links (s : State) : s.drew.links = s.links := rfl
@[simp] theorem State.drew_clusters (s : State) : s.drew.clusters = s.clusters := rfl
@[simp] theorem State.drew_duty (s : State) : s.drew.duty = s.duty := rfl
@[simp] theorem State.drew_grants (s : State) : s.drew.grants = s.grants := rfl
@[simp] theorem State.drew_powerAt (s : State) : s.drew.powerAt = s.powerAt := rfl
@[simp] theorem State.drew_overCap (s : State) : s.drew.overCap = s.overCap := rfl
@[simp] theorem State.drew_sites (s : State) : s.drew.sites = s.sites := rfl
@[simp] theorem State.drew_winLog (s : State) : s.drew.winLog = s.winLog := rfl
@[simp] theorem State.drew_life (s : State) : s.drew.life = s.life := rfl
@[simp] theorem State.drew_ledger (s : State) : s.drew.ledger = s.ledger := rfl
@[simp] theorem State.drew_floors (s : State) : s.drew.floors = s.floors := rfl
@[simp] theorem State.drew_retFuse (s : State) : s.drew.retFuse = s.retFuse := rfl
@[simp] theorem State.drew_trend (s : State) : s.drew.trend = s.trend := rfl
@[simp] theorem State.drew_timingDays (s : State) : s.drew.timingDays = s.timingDays := rfl
@[simp] theorem State.drew_traceProd (s : State) : s.drew.traceProd = s.traceProd := rfl
@[simp] theorem State.drew_traceCons (s : State) : s.drew.traceCons = s.traceCons := rfl
@[simp] theorem State.drew_traceSeq (s : State) : s.drew.traceSeq = s.traceSeq := rfl
@[simp] theorem State.drew_traceLoss (s : State) : s.drew.traceLoss = s.traceLoss := rfl
@[simp] theorem State.drew_watches (s : State) : s.drew.watches = s.watches := rfl
@[simp] theorem State.drew_tapIr (s : State) : s.drew.tapIr = s.tapIr := rfl
@[simp] theorem State.drew_tapDr (s : State) : s.drew.tapDr = s.tapDr := rfl
@[simp] theorem State.drew_keys (s : State) : s.drew.keys = s.keys := rfl
@[simp] theorem State.drew_triples (s : State) : s.drew.triples = s.triples := rfl
@[simp] theorem State.drew_spdm (s : State) : s.drew.spdm = s.spdm := rfl
@[simp] theorem State.drew_aux (s : State) : s.drew.aux = s.aux := rfl
@[simp] theorem State.drew_vin48 (s : State) : s.drew.vin48 = s.vin48 := rfl
@[simp] theorem State.drew_refclk (s : State) : s.drew.refclk = s.refclk := rfl
@[simp] theorem State.drew_powered (s : State) : s.drew.powered = s.powered := rfl
@[simp] theorem State.drew_ctlReady (s : State) : s.drew.ctlReady = s.ctlReady := rfl
@[simp] theorem State.drew_hostTraining (s : State) : s.drew.hostTraining = s.hostTraining := rfl
@[simp] theorem State.drew_hostLost (s : State) : s.drew.hostLost = s.hostLost := rfl
@[simp] theorem State.drew_throttle (s : State) : s.drew.throttle = s.throttle := rfl
@[simp] theorem State.drew_thermTrip (s : State) : s.drew.thermTrip = s.thermTrip := rfl
@[simp] theorem State.drew_alert (s : State) : s.drew.alert = s.alert := rfl
@[simp] theorem State.drew_currentLimit (s : State) : s.drew.currentLimit = s.currentLimit := rfl
@[simp] theorem State.drew_safeThermal (s : State) : s.drew.safeThermal = s.safeThermal := rfl
@[simp] theorem State.drew_hot (s : State) : s.drew.hot = s.hot := rfl
@[simp] theorem State.drew_starting (s : State) : s.drew.starting = s.starting := rfl
@[simp] theorem State.drew_failedStart (s : State) : s.drew.failedStart = s.failedStart := rfl
@[simp] theorem State.drew_warmFails (s : State) : s.drew.warmFails = s.warmFails := rfl
@[simp] theorem State.drew_fetchStop (s : State) : s.drew.fetchStop = s.fetchStop := rfl
@[simp] theorem State.drew_identifyEnds (s : State) : s.drew.identifyEnds = s.identifyEnds := rfl
@[simp] theorem State.drew_latchTimer (s : State) : s.drew.latchTimer = s.latchTimer := rfl
@[simp] theorem State.drew_latchStop (s : State) : s.drew.latchStop = s.latchStop := rfl
@[simp] theorem State.drew_teardowns (s : State) : s.drew.teardowns = s.teardowns := rfl

/-! ### State.setCore -/

@[simp] theorem State.setCore_pending (s : State) (k : Nat) (c : CoreU) : (s.setCore k c).pending = s.pending := rfl
@[simp] theorem State.setCore_admitted (s : State) (k : Nat) (c : CoreU) : (s.setCore k c).admitted = s.admitted := rfl
@[simp] theorem State.setCore_layout (s : State) (k : Nat) (c : CoreU) : (s.setCore k c).layout = s.layout := rfl
@[simp] theorem State.setCore_hostTables (s : State) (k : Nat) (c : CoreU) : (s.setCore k c).hostTables = s.hostTables := rfl
@[simp] theorem State.setCore_tapRsp (s : State) (k : Nat) (c : CoreU) : (s.setCore k c).tapRsp = s.tapRsp := rfl
@[simp] theorem State.setCore_vers (s : State) (k : Nat) (c : CoreU) : (s.setCore k c).vers = s.vers := rfl
@[simp] theorem State.setCore_now (s : State) (k : Nat) (c : CoreU) : (s.setCore k c).now = s.now := rfl
@[simp] theorem State.setCore_timeZero (s : State) (k : Nat) (c : CoreU) : (s.setCore k c).timeZero = s.timeZero := rfl
@[simp] theorem State.setCore_free (s : State) (k : Nat) (c : CoreU) : (s.setCore k c).free = s.free := rfl
@[simp] theorem State.setCore_obj (s : State) (k : Nat) (c : CoreU) : (s.setCore k c).obj = s.obj := rfl
@[simp] theorem State.setCore_out (s : State) (k : Nat) (c : CoreU) : (s.setCore k c).out = s.out := rfl
@[simp] theorem State.setCore_sess (s : State) (k : Nat) (c : CoreU) : (s.setCore k c).sess = s.sess := rfl
@[simp] theorem State.setCore_sids (s : State) (k : Nat) (c : CoreU) : (s.setCore k c).sids = s.sids := rfl
@[simp] theorem State.setCore_fails (s : State) (k : Nat) (c : CoreU) : (s.setCore k c).fails = s.fails := rfl
@[simp] theorem State.setCore_locks (s : State) (k : Nat) (c : CoreU) : (s.setCore k c).locks = s.locks := rfl
@[simp] theorem State.setCore_subs (s : State) (k : Nat) (c : CoreU) : (s.setCore k c).subs = s.subs := rfl
@[simp] theorem State.setCore_nextSub (s : State) (k : Nat) (c : CoreU) : (s.setCore k c).nextSub = s.nextSub := rfl
@[simp] theorem State.setCore_mbx (s : State) (k : Nat) (c : CoreU) : (s.setCore k c).mbx = s.mbx := rfl
@[simp] theorem State.setCore_flash (s : State) (k : Nat) (c : CoreU) : (s.setCore k c).flash = s.flash := rfl
@[simp] theorem State.setCore_seqs (s : State) (k : Nat) (c : CoreU) : (s.setCore k c).seqs = s.seqs := rfl
@[simp] theorem State.setCore_arrays (s : State) (k : Nat) (c : CoreU) : (s.setCore k c).arrays = s.arrays := rfl
@[simp] theorem State.setCore_tables (s : State) (k : Nat) (c : CoreU) : (s.setCore k c).tables = s.tables := rfl
@[simp] theorem State.setCore_groups (s : State) (k : Nat) (c : CoreU) : (s.setCore k c).groups = s.groups := rfl
@[simp] theorem State.setCore_blocks (s : State) (k : Nat) (c : CoreU) : (s.setCore k c).blocks = s.blocks := rfl
@[simp] theorem State.setCore_cores (s : State) (k : Nat) (c : CoreU) : (s.setCore k c).cores = Tbl.set s.cores k c := rfl
@[simp] theorem State.setCore_l1d (s : State) (k : Nat) (c : CoreU) : (s.setCore k c).l1d = s.l1d := rfl
@[simp] theorem State.setCore_l1i (s : State) (k : Nat) (c : CoreU) : (s.setCore k c).l1i = s.l1i := rfl
@[simp] theorem State.setCore_dc (s : State) (k : Nat) (c : CoreU) : (s.setCore k c).dc = s.dc := rfl
@[simp] theorem State.setCore_victim (s : State) (k : Nat) (c : CoreU) : (s.setCore k c).victim = s.victim := rfl
@[simp] theorem State.setCore_reclaim (s : State) (k : Nat) (c : CoreU) : (s.setCore k c).reclaim = s.reclaim := rfl
@[simp] theorem State.setCore_dup (s : State) (k : Nat) (c : CoreU) : (s.setCore k c).dup = s.dup := rfl
@[simp] theorem State.setCore_tx (s : State) (k : Nat) (c : CoreU) : (s.setCore k c).tx = s.tx := rfl
@[simp] theorem State.setCore_txq (s : State) (k : Nat) (c : CoreU) : (s.setCore k c).txq = s.txq := rfl
@[simp] theorem State.setCore_lattice (s : State) (k : Nat) (c : CoreU) : (s.setCore k c).lattice = s.lattice := rfl
@[simp] theorem State.setCore_hlocks (s : State) (k : Nat) (c : CoreU) : (s.setCore k c).hlocks = s.hlocks := rfl
@[simp] theorem State.setCore_hbm (s : State) (k : Nat) (c : CoreU) : (s.setCore k c).hbm = s.hbm := rfl
@[simp] theorem State.setCore_poison (s : State) (k : Nat) (c : CoreU) : (s.setCore k c).poison = s.poison := rfl
@[simp] theorem State.setCore_host (s : State) (k : Nat) (c : CoreU) : (s.setCore k c).host = s.host := rfl
@[simp] theorem State.setCore_chan (s : State) (k : Nat) (c : CoreU) : (s.setCore k c).chan = s.chan := rfl
@[simp] theorem State.setCore_ramp (s : State) (k : Nat) (c : CoreU) : (s.setCore k c).ramp = s.ramp := rfl
@[simp] theorem State.setCore_buckets (s : State) (k : Nat) (c : CoreU) : (s.setCore k c).buckets = s.buckets := rfl
@[simp] theorem State.setCore_bucketAt (s : State) (k : Nat) (c : CoreU) : (s.setCore k c).bucketAt = s.bucketAt := rfl
@[simp] theorem State.setCore_bucketQ (s : State) (k : Nat) (c : CoreU) : (s.setCore k c).bucketQ = s.bucketQ := rfl
@[simp] theorem State.setCore_train (s : State) (k : Nat) (c : CoreU) : (s.setCore k c).train = s.train := rfl
@[simp] theorem State.setCore_tlbs (s : State) (k : Nat) (c : CoreU) : (s.setCore k c).tlbs = s.tlbs := rfl
@[simp] theorem State.setCore_walks (s : State) (k : Nat) (c : CoreU) : (s.setCore k c).walks = s.walks := rfl
@[simp] theorem State.setCore_faults (s : State) (k : Nat) (c : CoreU) : (s.setCore k c).faults = s.faults := rfl
@[simp] theorem State.setCore_gens (s : State) (k : Nat) (c : CoreU) : (s.setCore k c).gens = s.gens := rfl
@[simp] theorem State.setCore_ctxs (s : State) (k : Nat) (c : CoreU) : (s.setCore k c).ctxs = s.ctxs := rfl
@[simp] theorem State.setCore_mems (s : State) (k : Nat) (c : CoreU) : (s.setCore k c).mems = s.mems := rfl
@[simp] theorem State.setCore_sigs (s : State) (k : Nat) (c : CoreU) : (s.setCore k c).sigs = s.sigs := rfl
@[simp] theorem State.setCore_arcs (s : State) (k : Nat) (c : CoreU) : (s.setCore k c).arcs = s.arcs := rfl
@[simp] theorem State.setCore_rings (s : State) (k : Nat) (c : CoreU) : (s.setCore k c).rings = s.rings := rfl
@[simp] theorem State.setCore_ctls (s : State) (k : Nat) (c : CoreU) : (s.setCore k c).ctls = s.ctls := rfl
@[simp] theorem State.setCore_peers (s : State) (k : Nat) (c : CoreU) : (s.setCore k c).peers = s.peers := rfl
@[simp] theorem State.setCore_parkq (s : State) (k : Nat) (c : CoreU) : (s.setCore k c).parkq = s.parkq := rfl
@[simp] theorem State.setCore_watch (s : State) (k : Nat) (c : CoreU) : (s.setCore k c).watch = s.watch := rfl
@[simp] theorem State.setCore_sigAdds (s : State) (k : Nat) (c : CoreU) : (s.setCore k c).sigAdds = s.sigAdds := rfl
@[simp] theorem State.setCore_addHandle (s : State) (k : Nat) (c : CoreU) : (s.setCore k c).addHandle = s.addHandle := rfl
@[simp] theorem State.setCore_rejects (s : State) (k : Nat) (c : CoreU) : (s.setCore k c).rejects = s.rejects := rfl
@[simp] theorem State.setCore_chords (s : State) (k : Nat) (c : CoreU) : (s.setCore k c).chords = s.chords := rfl
@[simp] theorem State.setCore_links (s : State) (k : Nat) (c : CoreU) : (s.setCore k c).links = s.links := rfl
@[simp] theorem State.setCore_clusters (s : State) (k : Nat) (c : CoreU) : (s.setCore k c).clusters = s.clusters := rfl
@[simp] theorem State.setCore_duty (s : State) (k : Nat) (c : CoreU) : (s.setCore k c).duty = s.duty := rfl
@[simp] theorem State.setCore_grants (s : State) (k : Nat) (c : CoreU) : (s.setCore k c).grants = s.grants := rfl
@[simp] theorem State.setCore_powerAt (s : State) (k : Nat) (c : CoreU) : (s.setCore k c).powerAt = s.powerAt := rfl
@[simp] theorem State.setCore_overCap (s : State) (k : Nat) (c : CoreU) : (s.setCore k c).overCap = s.overCap := rfl
@[simp] theorem State.setCore_sites (s : State) (k : Nat) (c : CoreU) : (s.setCore k c).sites = s.sites := rfl
@[simp] theorem State.setCore_winLog (s : State) (k : Nat) (c : CoreU) : (s.setCore k c).winLog = s.winLog := rfl
@[simp] theorem State.setCore_life (s : State) (k : Nat) (c : CoreU) : (s.setCore k c).life = s.life := rfl
@[simp] theorem State.setCore_ledger (s : State) (k : Nat) (c : CoreU) : (s.setCore k c).ledger = s.ledger := rfl
@[simp] theorem State.setCore_floors (s : State) (k : Nat) (c : CoreU) : (s.setCore k c).floors = s.floors := rfl
@[simp] theorem State.setCore_retFuse (s : State) (k : Nat) (c : CoreU) : (s.setCore k c).retFuse = s.retFuse := rfl
@[simp] theorem State.setCore_trend (s : State) (k : Nat) (c : CoreU) : (s.setCore k c).trend = s.trend := rfl
@[simp] theorem State.setCore_timingDays (s : State) (k : Nat) (c : CoreU) : (s.setCore k c).timingDays = s.timingDays := rfl
@[simp] theorem State.setCore_traceProd (s : State) (k : Nat) (c : CoreU) : (s.setCore k c).traceProd = s.traceProd := rfl
@[simp] theorem State.setCore_traceCons (s : State) (k : Nat) (c : CoreU) : (s.setCore k c).traceCons = s.traceCons := rfl
@[simp] theorem State.setCore_traceSeq (s : State) (k : Nat) (c : CoreU) : (s.setCore k c).traceSeq = s.traceSeq := rfl
@[simp] theorem State.setCore_traceLoss (s : State) (k : Nat) (c : CoreU) : (s.setCore k c).traceLoss = s.traceLoss := rfl
@[simp] theorem State.setCore_watches (s : State) (k : Nat) (c : CoreU) : (s.setCore k c).watches = s.watches := rfl
@[simp] theorem State.setCore_tapIr (s : State) (k : Nat) (c : CoreU) : (s.setCore k c).tapIr = s.tapIr := rfl
@[simp] theorem State.setCore_tapDr (s : State) (k : Nat) (c : CoreU) : (s.setCore k c).tapDr = s.tapDr := rfl
@[simp] theorem State.setCore_keys (s : State) (k : Nat) (c : CoreU) : (s.setCore k c).keys = s.keys := rfl
@[simp] theorem State.setCore_triples (s : State) (k : Nat) (c : CoreU) : (s.setCore k c).triples = s.triples := rfl
@[simp] theorem State.setCore_spdm (s : State) (k : Nat) (c : CoreU) : (s.setCore k c).spdm = s.spdm := rfl
@[simp] theorem State.setCore_aux (s : State) (k : Nat) (c : CoreU) : (s.setCore k c).aux = s.aux := rfl
@[simp] theorem State.setCore_vin48 (s : State) (k : Nat) (c : CoreU) : (s.setCore k c).vin48 = s.vin48 := rfl
@[simp] theorem State.setCore_refclk (s : State) (k : Nat) (c : CoreU) : (s.setCore k c).refclk = s.refclk := rfl
@[simp] theorem State.setCore_powered (s : State) (k : Nat) (c : CoreU) : (s.setCore k c).powered = s.powered := rfl
@[simp] theorem State.setCore_ctlReady (s : State) (k : Nat) (c : CoreU) : (s.setCore k c).ctlReady = s.ctlReady := rfl
@[simp] theorem State.setCore_hostTraining (s : State) (k : Nat) (c : CoreU) : (s.setCore k c).hostTraining = s.hostTraining := rfl
@[simp] theorem State.setCore_hostLost (s : State) (k : Nat) (c : CoreU) : (s.setCore k c).hostLost = s.hostLost := rfl
@[simp] theorem State.setCore_throttle (s : State) (k : Nat) (c : CoreU) : (s.setCore k c).throttle = s.throttle := rfl
@[simp] theorem State.setCore_thermTrip (s : State) (k : Nat) (c : CoreU) : (s.setCore k c).thermTrip = s.thermTrip := rfl
@[simp] theorem State.setCore_alert (s : State) (k : Nat) (c : CoreU) : (s.setCore k c).alert = s.alert := rfl
@[simp] theorem State.setCore_currentLimit (s : State) (k : Nat) (c : CoreU) : (s.setCore k c).currentLimit = s.currentLimit := rfl
@[simp] theorem State.setCore_safeThermal (s : State) (k : Nat) (c : CoreU) : (s.setCore k c).safeThermal = s.safeThermal := rfl
@[simp] theorem State.setCore_hot (s : State) (k : Nat) (c : CoreU) : (s.setCore k c).hot = s.hot := rfl
@[simp] theorem State.setCore_starting (s : State) (k : Nat) (c : CoreU) : (s.setCore k c).starting = s.starting := rfl
@[simp] theorem State.setCore_failedStart (s : State) (k : Nat) (c : CoreU) : (s.setCore k c).failedStart = s.failedStart := rfl
@[simp] theorem State.setCore_warmFails (s : State) (k : Nat) (c : CoreU) : (s.setCore k c).warmFails = s.warmFails := rfl
@[simp] theorem State.setCore_fetchStop (s : State) (k : Nat) (c : CoreU) : (s.setCore k c).fetchStop = s.fetchStop := rfl
@[simp] theorem State.setCore_identifyEnds (s : State) (k : Nat) (c : CoreU) : (s.setCore k c).identifyEnds = s.identifyEnds := rfl
@[simp] theorem State.setCore_latchTimer (s : State) (k : Nat) (c : CoreU) : (s.setCore k c).latchTimer = s.latchTimer := rfl
@[simp] theorem State.setCore_latchStop (s : State) (k : Nat) (c : CoreU) : (s.setCore k c).latchStop = s.latchStop := rfl
@[simp] theorem State.setCore_teardowns (s : State) (k : Nat) (c : CoreU) : (s.setCore k c).teardowns = s.teardowns := rfl

/-! ### State.setGroup -/

@[simp] theorem State.setGroup_pending (s : State) (k g : Nat) (x : Group) : (s.setGroup k g x).pending = s.pending := rfl
@[simp] theorem State.setGroup_admitted (s : State) (k g : Nat) (x : Group) : (s.setGroup k g x).admitted = s.admitted := rfl
@[simp] theorem State.setGroup_layout (s : State) (k g : Nat) (x : Group) : (s.setGroup k g x).layout = s.layout := rfl
@[simp] theorem State.setGroup_hostTables (s : State) (k g : Nat) (x : Group) : (s.setGroup k g x).hostTables = s.hostTables := rfl
@[simp] theorem State.setGroup_tapRsp (s : State) (k g : Nat) (x : Group) : (s.setGroup k g x).tapRsp = s.tapRsp := rfl
@[simp] theorem State.setGroup_now (s : State) (k g : Nat) (x : Group) : (s.setGroup k g x).now = s.now := rfl
@[simp] theorem State.setGroup_timeZero (s : State) (k g : Nat) (x : Group) : (s.setGroup k g x).timeZero = s.timeZero := rfl
@[simp] theorem State.setGroup_free (s : State) (k g : Nat) (x : Group) : (s.setGroup k g x).free = s.free := rfl
@[simp] theorem State.setGroup_obj (s : State) (k g : Nat) (x : Group) : (s.setGroup k g x).obj = s.obj := rfl
@[simp] theorem State.setGroup_out (s : State) (k g : Nat) (x : Group) : (s.setGroup k g x).out = s.out := rfl
@[simp] theorem State.setGroup_sess (s : State) (k g : Nat) (x : Group) : (s.setGroup k g x).sess = s.sess := rfl
@[simp] theorem State.setGroup_sids (s : State) (k g : Nat) (x : Group) : (s.setGroup k g x).sids = s.sids := rfl
@[simp] theorem State.setGroup_fails (s : State) (k g : Nat) (x : Group) : (s.setGroup k g x).fails = s.fails := rfl
@[simp] theorem State.setGroup_locks (s : State) (k g : Nat) (x : Group) : (s.setGroup k g x).locks = s.locks := rfl
@[simp] theorem State.setGroup_subs (s : State) (k g : Nat) (x : Group) : (s.setGroup k g x).subs = s.subs := rfl
@[simp] theorem State.setGroup_nextSub (s : State) (k g : Nat) (x : Group) : (s.setGroup k g x).nextSub = s.nextSub := rfl
@[simp] theorem State.setGroup_mbx (s : State) (k g : Nat) (x : Group) : (s.setGroup k g x).mbx = s.mbx := rfl
@[simp] theorem State.setGroup_flash (s : State) (k g : Nat) (x : Group) : (s.setGroup k g x).flash = s.flash := rfl
@[simp] theorem State.setGroup_seqs (s : State) (k g : Nat) (x : Group) : (s.setGroup k g x).seqs = s.seqs := rfl
@[simp] theorem State.setGroup_arrays (s : State) (k g : Nat) (x : Group) : (s.setGroup k g x).arrays = s.arrays := rfl
@[simp] theorem State.setGroup_tables (s : State) (k g : Nat) (x : Group) : (s.setGroup k g x).tables = s.tables := rfl
@[simp] theorem State.setGroup_groups (s : State) (k g : Nat) (x : Group) : (s.setGroup k g x).groups = Tbl.set s.groups (64 * k + g) x := rfl
@[simp] theorem State.setGroup_blocks (s : State) (k g : Nat) (x : Group) : (s.setGroup k g x).blocks = s.blocks := rfl
@[simp] theorem State.setGroup_cores (s : State) (k g : Nat) (x : Group) : (s.setGroup k g x).cores = s.cores := rfl
@[simp] theorem State.setGroup_l1d (s : State) (k g : Nat) (x : Group) : (s.setGroup k g x).l1d = s.l1d := rfl
@[simp] theorem State.setGroup_l1i (s : State) (k g : Nat) (x : Group) : (s.setGroup k g x).l1i = s.l1i := rfl
@[simp] theorem State.setGroup_dc (s : State) (k g : Nat) (x : Group) : (s.setGroup k g x).dc = s.dc := rfl
@[simp] theorem State.setGroup_victim (s : State) (k g : Nat) (x : Group) : (s.setGroup k g x).victim = s.victim := rfl
@[simp] theorem State.setGroup_reclaim (s : State) (k g : Nat) (x : Group) : (s.setGroup k g x).reclaim = s.reclaim := rfl
@[simp] theorem State.setGroup_dup (s : State) (k g : Nat) (x : Group) : (s.setGroup k g x).dup = s.dup := rfl
@[simp] theorem State.setGroup_tx (s : State) (k g : Nat) (x : Group) : (s.setGroup k g x).tx = s.tx := rfl
@[simp] theorem State.setGroup_txq (s : State) (k g : Nat) (x : Group) : (s.setGroup k g x).txq = s.txq := rfl
@[simp] theorem State.setGroup_lattice (s : State) (k g : Nat) (x : Group) : (s.setGroup k g x).lattice = s.lattice := rfl
@[simp] theorem State.setGroup_hlocks (s : State) (k g : Nat) (x : Group) : (s.setGroup k g x).hlocks = s.hlocks := rfl
@[simp] theorem State.setGroup_hbm (s : State) (k g : Nat) (x : Group) : (s.setGroup k g x).hbm = s.hbm := rfl
@[simp] theorem State.setGroup_poison (s : State) (k g : Nat) (x : Group) : (s.setGroup k g x).poison = s.poison := rfl
@[simp] theorem State.setGroup_host (s : State) (k g : Nat) (x : Group) : (s.setGroup k g x).host = s.host := rfl
@[simp] theorem State.setGroup_chan (s : State) (k g : Nat) (x : Group) : (s.setGroup k g x).chan = s.chan := rfl
@[simp] theorem State.setGroup_ramp (s : State) (k g : Nat) (x : Group) : (s.setGroup k g x).ramp = s.ramp := rfl
@[simp] theorem State.setGroup_buckets (s : State) (k g : Nat) (x : Group) : (s.setGroup k g x).buckets = s.buckets := rfl
@[simp] theorem State.setGroup_bucketAt (s : State) (k g : Nat) (x : Group) : (s.setGroup k g x).bucketAt = s.bucketAt := rfl
@[simp] theorem State.setGroup_bucketQ (s : State) (k g : Nat) (x : Group) : (s.setGroup k g x).bucketQ = s.bucketQ := rfl
@[simp] theorem State.setGroup_train (s : State) (k g : Nat) (x : Group) : (s.setGroup k g x).train = s.train := rfl
@[simp] theorem State.setGroup_tlbs (s : State) (k g : Nat) (x : Group) : (s.setGroup k g x).tlbs = s.tlbs := rfl
@[simp] theorem State.setGroup_walks (s : State) (k g : Nat) (x : Group) : (s.setGroup k g x).walks = s.walks := rfl
@[simp] theorem State.setGroup_faults (s : State) (k g : Nat) (x : Group) : (s.setGroup k g x).faults = s.faults := rfl
@[simp] theorem State.setGroup_gens (s : State) (k g : Nat) (x : Group) : (s.setGroup k g x).gens = s.gens := rfl
@[simp] theorem State.setGroup_ctxs (s : State) (k g : Nat) (x : Group) : (s.setGroup k g x).ctxs = s.ctxs := rfl
@[simp] theorem State.setGroup_mems (s : State) (k g : Nat) (x : Group) : (s.setGroup k g x).mems = s.mems := rfl
@[simp] theorem State.setGroup_sigs (s : State) (k g : Nat) (x : Group) : (s.setGroup k g x).sigs = s.sigs := rfl
@[simp] theorem State.setGroup_arcs (s : State) (k g : Nat) (x : Group) : (s.setGroup k g x).arcs = s.arcs := rfl
@[simp] theorem State.setGroup_rings (s : State) (k g : Nat) (x : Group) : (s.setGroup k g x).rings = s.rings := rfl
@[simp] theorem State.setGroup_ctls (s : State) (k g : Nat) (x : Group) : (s.setGroup k g x).ctls = s.ctls := rfl
@[simp] theorem State.setGroup_peers (s : State) (k g : Nat) (x : Group) : (s.setGroup k g x).peers = s.peers := rfl
@[simp] theorem State.setGroup_parkq (s : State) (k g : Nat) (x : Group) : (s.setGroup k g x).parkq = s.parkq := rfl
@[simp] theorem State.setGroup_watch (s : State) (k g : Nat) (x : Group) : (s.setGroup k g x).watch = s.watch := rfl
@[simp] theorem State.setGroup_sigAdds (s : State) (k g : Nat) (x : Group) : (s.setGroup k g x).sigAdds = s.sigAdds := rfl
@[simp] theorem State.setGroup_addHandle (s : State) (k g : Nat) (x : Group) : (s.setGroup k g x).addHandle = s.addHandle := rfl
@[simp] theorem State.setGroup_rejects (s : State) (k g : Nat) (x : Group) : (s.setGroup k g x).rejects = s.rejects := rfl
@[simp] theorem State.setGroup_chords (s : State) (k g : Nat) (x : Group) : (s.setGroup k g x).chords = s.chords := rfl
@[simp] theorem State.setGroup_links (s : State) (k g : Nat) (x : Group) : (s.setGroup k g x).links = s.links := rfl
@[simp] theorem State.setGroup_clusters (s : State) (k g : Nat) (x : Group) : (s.setGroup k g x).clusters = s.clusters := rfl
@[simp] theorem State.setGroup_duty (s : State) (k g : Nat) (x : Group) : (s.setGroup k g x).duty = s.duty := rfl
@[simp] theorem State.setGroup_grants (s : State) (k g : Nat) (x : Group) : (s.setGroup k g x).grants = s.grants := rfl
@[simp] theorem State.setGroup_powerAt (s : State) (k g : Nat) (x : Group) : (s.setGroup k g x).powerAt = s.powerAt := rfl
@[simp] theorem State.setGroup_overCap (s : State) (k g : Nat) (x : Group) : (s.setGroup k g x).overCap = s.overCap := rfl
@[simp] theorem State.setGroup_sites (s : State) (k g : Nat) (x : Group) : (s.setGroup k g x).sites = s.sites := rfl
@[simp] theorem State.setGroup_winLog (s : State) (k g : Nat) (x : Group) : (s.setGroup k g x).winLog = s.winLog := rfl
@[simp] theorem State.setGroup_life (s : State) (k g : Nat) (x : Group) : (s.setGroup k g x).life = s.life := rfl
@[simp] theorem State.setGroup_ledger (s : State) (k g : Nat) (x : Group) : (s.setGroup k g x).ledger = s.ledger := rfl
@[simp] theorem State.setGroup_floors (s : State) (k g : Nat) (x : Group) : (s.setGroup k g x).floors = s.floors := rfl
@[simp] theorem State.setGroup_retFuse (s : State) (k g : Nat) (x : Group) : (s.setGroup k g x).retFuse = s.retFuse := rfl
@[simp] theorem State.setGroup_trend (s : State) (k g : Nat) (x : Group) : (s.setGroup k g x).trend = s.trend := rfl
@[simp] theorem State.setGroup_timingDays (s : State) (k g : Nat) (x : Group) : (s.setGroup k g x).timingDays = s.timingDays := rfl
@[simp] theorem State.setGroup_traceProd (s : State) (k g : Nat) (x : Group) : (s.setGroup k g x).traceProd = s.traceProd := rfl
@[simp] theorem State.setGroup_traceCons (s : State) (k g : Nat) (x : Group) : (s.setGroup k g x).traceCons = s.traceCons := rfl
@[simp] theorem State.setGroup_traceSeq (s : State) (k g : Nat) (x : Group) : (s.setGroup k g x).traceSeq = s.traceSeq := rfl
@[simp] theorem State.setGroup_traceLoss (s : State) (k g : Nat) (x : Group) : (s.setGroup k g x).traceLoss = s.traceLoss := rfl
@[simp] theorem State.setGroup_watches (s : State) (k g : Nat) (x : Group) : (s.setGroup k g x).watches = s.watches := rfl
@[simp] theorem State.setGroup_tapIr (s : State) (k g : Nat) (x : Group) : (s.setGroup k g x).tapIr = s.tapIr := rfl
@[simp] theorem State.setGroup_tapDr (s : State) (k g : Nat) (x : Group) : (s.setGroup k g x).tapDr = s.tapDr := rfl
@[simp] theorem State.setGroup_keys (s : State) (k g : Nat) (x : Group) : (s.setGroup k g x).keys = s.keys := rfl
@[simp] theorem State.setGroup_triples (s : State) (k g : Nat) (x : Group) : (s.setGroup k g x).triples = s.triples := rfl
@[simp] theorem State.setGroup_spdm (s : State) (k g : Nat) (x : Group) : (s.setGroup k g x).spdm = s.spdm := rfl
@[simp] theorem State.setGroup_aux (s : State) (k g : Nat) (x : Group) : (s.setGroup k g x).aux = s.aux := rfl
@[simp] theorem State.setGroup_vin48 (s : State) (k g : Nat) (x : Group) : (s.setGroup k g x).vin48 = s.vin48 := rfl
@[simp] theorem State.setGroup_refclk (s : State) (k g : Nat) (x : Group) : (s.setGroup k g x).refclk = s.refclk := rfl
@[simp] theorem State.setGroup_powered (s : State) (k g : Nat) (x : Group) : (s.setGroup k g x).powered = s.powered := rfl
@[simp] theorem State.setGroup_ctlReady (s : State) (k g : Nat) (x : Group) : (s.setGroup k g x).ctlReady = s.ctlReady := rfl
@[simp] theorem State.setGroup_hostTraining (s : State) (k g : Nat) (x : Group) : (s.setGroup k g x).hostTraining = s.hostTraining := rfl
@[simp] theorem State.setGroup_hostLost (s : State) (k g : Nat) (x : Group) : (s.setGroup k g x).hostLost = s.hostLost := rfl
@[simp] theorem State.setGroup_throttle (s : State) (k g : Nat) (x : Group) : (s.setGroup k g x).throttle = s.throttle := rfl
@[simp] theorem State.setGroup_thermTrip (s : State) (k g : Nat) (x : Group) : (s.setGroup k g x).thermTrip = s.thermTrip := rfl
@[simp] theorem State.setGroup_alert (s : State) (k g : Nat) (x : Group) : (s.setGroup k g x).alert = s.alert := rfl
@[simp] theorem State.setGroup_currentLimit (s : State) (k g : Nat) (x : Group) : (s.setGroup k g x).currentLimit = s.currentLimit := rfl
@[simp] theorem State.setGroup_safeThermal (s : State) (k g : Nat) (x : Group) : (s.setGroup k g x).safeThermal = s.safeThermal := rfl
@[simp] theorem State.setGroup_hot (s : State) (k g : Nat) (x : Group) : (s.setGroup k g x).hot = s.hot := rfl
@[simp] theorem State.setGroup_starting (s : State) (k g : Nat) (x : Group) : (s.setGroup k g x).starting = s.starting := rfl
@[simp] theorem State.setGroup_failedStart (s : State) (k g : Nat) (x : Group) : (s.setGroup k g x).failedStart = s.failedStart := rfl
@[simp] theorem State.setGroup_warmFails (s : State) (k g : Nat) (x : Group) : (s.setGroup k g x).warmFails = s.warmFails := rfl
@[simp] theorem State.setGroup_fetchStop (s : State) (k g : Nat) (x : Group) : (s.setGroup k g x).fetchStop = s.fetchStop := rfl
@[simp] theorem State.setGroup_identifyEnds (s : State) (k g : Nat) (x : Group) : (s.setGroup k g x).identifyEnds = s.identifyEnds := rfl
@[simp] theorem State.setGroup_latchTimer (s : State) (k g : Nat) (x : Group) : (s.setGroup k g x).latchTimer = s.latchTimer := rfl
@[simp] theorem State.setGroup_latchStop (s : State) (k g : Nat) (x : Group) : (s.setGroup k g x).latchStop = s.latchStop := rfl
@[simp] theorem State.setGroup_teardowns (s : State) (k g : Nat) (x : Group) : (s.setGroup k g x).teardowns = s.teardowns := rfl

/-! ### State.setBlock -/

@[simp] theorem State.setBlock_pending (s : State) (k b : Nat) (x : Block) : (s.setBlock k b x).pending = s.pending := rfl
@[simp] theorem State.setBlock_admitted (s : State) (k b : Nat) (x : Block) : (s.setBlock k b x).admitted = s.admitted := rfl
@[simp] theorem State.setBlock_layout (s : State) (k b : Nat) (x : Block) : (s.setBlock k b x).layout = s.layout := rfl
@[simp] theorem State.setBlock_hostTables (s : State) (k b : Nat) (x : Block) : (s.setBlock k b x).hostTables = s.hostTables := rfl
@[simp] theorem State.setBlock_tapRsp (s : State) (k b : Nat) (x : Block) : (s.setBlock k b x).tapRsp = s.tapRsp := rfl
@[simp] theorem State.setBlock_vers (s : State) (k b : Nat) (x : Block) : (s.setBlock k b x).vers = s.vers := rfl
@[simp] theorem State.setBlock_now (s : State) (k b : Nat) (x : Block) : (s.setBlock k b x).now = s.now := rfl
@[simp] theorem State.setBlock_timeZero (s : State) (k b : Nat) (x : Block) : (s.setBlock k b x).timeZero = s.timeZero := rfl
@[simp] theorem State.setBlock_free (s : State) (k b : Nat) (x : Block) : (s.setBlock k b x).free = s.free := rfl
@[simp] theorem State.setBlock_obj (s : State) (k b : Nat) (x : Block) : (s.setBlock k b x).obj = s.obj := rfl
@[simp] theorem State.setBlock_out (s : State) (k b : Nat) (x : Block) : (s.setBlock k b x).out = s.out := rfl
@[simp] theorem State.setBlock_sess (s : State) (k b : Nat) (x : Block) : (s.setBlock k b x).sess = s.sess := rfl
@[simp] theorem State.setBlock_sids (s : State) (k b : Nat) (x : Block) : (s.setBlock k b x).sids = s.sids := rfl
@[simp] theorem State.setBlock_fails (s : State) (k b : Nat) (x : Block) : (s.setBlock k b x).fails = s.fails := rfl
@[simp] theorem State.setBlock_locks (s : State) (k b : Nat) (x : Block) : (s.setBlock k b x).locks = s.locks := rfl
@[simp] theorem State.setBlock_subs (s : State) (k b : Nat) (x : Block) : (s.setBlock k b x).subs = s.subs := rfl
@[simp] theorem State.setBlock_nextSub (s : State) (k b : Nat) (x : Block) : (s.setBlock k b x).nextSub = s.nextSub := rfl
@[simp] theorem State.setBlock_mbx (s : State) (k b : Nat) (x : Block) : (s.setBlock k b x).mbx = s.mbx := rfl
@[simp] theorem State.setBlock_flash (s : State) (k b : Nat) (x : Block) : (s.setBlock k b x).flash = s.flash := rfl
@[simp] theorem State.setBlock_seqs (s : State) (k b : Nat) (x : Block) : (s.setBlock k b x).seqs = s.seqs := rfl
@[simp] theorem State.setBlock_arrays (s : State) (k b : Nat) (x : Block) : (s.setBlock k b x).arrays = s.arrays := rfl
@[simp] theorem State.setBlock_tables (s : State) (k b : Nat) (x : Block) : (s.setBlock k b x).tables = s.tables := rfl
@[simp] theorem State.setBlock_groups (s : State) (k b : Nat) (x : Block) : (s.setBlock k b x).groups = s.groups := rfl
@[simp] theorem State.setBlock_blocks (s : State) (k b : Nat) (x : Block) : (s.setBlock k b x).blocks = Tbl.set s.blocks (16 * k + b) x := rfl
@[simp] theorem State.setBlock_cores (s : State) (k b : Nat) (x : Block) : (s.setBlock k b x).cores = s.cores := rfl
@[simp] theorem State.setBlock_l1d (s : State) (k b : Nat) (x : Block) : (s.setBlock k b x).l1d = s.l1d := rfl
@[simp] theorem State.setBlock_l1i (s : State) (k b : Nat) (x : Block) : (s.setBlock k b x).l1i = s.l1i := rfl
@[simp] theorem State.setBlock_dc (s : State) (k b : Nat) (x : Block) : (s.setBlock k b x).dc = s.dc := rfl
@[simp] theorem State.setBlock_victim (s : State) (k b : Nat) (x : Block) : (s.setBlock k b x).victim = s.victim := rfl
@[simp] theorem State.setBlock_reclaim (s : State) (k b : Nat) (x : Block) : (s.setBlock k b x).reclaim = s.reclaim := rfl
@[simp] theorem State.setBlock_dup (s : State) (k b : Nat) (x : Block) : (s.setBlock k b x).dup = s.dup := rfl
@[simp] theorem State.setBlock_tx (s : State) (k b : Nat) (x : Block) : (s.setBlock k b x).tx = s.tx := rfl
@[simp] theorem State.setBlock_txq (s : State) (k b : Nat) (x : Block) : (s.setBlock k b x).txq = s.txq := rfl
@[simp] theorem State.setBlock_lattice (s : State) (k b : Nat) (x : Block) : (s.setBlock k b x).lattice = s.lattice := rfl
@[simp] theorem State.setBlock_hlocks (s : State) (k b : Nat) (x : Block) : (s.setBlock k b x).hlocks = s.hlocks := rfl
@[simp] theorem State.setBlock_hbm (s : State) (k b : Nat) (x : Block) : (s.setBlock k b x).hbm = s.hbm := rfl
@[simp] theorem State.setBlock_poison (s : State) (k b : Nat) (x : Block) : (s.setBlock k b x).poison = s.poison := rfl
@[simp] theorem State.setBlock_host (s : State) (k b : Nat) (x : Block) : (s.setBlock k b x).host = s.host := rfl
@[simp] theorem State.setBlock_chan (s : State) (k b : Nat) (x : Block) : (s.setBlock k b x).chan = s.chan := rfl
@[simp] theorem State.setBlock_ramp (s : State) (k b : Nat) (x : Block) : (s.setBlock k b x).ramp = s.ramp := rfl
@[simp] theorem State.setBlock_buckets (s : State) (k b : Nat) (x : Block) : (s.setBlock k b x).buckets = s.buckets := rfl
@[simp] theorem State.setBlock_bucketAt (s : State) (k b : Nat) (x : Block) : (s.setBlock k b x).bucketAt = s.bucketAt := rfl
@[simp] theorem State.setBlock_bucketQ (s : State) (k b : Nat) (x : Block) : (s.setBlock k b x).bucketQ = s.bucketQ := rfl
@[simp] theorem State.setBlock_train (s : State) (k b : Nat) (x : Block) : (s.setBlock k b x).train = s.train := rfl
@[simp] theorem State.setBlock_tlbs (s : State) (k b : Nat) (x : Block) : (s.setBlock k b x).tlbs = s.tlbs := rfl
@[simp] theorem State.setBlock_walks (s : State) (k b : Nat) (x : Block) : (s.setBlock k b x).walks = s.walks := rfl
@[simp] theorem State.setBlock_faults (s : State) (k b : Nat) (x : Block) : (s.setBlock k b x).faults = s.faults := rfl
@[simp] theorem State.setBlock_gens (s : State) (k b : Nat) (x : Block) : (s.setBlock k b x).gens = s.gens := rfl
@[simp] theorem State.setBlock_ctxs (s : State) (k b : Nat) (x : Block) : (s.setBlock k b x).ctxs = s.ctxs := rfl
@[simp] theorem State.setBlock_mems (s : State) (k b : Nat) (x : Block) : (s.setBlock k b x).mems = s.mems := rfl
@[simp] theorem State.setBlock_sigs (s : State) (k b : Nat) (x : Block) : (s.setBlock k b x).sigs = s.sigs := rfl
@[simp] theorem State.setBlock_arcs (s : State) (k b : Nat) (x : Block) : (s.setBlock k b x).arcs = s.arcs := rfl
@[simp] theorem State.setBlock_rings (s : State) (k b : Nat) (x : Block) : (s.setBlock k b x).rings = s.rings := rfl
@[simp] theorem State.setBlock_ctls (s : State) (k b : Nat) (x : Block) : (s.setBlock k b x).ctls = s.ctls := rfl
@[simp] theorem State.setBlock_peers (s : State) (k b : Nat) (x : Block) : (s.setBlock k b x).peers = s.peers := rfl
@[simp] theorem State.setBlock_parkq (s : State) (k b : Nat) (x : Block) : (s.setBlock k b x).parkq = s.parkq := rfl
@[simp] theorem State.setBlock_watch (s : State) (k b : Nat) (x : Block) : (s.setBlock k b x).watch = s.watch := rfl
@[simp] theorem State.setBlock_sigAdds (s : State) (k b : Nat) (x : Block) : (s.setBlock k b x).sigAdds = s.sigAdds := rfl
@[simp] theorem State.setBlock_addHandle (s : State) (k b : Nat) (x : Block) : (s.setBlock k b x).addHandle = s.addHandle := rfl
@[simp] theorem State.setBlock_rejects (s : State) (k b : Nat) (x : Block) : (s.setBlock k b x).rejects = s.rejects := rfl
@[simp] theorem State.setBlock_chords (s : State) (k b : Nat) (x : Block) : (s.setBlock k b x).chords = s.chords := rfl
@[simp] theorem State.setBlock_links (s : State) (k b : Nat) (x : Block) : (s.setBlock k b x).links = s.links := rfl
@[simp] theorem State.setBlock_clusters (s : State) (k b : Nat) (x : Block) : (s.setBlock k b x).clusters = s.clusters := rfl
@[simp] theorem State.setBlock_duty (s : State) (k b : Nat) (x : Block) : (s.setBlock k b x).duty = s.duty := rfl
@[simp] theorem State.setBlock_grants (s : State) (k b : Nat) (x : Block) : (s.setBlock k b x).grants = s.grants := rfl
@[simp] theorem State.setBlock_powerAt (s : State) (k b : Nat) (x : Block) : (s.setBlock k b x).powerAt = s.powerAt := rfl
@[simp] theorem State.setBlock_overCap (s : State) (k b : Nat) (x : Block) : (s.setBlock k b x).overCap = s.overCap := rfl
@[simp] theorem State.setBlock_sites (s : State) (k b : Nat) (x : Block) : (s.setBlock k b x).sites = s.sites := rfl
@[simp] theorem State.setBlock_winLog (s : State) (k b : Nat) (x : Block) : (s.setBlock k b x).winLog = s.winLog := rfl
@[simp] theorem State.setBlock_life (s : State) (k b : Nat) (x : Block) : (s.setBlock k b x).life = s.life := rfl
@[simp] theorem State.setBlock_ledger (s : State) (k b : Nat) (x : Block) : (s.setBlock k b x).ledger = s.ledger := rfl
@[simp] theorem State.setBlock_floors (s : State) (k b : Nat) (x : Block) : (s.setBlock k b x).floors = s.floors := rfl
@[simp] theorem State.setBlock_retFuse (s : State) (k b : Nat) (x : Block) : (s.setBlock k b x).retFuse = s.retFuse := rfl
@[simp] theorem State.setBlock_trend (s : State) (k b : Nat) (x : Block) : (s.setBlock k b x).trend = s.trend := rfl
@[simp] theorem State.setBlock_timingDays (s : State) (k b : Nat) (x : Block) : (s.setBlock k b x).timingDays = s.timingDays := rfl
@[simp] theorem State.setBlock_traceProd (s : State) (k b : Nat) (x : Block) : (s.setBlock k b x).traceProd = s.traceProd := rfl
@[simp] theorem State.setBlock_traceCons (s : State) (k b : Nat) (x : Block) : (s.setBlock k b x).traceCons = s.traceCons := rfl
@[simp] theorem State.setBlock_traceSeq (s : State) (k b : Nat) (x : Block) : (s.setBlock k b x).traceSeq = s.traceSeq := rfl
@[simp] theorem State.setBlock_traceLoss (s : State) (k b : Nat) (x : Block) : (s.setBlock k b x).traceLoss = s.traceLoss := rfl
@[simp] theorem State.setBlock_watches (s : State) (k b : Nat) (x : Block) : (s.setBlock k b x).watches = s.watches := rfl
@[simp] theorem State.setBlock_tapIr (s : State) (k b : Nat) (x : Block) : (s.setBlock k b x).tapIr = s.tapIr := rfl
@[simp] theorem State.setBlock_tapDr (s : State) (k b : Nat) (x : Block) : (s.setBlock k b x).tapDr = s.tapDr := rfl
@[simp] theorem State.setBlock_keys (s : State) (k b : Nat) (x : Block) : (s.setBlock k b x).keys = s.keys := rfl
@[simp] theorem State.setBlock_triples (s : State) (k b : Nat) (x : Block) : (s.setBlock k b x).triples = s.triples := rfl
@[simp] theorem State.setBlock_spdm (s : State) (k b : Nat) (x : Block) : (s.setBlock k b x).spdm = s.spdm := rfl
@[simp] theorem State.setBlock_aux (s : State) (k b : Nat) (x : Block) : (s.setBlock k b x).aux = s.aux := rfl
@[simp] theorem State.setBlock_vin48 (s : State) (k b : Nat) (x : Block) : (s.setBlock k b x).vin48 = s.vin48 := rfl
@[simp] theorem State.setBlock_refclk (s : State) (k b : Nat) (x : Block) : (s.setBlock k b x).refclk = s.refclk := rfl
@[simp] theorem State.setBlock_powered (s : State) (k b : Nat) (x : Block) : (s.setBlock k b x).powered = s.powered := rfl
@[simp] theorem State.setBlock_ctlReady (s : State) (k b : Nat) (x : Block) : (s.setBlock k b x).ctlReady = s.ctlReady := rfl
@[simp] theorem State.setBlock_hostTraining (s : State) (k b : Nat) (x : Block) : (s.setBlock k b x).hostTraining = s.hostTraining := rfl
@[simp] theorem State.setBlock_hostLost (s : State) (k b : Nat) (x : Block) : (s.setBlock k b x).hostLost = s.hostLost := rfl
@[simp] theorem State.setBlock_throttle (s : State) (k b : Nat) (x : Block) : (s.setBlock k b x).throttle = s.throttle := rfl
@[simp] theorem State.setBlock_thermTrip (s : State) (k b : Nat) (x : Block) : (s.setBlock k b x).thermTrip = s.thermTrip := rfl
@[simp] theorem State.setBlock_alert (s : State) (k b : Nat) (x : Block) : (s.setBlock k b x).alert = s.alert := rfl
@[simp] theorem State.setBlock_currentLimit (s : State) (k b : Nat) (x : Block) : (s.setBlock k b x).currentLimit = s.currentLimit := rfl
@[simp] theorem State.setBlock_safeThermal (s : State) (k b : Nat) (x : Block) : (s.setBlock k b x).safeThermal = s.safeThermal := rfl
@[simp] theorem State.setBlock_hot (s : State) (k b : Nat) (x : Block) : (s.setBlock k b x).hot = s.hot := rfl
@[simp] theorem State.setBlock_starting (s : State) (k b : Nat) (x : Block) : (s.setBlock k b x).starting = s.starting := rfl
@[simp] theorem State.setBlock_failedStart (s : State) (k b : Nat) (x : Block) : (s.setBlock k b x).failedStart = s.failedStart := rfl
@[simp] theorem State.setBlock_warmFails (s : State) (k b : Nat) (x : Block) : (s.setBlock k b x).warmFails = s.warmFails := rfl
@[simp] theorem State.setBlock_fetchStop (s : State) (k b : Nat) (x : Block) : (s.setBlock k b x).fetchStop = s.fetchStop := rfl
@[simp] theorem State.setBlock_identifyEnds (s : State) (k b : Nat) (x : Block) : (s.setBlock k b x).identifyEnds = s.identifyEnds := rfl
@[simp] theorem State.setBlock_latchTimer (s : State) (k b : Nat) (x : Block) : (s.setBlock k b x).latchTimer = s.latchTimer := rfl
@[simp] theorem State.setBlock_latchStop (s : State) (k b : Nat) (x : Block) : (s.setBlock k b x).latchStop = s.latchStop := rfl
@[simp] theorem State.setBlock_teardowns (s : State) (k b : Nat) (x : Block) : (s.setBlock k b x).teardowns = s.teardowns := rfl

/-! ### State.setArray -/

@[simp] theorem State.setArray_pending (s : State) (a : Nat) (x : ArrayU) : (s.setArray a x).pending = s.pending := rfl
@[simp] theorem State.setArray_admitted (s : State) (a : Nat) (x : ArrayU) : (s.setArray a x).admitted = s.admitted := rfl
@[simp] theorem State.setArray_layout (s : State) (a : Nat) (x : ArrayU) : (s.setArray a x).layout = s.layout := rfl
@[simp] theorem State.setArray_hostTables (s : State) (a : Nat) (x : ArrayU) : (s.setArray a x).hostTables = s.hostTables := rfl
@[simp] theorem State.setArray_tapRsp (s : State) (a : Nat) (x : ArrayU) : (s.setArray a x).tapRsp = s.tapRsp := rfl
@[simp] theorem State.setArray_vers (s : State) (a : Nat) (x : ArrayU) : (s.setArray a x).vers = s.vers := rfl
@[simp] theorem State.setArray_now (s : State) (a : Nat) (x : ArrayU) : (s.setArray a x).now = s.now := rfl
@[simp] theorem State.setArray_timeZero (s : State) (a : Nat) (x : ArrayU) : (s.setArray a x).timeZero = s.timeZero := rfl
@[simp] theorem State.setArray_free (s : State) (a : Nat) (x : ArrayU) : (s.setArray a x).free = s.free := rfl
@[simp] theorem State.setArray_obj (s : State) (a : Nat) (x : ArrayU) : (s.setArray a x).obj = s.obj := rfl
@[simp] theorem State.setArray_out (s : State) (a : Nat) (x : ArrayU) : (s.setArray a x).out = s.out := rfl
@[simp] theorem State.setArray_sess (s : State) (a : Nat) (x : ArrayU) : (s.setArray a x).sess = s.sess := rfl
@[simp] theorem State.setArray_sids (s : State) (a : Nat) (x : ArrayU) : (s.setArray a x).sids = s.sids := rfl
@[simp] theorem State.setArray_fails (s : State) (a : Nat) (x : ArrayU) : (s.setArray a x).fails = s.fails := rfl
@[simp] theorem State.setArray_locks (s : State) (a : Nat) (x : ArrayU) : (s.setArray a x).locks = s.locks := rfl
@[simp] theorem State.setArray_subs (s : State) (a : Nat) (x : ArrayU) : (s.setArray a x).subs = s.subs := rfl
@[simp] theorem State.setArray_nextSub (s : State) (a : Nat) (x : ArrayU) : (s.setArray a x).nextSub = s.nextSub := rfl
@[simp] theorem State.setArray_mbx (s : State) (a : Nat) (x : ArrayU) : (s.setArray a x).mbx = s.mbx := rfl
@[simp] theorem State.setArray_flash (s : State) (a : Nat) (x : ArrayU) : (s.setArray a x).flash = s.flash := rfl
@[simp] theorem State.setArray_seqs (s : State) (a : Nat) (x : ArrayU) : (s.setArray a x).seqs = s.seqs := rfl
@[simp] theorem State.setArray_arrays (s : State) (a : Nat) (x : ArrayU) : (s.setArray a x).arrays = Tbl.set s.arrays a x := rfl
@[simp] theorem State.setArray_tables (s : State) (a : Nat) (x : ArrayU) : (s.setArray a x).tables = s.tables := rfl
@[simp] theorem State.setArray_groups (s : State) (a : Nat) (x : ArrayU) : (s.setArray a x).groups = s.groups := rfl
@[simp] theorem State.setArray_blocks (s : State) (a : Nat) (x : ArrayU) : (s.setArray a x).blocks = s.blocks := rfl
@[simp] theorem State.setArray_cores (s : State) (a : Nat) (x : ArrayU) : (s.setArray a x).cores = s.cores := rfl
@[simp] theorem State.setArray_l1d (s : State) (a : Nat) (x : ArrayU) : (s.setArray a x).l1d = s.l1d := rfl
@[simp] theorem State.setArray_l1i (s : State) (a : Nat) (x : ArrayU) : (s.setArray a x).l1i = s.l1i := rfl
@[simp] theorem State.setArray_dc (s : State) (a : Nat) (x : ArrayU) : (s.setArray a x).dc = s.dc := rfl
@[simp] theorem State.setArray_victim (s : State) (a : Nat) (x : ArrayU) : (s.setArray a x).victim = s.victim := rfl
@[simp] theorem State.setArray_reclaim (s : State) (a : Nat) (x : ArrayU) : (s.setArray a x).reclaim = s.reclaim := rfl
@[simp] theorem State.setArray_dup (s : State) (a : Nat) (x : ArrayU) : (s.setArray a x).dup = s.dup := rfl
@[simp] theorem State.setArray_tx (s : State) (a : Nat) (x : ArrayU) : (s.setArray a x).tx = s.tx := rfl
@[simp] theorem State.setArray_txq (s : State) (a : Nat) (x : ArrayU) : (s.setArray a x).txq = s.txq := rfl
@[simp] theorem State.setArray_lattice (s : State) (a : Nat) (x : ArrayU) : (s.setArray a x).lattice = s.lattice := rfl
@[simp] theorem State.setArray_hlocks (s : State) (a : Nat) (x : ArrayU) : (s.setArray a x).hlocks = s.hlocks := rfl
@[simp] theorem State.setArray_hbm (s : State) (a : Nat) (x : ArrayU) : (s.setArray a x).hbm = s.hbm := rfl
@[simp] theorem State.setArray_poison (s : State) (a : Nat) (x : ArrayU) : (s.setArray a x).poison = s.poison := rfl
@[simp] theorem State.setArray_host (s : State) (a : Nat) (x : ArrayU) : (s.setArray a x).host = s.host := rfl
@[simp] theorem State.setArray_chan (s : State) (a : Nat) (x : ArrayU) : (s.setArray a x).chan = s.chan := rfl
@[simp] theorem State.setArray_ramp (s : State) (a : Nat) (x : ArrayU) : (s.setArray a x).ramp = s.ramp := rfl
@[simp] theorem State.setArray_buckets (s : State) (a : Nat) (x : ArrayU) : (s.setArray a x).buckets = s.buckets := rfl
@[simp] theorem State.setArray_bucketAt (s : State) (a : Nat) (x : ArrayU) : (s.setArray a x).bucketAt = s.bucketAt := rfl
@[simp] theorem State.setArray_bucketQ (s : State) (a : Nat) (x : ArrayU) : (s.setArray a x).bucketQ = s.bucketQ := rfl
@[simp] theorem State.setArray_train (s : State) (a : Nat) (x : ArrayU) : (s.setArray a x).train = s.train := rfl
@[simp] theorem State.setArray_tlbs (s : State) (a : Nat) (x : ArrayU) : (s.setArray a x).tlbs = s.tlbs := rfl
@[simp] theorem State.setArray_walks (s : State) (a : Nat) (x : ArrayU) : (s.setArray a x).walks = s.walks := rfl
@[simp] theorem State.setArray_faults (s : State) (a : Nat) (x : ArrayU) : (s.setArray a x).faults = s.faults := rfl
@[simp] theorem State.setArray_gens (s : State) (a : Nat) (x : ArrayU) : (s.setArray a x).gens = s.gens := rfl
@[simp] theorem State.setArray_ctxs (s : State) (a : Nat) (x : ArrayU) : (s.setArray a x).ctxs = s.ctxs := rfl
@[simp] theorem State.setArray_mems (s : State) (a : Nat) (x : ArrayU) : (s.setArray a x).mems = s.mems := rfl
@[simp] theorem State.setArray_sigs (s : State) (a : Nat) (x : ArrayU) : (s.setArray a x).sigs = s.sigs := rfl
@[simp] theorem State.setArray_arcs (s : State) (a : Nat) (x : ArrayU) : (s.setArray a x).arcs = s.arcs := rfl
@[simp] theorem State.setArray_rings (s : State) (a : Nat) (x : ArrayU) : (s.setArray a x).rings = s.rings := rfl
@[simp] theorem State.setArray_ctls (s : State) (a : Nat) (x : ArrayU) : (s.setArray a x).ctls = s.ctls := rfl
@[simp] theorem State.setArray_peers (s : State) (a : Nat) (x : ArrayU) : (s.setArray a x).peers = s.peers := rfl
@[simp] theorem State.setArray_parkq (s : State) (a : Nat) (x : ArrayU) : (s.setArray a x).parkq = s.parkq := rfl
@[simp] theorem State.setArray_watch (s : State) (a : Nat) (x : ArrayU) : (s.setArray a x).watch = s.watch := rfl
@[simp] theorem State.setArray_sigAdds (s : State) (a : Nat) (x : ArrayU) : (s.setArray a x).sigAdds = s.sigAdds := rfl
@[simp] theorem State.setArray_addHandle (s : State) (a : Nat) (x : ArrayU) : (s.setArray a x).addHandle = s.addHandle := rfl
@[simp] theorem State.setArray_rejects (s : State) (a : Nat) (x : ArrayU) : (s.setArray a x).rejects = s.rejects := rfl
@[simp] theorem State.setArray_chords (s : State) (a : Nat) (x : ArrayU) : (s.setArray a x).chords = s.chords := rfl
@[simp] theorem State.setArray_links (s : State) (a : Nat) (x : ArrayU) : (s.setArray a x).links = s.links := rfl
@[simp] theorem State.setArray_clusters (s : State) (a : Nat) (x : ArrayU) : (s.setArray a x).clusters = s.clusters := rfl
@[simp] theorem State.setArray_duty (s : State) (a : Nat) (x : ArrayU) : (s.setArray a x).duty = s.duty := rfl
@[simp] theorem State.setArray_grants (s : State) (a : Nat) (x : ArrayU) : (s.setArray a x).grants = s.grants := rfl
@[simp] theorem State.setArray_powerAt (s : State) (a : Nat) (x : ArrayU) : (s.setArray a x).powerAt = s.powerAt := rfl
@[simp] theorem State.setArray_overCap (s : State) (a : Nat) (x : ArrayU) : (s.setArray a x).overCap = s.overCap := rfl
@[simp] theorem State.setArray_sites (s : State) (a : Nat) (x : ArrayU) : (s.setArray a x).sites = s.sites := rfl
@[simp] theorem State.setArray_winLog (s : State) (a : Nat) (x : ArrayU) : (s.setArray a x).winLog = s.winLog := rfl
@[simp] theorem State.setArray_life (s : State) (a : Nat) (x : ArrayU) : (s.setArray a x).life = s.life := rfl
@[simp] theorem State.setArray_ledger (s : State) (a : Nat) (x : ArrayU) : (s.setArray a x).ledger = s.ledger := rfl
@[simp] theorem State.setArray_floors (s : State) (a : Nat) (x : ArrayU) : (s.setArray a x).floors = s.floors := rfl
@[simp] theorem State.setArray_retFuse (s : State) (a : Nat) (x : ArrayU) : (s.setArray a x).retFuse = s.retFuse := rfl
@[simp] theorem State.setArray_trend (s : State) (a : Nat) (x : ArrayU) : (s.setArray a x).trend = s.trend := rfl
@[simp] theorem State.setArray_timingDays (s : State) (a : Nat) (x : ArrayU) : (s.setArray a x).timingDays = s.timingDays := rfl
@[simp] theorem State.setArray_traceProd (s : State) (a : Nat) (x : ArrayU) : (s.setArray a x).traceProd = s.traceProd := rfl
@[simp] theorem State.setArray_traceCons (s : State) (a : Nat) (x : ArrayU) : (s.setArray a x).traceCons = s.traceCons := rfl
@[simp] theorem State.setArray_traceSeq (s : State) (a : Nat) (x : ArrayU) : (s.setArray a x).traceSeq = s.traceSeq := rfl
@[simp] theorem State.setArray_traceLoss (s : State) (a : Nat) (x : ArrayU) : (s.setArray a x).traceLoss = s.traceLoss := rfl
@[simp] theorem State.setArray_watches (s : State) (a : Nat) (x : ArrayU) : (s.setArray a x).watches = s.watches := rfl
@[simp] theorem State.setArray_tapIr (s : State) (a : Nat) (x : ArrayU) : (s.setArray a x).tapIr = s.tapIr := rfl
@[simp] theorem State.setArray_tapDr (s : State) (a : Nat) (x : ArrayU) : (s.setArray a x).tapDr = s.tapDr := rfl
@[simp] theorem State.setArray_keys (s : State) (a : Nat) (x : ArrayU) : (s.setArray a x).keys = s.keys := rfl
@[simp] theorem State.setArray_triples (s : State) (a : Nat) (x : ArrayU) : (s.setArray a x).triples = s.triples := rfl
@[simp] theorem State.setArray_spdm (s : State) (a : Nat) (x : ArrayU) : (s.setArray a x).spdm = s.spdm := rfl
@[simp] theorem State.setArray_aux (s : State) (a : Nat) (x : ArrayU) : (s.setArray a x).aux = s.aux := rfl
@[simp] theorem State.setArray_vin48 (s : State) (a : Nat) (x : ArrayU) : (s.setArray a x).vin48 = s.vin48 := rfl
@[simp] theorem State.setArray_refclk (s : State) (a : Nat) (x : ArrayU) : (s.setArray a x).refclk = s.refclk := rfl
@[simp] theorem State.setArray_powered (s : State) (a : Nat) (x : ArrayU) : (s.setArray a x).powered = s.powered := rfl
@[simp] theorem State.setArray_ctlReady (s : State) (a : Nat) (x : ArrayU) : (s.setArray a x).ctlReady = s.ctlReady := rfl
@[simp] theorem State.setArray_hostTraining (s : State) (a : Nat) (x : ArrayU) : (s.setArray a x).hostTraining = s.hostTraining := rfl
@[simp] theorem State.setArray_hostLost (s : State) (a : Nat) (x : ArrayU) : (s.setArray a x).hostLost = s.hostLost := rfl
@[simp] theorem State.setArray_throttle (s : State) (a : Nat) (x : ArrayU) : (s.setArray a x).throttle = s.throttle := rfl
@[simp] theorem State.setArray_thermTrip (s : State) (a : Nat) (x : ArrayU) : (s.setArray a x).thermTrip = s.thermTrip := rfl
@[simp] theorem State.setArray_alert (s : State) (a : Nat) (x : ArrayU) : (s.setArray a x).alert = s.alert := rfl
@[simp] theorem State.setArray_currentLimit (s : State) (a : Nat) (x : ArrayU) : (s.setArray a x).currentLimit = s.currentLimit := rfl
@[simp] theorem State.setArray_safeThermal (s : State) (a : Nat) (x : ArrayU) : (s.setArray a x).safeThermal = s.safeThermal := rfl
@[simp] theorem State.setArray_hot (s : State) (a : Nat) (x : ArrayU) : (s.setArray a x).hot = s.hot := rfl
@[simp] theorem State.setArray_starting (s : State) (a : Nat) (x : ArrayU) : (s.setArray a x).starting = s.starting := rfl
@[simp] theorem State.setArray_failedStart (s : State) (a : Nat) (x : ArrayU) : (s.setArray a x).failedStart = s.failedStart := rfl
@[simp] theorem State.setArray_warmFails (s : State) (a : Nat) (x : ArrayU) : (s.setArray a x).warmFails = s.warmFails := rfl
@[simp] theorem State.setArray_fetchStop (s : State) (a : Nat) (x : ArrayU) : (s.setArray a x).fetchStop = s.fetchStop := rfl
@[simp] theorem State.setArray_identifyEnds (s : State) (a : Nat) (x : ArrayU) : (s.setArray a x).identifyEnds = s.identifyEnds := rfl
@[simp] theorem State.setArray_latchTimer (s : State) (a : Nat) (x : ArrayU) : (s.setArray a x).latchTimer = s.latchTimer := rfl
@[simp] theorem State.setArray_latchStop (s : State) (a : Nat) (x : ArrayU) : (s.setArray a x).latchStop = s.latchStop := rfl
@[simp] theorem State.setArray_teardowns (s : State) (a : Nat) (x : ArrayU) : (s.setArray a x).teardowns = s.teardowns := rfl

/-! ### State.setLink -/

@[simp] theorem State.setLink_pending (s : State) (l : Nat) (x : Link) : (s.setLink l x).pending = s.pending := rfl
@[simp] theorem State.setLink_admitted (s : State) (l : Nat) (x : Link) : (s.setLink l x).admitted = s.admitted := rfl
@[simp] theorem State.setLink_layout (s : State) (l : Nat) (x : Link) : (s.setLink l x).layout = s.layout := rfl
@[simp] theorem State.setLink_hostTables (s : State) (l : Nat) (x : Link) : (s.setLink l x).hostTables = s.hostTables := rfl
@[simp] theorem State.setLink_tapRsp (s : State) (l : Nat) (x : Link) : (s.setLink l x).tapRsp = s.tapRsp := rfl
@[simp] theorem State.setLink_vers (s : State) (l : Nat) (x : Link) : (s.setLink l x).vers = s.vers := rfl
@[simp] theorem State.setLink_now (s : State) (l : Nat) (x : Link) : (s.setLink l x).now = s.now := rfl
@[simp] theorem State.setLink_timeZero (s : State) (l : Nat) (x : Link) : (s.setLink l x).timeZero = s.timeZero := rfl
@[simp] theorem State.setLink_free (s : State) (l : Nat) (x : Link) : (s.setLink l x).free = s.free := rfl
@[simp] theorem State.setLink_obj (s : State) (l : Nat) (x : Link) : (s.setLink l x).obj = s.obj := rfl
@[simp] theorem State.setLink_out (s : State) (l : Nat) (x : Link) : (s.setLink l x).out = s.out := rfl
@[simp] theorem State.setLink_sess (s : State) (l : Nat) (x : Link) : (s.setLink l x).sess = s.sess := rfl
@[simp] theorem State.setLink_sids (s : State) (l : Nat) (x : Link) : (s.setLink l x).sids = s.sids := rfl
@[simp] theorem State.setLink_fails (s : State) (l : Nat) (x : Link) : (s.setLink l x).fails = s.fails := rfl
@[simp] theorem State.setLink_locks (s : State) (l : Nat) (x : Link) : (s.setLink l x).locks = s.locks := rfl
@[simp] theorem State.setLink_subs (s : State) (l : Nat) (x : Link) : (s.setLink l x).subs = s.subs := rfl
@[simp] theorem State.setLink_nextSub (s : State) (l : Nat) (x : Link) : (s.setLink l x).nextSub = s.nextSub := rfl
@[simp] theorem State.setLink_mbx (s : State) (l : Nat) (x : Link) : (s.setLink l x).mbx = s.mbx := rfl
@[simp] theorem State.setLink_flash (s : State) (l : Nat) (x : Link) : (s.setLink l x).flash = s.flash := rfl
@[simp] theorem State.setLink_seqs (s : State) (l : Nat) (x : Link) : (s.setLink l x).seqs = s.seqs := rfl
@[simp] theorem State.setLink_arrays (s : State) (l : Nat) (x : Link) : (s.setLink l x).arrays = s.arrays := rfl
@[simp] theorem State.setLink_tables (s : State) (l : Nat) (x : Link) : (s.setLink l x).tables = s.tables := rfl
@[simp] theorem State.setLink_groups (s : State) (l : Nat) (x : Link) : (s.setLink l x).groups = s.groups := rfl
@[simp] theorem State.setLink_blocks (s : State) (l : Nat) (x : Link) : (s.setLink l x).blocks = s.blocks := rfl
@[simp] theorem State.setLink_cores (s : State) (l : Nat) (x : Link) : (s.setLink l x).cores = s.cores := rfl
@[simp] theorem State.setLink_l1d (s : State) (l : Nat) (x : Link) : (s.setLink l x).l1d = s.l1d := rfl
@[simp] theorem State.setLink_l1i (s : State) (l : Nat) (x : Link) : (s.setLink l x).l1i = s.l1i := rfl
@[simp] theorem State.setLink_dc (s : State) (l : Nat) (x : Link) : (s.setLink l x).dc = s.dc := rfl
@[simp] theorem State.setLink_victim (s : State) (l : Nat) (x : Link) : (s.setLink l x).victim = s.victim := rfl
@[simp] theorem State.setLink_reclaim (s : State) (l : Nat) (x : Link) : (s.setLink l x).reclaim = s.reclaim := rfl
@[simp] theorem State.setLink_dup (s : State) (l : Nat) (x : Link) : (s.setLink l x).dup = s.dup := rfl
@[simp] theorem State.setLink_tx (s : State) (l : Nat) (x : Link) : (s.setLink l x).tx = s.tx := rfl
@[simp] theorem State.setLink_txq (s : State) (l : Nat) (x : Link) : (s.setLink l x).txq = s.txq := rfl
@[simp] theorem State.setLink_lattice (s : State) (l : Nat) (x : Link) : (s.setLink l x).lattice = s.lattice := rfl
@[simp] theorem State.setLink_hlocks (s : State) (l : Nat) (x : Link) : (s.setLink l x).hlocks = s.hlocks := rfl
@[simp] theorem State.setLink_hbm (s : State) (l : Nat) (x : Link) : (s.setLink l x).hbm = s.hbm := rfl
@[simp] theorem State.setLink_poison (s : State) (l : Nat) (x : Link) : (s.setLink l x).poison = s.poison := rfl
@[simp] theorem State.setLink_host (s : State) (l : Nat) (x : Link) : (s.setLink l x).host = s.host := rfl
@[simp] theorem State.setLink_chan (s : State) (l : Nat) (x : Link) : (s.setLink l x).chan = s.chan := rfl
@[simp] theorem State.setLink_ramp (s : State) (l : Nat) (x : Link) : (s.setLink l x).ramp = s.ramp := rfl
@[simp] theorem State.setLink_buckets (s : State) (l : Nat) (x : Link) : (s.setLink l x).buckets = s.buckets := rfl
@[simp] theorem State.setLink_bucketAt (s : State) (l : Nat) (x : Link) : (s.setLink l x).bucketAt = s.bucketAt := rfl
@[simp] theorem State.setLink_bucketQ (s : State) (l : Nat) (x : Link) : (s.setLink l x).bucketQ = s.bucketQ := rfl
@[simp] theorem State.setLink_train (s : State) (l : Nat) (x : Link) : (s.setLink l x).train = s.train := rfl
@[simp] theorem State.setLink_tlbs (s : State) (l : Nat) (x : Link) : (s.setLink l x).tlbs = s.tlbs := rfl
@[simp] theorem State.setLink_walks (s : State) (l : Nat) (x : Link) : (s.setLink l x).walks = s.walks := rfl
@[simp] theorem State.setLink_faults (s : State) (l : Nat) (x : Link) : (s.setLink l x).faults = s.faults := rfl
@[simp] theorem State.setLink_gens (s : State) (l : Nat) (x : Link) : (s.setLink l x).gens = s.gens := rfl
@[simp] theorem State.setLink_ctxs (s : State) (l : Nat) (x : Link) : (s.setLink l x).ctxs = s.ctxs := rfl
@[simp] theorem State.setLink_mems (s : State) (l : Nat) (x : Link) : (s.setLink l x).mems = s.mems := rfl
@[simp] theorem State.setLink_sigs (s : State) (l : Nat) (x : Link) : (s.setLink l x).sigs = s.sigs := rfl
@[simp] theorem State.setLink_arcs (s : State) (l : Nat) (x : Link) : (s.setLink l x).arcs = s.arcs := rfl
@[simp] theorem State.setLink_rings (s : State) (l : Nat) (x : Link) : (s.setLink l x).rings = s.rings := rfl
@[simp] theorem State.setLink_ctls (s : State) (l : Nat) (x : Link) : (s.setLink l x).ctls = s.ctls := rfl
@[simp] theorem State.setLink_peers (s : State) (l : Nat) (x : Link) : (s.setLink l x).peers = s.peers := rfl
@[simp] theorem State.setLink_parkq (s : State) (l : Nat) (x : Link) : (s.setLink l x).parkq = s.parkq := rfl
@[simp] theorem State.setLink_watch (s : State) (l : Nat) (x : Link) : (s.setLink l x).watch = s.watch := rfl
@[simp] theorem State.setLink_sigAdds (s : State) (l : Nat) (x : Link) : (s.setLink l x).sigAdds = s.sigAdds := rfl
@[simp] theorem State.setLink_addHandle (s : State) (l : Nat) (x : Link) : (s.setLink l x).addHandle = s.addHandle := rfl
@[simp] theorem State.setLink_rejects (s : State) (l : Nat) (x : Link) : (s.setLink l x).rejects = s.rejects := rfl
@[simp] theorem State.setLink_chords (s : State) (l : Nat) (x : Link) : (s.setLink l x).chords = s.chords := rfl
@[simp] theorem State.setLink_links (s : State) (l : Nat) (x : Link) : (s.setLink l x).links = Tbl.set s.links l x := rfl
@[simp] theorem State.setLink_clusters (s : State) (l : Nat) (x : Link) : (s.setLink l x).clusters = s.clusters := rfl
@[simp] theorem State.setLink_duty (s : State) (l : Nat) (x : Link) : (s.setLink l x).duty = s.duty := rfl
@[simp] theorem State.setLink_grants (s : State) (l : Nat) (x : Link) : (s.setLink l x).grants = s.grants := rfl
@[simp] theorem State.setLink_powerAt (s : State) (l : Nat) (x : Link) : (s.setLink l x).powerAt = s.powerAt := rfl
@[simp] theorem State.setLink_overCap (s : State) (l : Nat) (x : Link) : (s.setLink l x).overCap = s.overCap := rfl
@[simp] theorem State.setLink_sites (s : State) (l : Nat) (x : Link) : (s.setLink l x).sites = s.sites := rfl
@[simp] theorem State.setLink_winLog (s : State) (l : Nat) (x : Link) : (s.setLink l x).winLog = s.winLog := rfl
@[simp] theorem State.setLink_life (s : State) (l : Nat) (x : Link) : (s.setLink l x).life = s.life := rfl
@[simp] theorem State.setLink_ledger (s : State) (l : Nat) (x : Link) : (s.setLink l x).ledger = s.ledger := rfl
@[simp] theorem State.setLink_floors (s : State) (l : Nat) (x : Link) : (s.setLink l x).floors = s.floors := rfl
@[simp] theorem State.setLink_retFuse (s : State) (l : Nat) (x : Link) : (s.setLink l x).retFuse = s.retFuse := rfl
@[simp] theorem State.setLink_trend (s : State) (l : Nat) (x : Link) : (s.setLink l x).trend = s.trend := rfl
@[simp] theorem State.setLink_timingDays (s : State) (l : Nat) (x : Link) : (s.setLink l x).timingDays = s.timingDays := rfl
@[simp] theorem State.setLink_traceProd (s : State) (l : Nat) (x : Link) : (s.setLink l x).traceProd = s.traceProd := rfl
@[simp] theorem State.setLink_traceCons (s : State) (l : Nat) (x : Link) : (s.setLink l x).traceCons = s.traceCons := rfl
@[simp] theorem State.setLink_traceSeq (s : State) (l : Nat) (x : Link) : (s.setLink l x).traceSeq = s.traceSeq := rfl
@[simp] theorem State.setLink_traceLoss (s : State) (l : Nat) (x : Link) : (s.setLink l x).traceLoss = s.traceLoss := rfl
@[simp] theorem State.setLink_watches (s : State) (l : Nat) (x : Link) : (s.setLink l x).watches = s.watches := rfl
@[simp] theorem State.setLink_tapIr (s : State) (l : Nat) (x : Link) : (s.setLink l x).tapIr = s.tapIr := rfl
@[simp] theorem State.setLink_tapDr (s : State) (l : Nat) (x : Link) : (s.setLink l x).tapDr = s.tapDr := rfl
@[simp] theorem State.setLink_keys (s : State) (l : Nat) (x : Link) : (s.setLink l x).keys = s.keys := rfl
@[simp] theorem State.setLink_triples (s : State) (l : Nat) (x : Link) : (s.setLink l x).triples = s.triples := rfl
@[simp] theorem State.setLink_spdm (s : State) (l : Nat) (x : Link) : (s.setLink l x).spdm = s.spdm := rfl
@[simp] theorem State.setLink_aux (s : State) (l : Nat) (x : Link) : (s.setLink l x).aux = s.aux := rfl
@[simp] theorem State.setLink_vin48 (s : State) (l : Nat) (x : Link) : (s.setLink l x).vin48 = s.vin48 := rfl
@[simp] theorem State.setLink_refclk (s : State) (l : Nat) (x : Link) : (s.setLink l x).refclk = s.refclk := rfl
@[simp] theorem State.setLink_powered (s : State) (l : Nat) (x : Link) : (s.setLink l x).powered = s.powered := rfl
@[simp] theorem State.setLink_ctlReady (s : State) (l : Nat) (x : Link) : (s.setLink l x).ctlReady = s.ctlReady := rfl
@[simp] theorem State.setLink_hostTraining (s : State) (l : Nat) (x : Link) : (s.setLink l x).hostTraining = s.hostTraining := rfl
@[simp] theorem State.setLink_hostLost (s : State) (l : Nat) (x : Link) : (s.setLink l x).hostLost = s.hostLost := rfl
@[simp] theorem State.setLink_throttle (s : State) (l : Nat) (x : Link) : (s.setLink l x).throttle = s.throttle := rfl
@[simp] theorem State.setLink_thermTrip (s : State) (l : Nat) (x : Link) : (s.setLink l x).thermTrip = s.thermTrip := rfl
@[simp] theorem State.setLink_alert (s : State) (l : Nat) (x : Link) : (s.setLink l x).alert = s.alert := rfl
@[simp] theorem State.setLink_currentLimit (s : State) (l : Nat) (x : Link) : (s.setLink l x).currentLimit = s.currentLimit := rfl
@[simp] theorem State.setLink_safeThermal (s : State) (l : Nat) (x : Link) : (s.setLink l x).safeThermal = s.safeThermal := rfl
@[simp] theorem State.setLink_hot (s : State) (l : Nat) (x : Link) : (s.setLink l x).hot = s.hot := rfl
@[simp] theorem State.setLink_starting (s : State) (l : Nat) (x : Link) : (s.setLink l x).starting = s.starting := rfl
@[simp] theorem State.setLink_failedStart (s : State) (l : Nat) (x : Link) : (s.setLink l x).failedStart = s.failedStart := rfl
@[simp] theorem State.setLink_warmFails (s : State) (l : Nat) (x : Link) : (s.setLink l x).warmFails = s.warmFails := rfl
@[simp] theorem State.setLink_fetchStop (s : State) (l : Nat) (x : Link) : (s.setLink l x).fetchStop = s.fetchStop := rfl
@[simp] theorem State.setLink_identifyEnds (s : State) (l : Nat) (x : Link) : (s.setLink l x).identifyEnds = s.identifyEnds := rfl
@[simp] theorem State.setLink_latchTimer (s : State) (l : Nat) (x : Link) : (s.setLink l x).latchTimer = s.latchTimer := rfl
@[simp] theorem State.setLink_latchStop (s : State) (l : Nat) (x : Link) : (s.setLink l x).latchStop = s.latchStop := rfl
@[simp] theorem State.setLink_teardowns (s : State) (l : Nat) (x : Link) : (s.setLink l x).teardowns = s.teardowns := rfl

/-! ### State.setCluster -/

@[simp] theorem State.setCluster_pending (s : State) (c : Nat) (u : ClusterU) : (s.setCluster c u).pending = s.pending := rfl
@[simp] theorem State.setCluster_admitted (s : State) (c : Nat) (u : ClusterU) : (s.setCluster c u).admitted = s.admitted := rfl
@[simp] theorem State.setCluster_layout (s : State) (c : Nat) (u : ClusterU) : (s.setCluster c u).layout = s.layout := rfl
@[simp] theorem State.setCluster_hostTables (s : State) (c : Nat) (u : ClusterU) : (s.setCluster c u).hostTables = s.hostTables := rfl
@[simp] theorem State.setCluster_tapRsp (s : State) (c : Nat) (u : ClusterU) : (s.setCluster c u).tapRsp = s.tapRsp := rfl
@[simp] theorem State.setCluster_vers (s : State) (c : Nat) (u : ClusterU) : (s.setCluster c u).vers = s.vers := rfl
@[simp] theorem State.setCluster_now (s : State) (c : Nat) (u : ClusterU) : (s.setCluster c u).now = s.now := rfl
@[simp] theorem State.setCluster_timeZero (s : State) (c : Nat) (u : ClusterU) : (s.setCluster c u).timeZero = s.timeZero := rfl
@[simp] theorem State.setCluster_free (s : State) (c : Nat) (u : ClusterU) : (s.setCluster c u).free = s.free := rfl
@[simp] theorem State.setCluster_obj (s : State) (c : Nat) (u : ClusterU) : (s.setCluster c u).obj = s.obj := rfl
@[simp] theorem State.setCluster_out (s : State) (c : Nat) (u : ClusterU) : (s.setCluster c u).out = s.out := rfl
@[simp] theorem State.setCluster_sess (s : State) (c : Nat) (u : ClusterU) : (s.setCluster c u).sess = s.sess := rfl
@[simp] theorem State.setCluster_sids (s : State) (c : Nat) (u : ClusterU) : (s.setCluster c u).sids = s.sids := rfl
@[simp] theorem State.setCluster_fails (s : State) (c : Nat) (u : ClusterU) : (s.setCluster c u).fails = s.fails := rfl
@[simp] theorem State.setCluster_locks (s : State) (c : Nat) (u : ClusterU) : (s.setCluster c u).locks = s.locks := rfl
@[simp] theorem State.setCluster_subs (s : State) (c : Nat) (u : ClusterU) : (s.setCluster c u).subs = s.subs := rfl
@[simp] theorem State.setCluster_nextSub (s : State) (c : Nat) (u : ClusterU) : (s.setCluster c u).nextSub = s.nextSub := rfl
@[simp] theorem State.setCluster_mbx (s : State) (c : Nat) (u : ClusterU) : (s.setCluster c u).mbx = s.mbx := rfl
@[simp] theorem State.setCluster_flash (s : State) (c : Nat) (u : ClusterU) : (s.setCluster c u).flash = s.flash := rfl
@[simp] theorem State.setCluster_seqs (s : State) (c : Nat) (u : ClusterU) : (s.setCluster c u).seqs = s.seqs := rfl
@[simp] theorem State.setCluster_arrays (s : State) (c : Nat) (u : ClusterU) : (s.setCluster c u).arrays = s.arrays := rfl
@[simp] theorem State.setCluster_tables (s : State) (c : Nat) (u : ClusterU) : (s.setCluster c u).tables = s.tables := rfl
@[simp] theorem State.setCluster_groups (s : State) (c : Nat) (u : ClusterU) : (s.setCluster c u).groups = s.groups := rfl
@[simp] theorem State.setCluster_blocks (s : State) (c : Nat) (u : ClusterU) : (s.setCluster c u).blocks = s.blocks := rfl
@[simp] theorem State.setCluster_cores (s : State) (c : Nat) (u : ClusterU) : (s.setCluster c u).cores = s.cores := rfl
@[simp] theorem State.setCluster_l1d (s : State) (c : Nat) (u : ClusterU) : (s.setCluster c u).l1d = s.l1d := rfl
@[simp] theorem State.setCluster_l1i (s : State) (c : Nat) (u : ClusterU) : (s.setCluster c u).l1i = s.l1i := rfl
@[simp] theorem State.setCluster_dc (s : State) (c : Nat) (u : ClusterU) : (s.setCluster c u).dc = s.dc := rfl
@[simp] theorem State.setCluster_victim (s : State) (c : Nat) (u : ClusterU) : (s.setCluster c u).victim = s.victim := rfl
@[simp] theorem State.setCluster_reclaim (s : State) (c : Nat) (u : ClusterU) : (s.setCluster c u).reclaim = s.reclaim := rfl
@[simp] theorem State.setCluster_dup (s : State) (c : Nat) (u : ClusterU) : (s.setCluster c u).dup = s.dup := rfl
@[simp] theorem State.setCluster_tx (s : State) (c : Nat) (u : ClusterU) : (s.setCluster c u).tx = s.tx := rfl
@[simp] theorem State.setCluster_txq (s : State) (c : Nat) (u : ClusterU) : (s.setCluster c u).txq = s.txq := rfl
@[simp] theorem State.setCluster_lattice (s : State) (c : Nat) (u : ClusterU) : (s.setCluster c u).lattice = s.lattice := rfl
@[simp] theorem State.setCluster_hlocks (s : State) (c : Nat) (u : ClusterU) : (s.setCluster c u).hlocks = s.hlocks := rfl
@[simp] theorem State.setCluster_hbm (s : State) (c : Nat) (u : ClusterU) : (s.setCluster c u).hbm = s.hbm := rfl
@[simp] theorem State.setCluster_poison (s : State) (c : Nat) (u : ClusterU) : (s.setCluster c u).poison = s.poison := rfl
@[simp] theorem State.setCluster_host (s : State) (c : Nat) (u : ClusterU) : (s.setCluster c u).host = s.host := rfl
@[simp] theorem State.setCluster_chan (s : State) (c : Nat) (u : ClusterU) : (s.setCluster c u).chan = s.chan := rfl
@[simp] theorem State.setCluster_ramp (s : State) (c : Nat) (u : ClusterU) : (s.setCluster c u).ramp = s.ramp := rfl
@[simp] theorem State.setCluster_buckets (s : State) (c : Nat) (u : ClusterU) : (s.setCluster c u).buckets = s.buckets := rfl
@[simp] theorem State.setCluster_bucketAt (s : State) (c : Nat) (u : ClusterU) : (s.setCluster c u).bucketAt = s.bucketAt := rfl
@[simp] theorem State.setCluster_bucketQ (s : State) (c : Nat) (u : ClusterU) : (s.setCluster c u).bucketQ = s.bucketQ := rfl
@[simp] theorem State.setCluster_train (s : State) (c : Nat) (u : ClusterU) : (s.setCluster c u).train = s.train := rfl
@[simp] theorem State.setCluster_tlbs (s : State) (c : Nat) (u : ClusterU) : (s.setCluster c u).tlbs = s.tlbs := rfl
@[simp] theorem State.setCluster_walks (s : State) (c : Nat) (u : ClusterU) : (s.setCluster c u).walks = s.walks := rfl
@[simp] theorem State.setCluster_faults (s : State) (c : Nat) (u : ClusterU) : (s.setCluster c u).faults = s.faults := rfl
@[simp] theorem State.setCluster_gens (s : State) (c : Nat) (u : ClusterU) : (s.setCluster c u).gens = s.gens := rfl
@[simp] theorem State.setCluster_ctxs (s : State) (c : Nat) (u : ClusterU) : (s.setCluster c u).ctxs = s.ctxs := rfl
@[simp] theorem State.setCluster_mems (s : State) (c : Nat) (u : ClusterU) : (s.setCluster c u).mems = s.mems := rfl
@[simp] theorem State.setCluster_sigs (s : State) (c : Nat) (u : ClusterU) : (s.setCluster c u).sigs = s.sigs := rfl
@[simp] theorem State.setCluster_arcs (s : State) (c : Nat) (u : ClusterU) : (s.setCluster c u).arcs = s.arcs := rfl
@[simp] theorem State.setCluster_rings (s : State) (c : Nat) (u : ClusterU) : (s.setCluster c u).rings = s.rings := rfl
@[simp] theorem State.setCluster_ctls (s : State) (c : Nat) (u : ClusterU) : (s.setCluster c u).ctls = s.ctls := rfl
@[simp] theorem State.setCluster_peers (s : State) (c : Nat) (u : ClusterU) : (s.setCluster c u).peers = s.peers := rfl
@[simp] theorem State.setCluster_parkq (s : State) (c : Nat) (u : ClusterU) : (s.setCluster c u).parkq = s.parkq := rfl
@[simp] theorem State.setCluster_watch (s : State) (c : Nat) (u : ClusterU) : (s.setCluster c u).watch = s.watch := rfl
@[simp] theorem State.setCluster_sigAdds (s : State) (c : Nat) (u : ClusterU) : (s.setCluster c u).sigAdds = s.sigAdds := rfl
@[simp] theorem State.setCluster_addHandle (s : State) (c : Nat) (u : ClusterU) : (s.setCluster c u).addHandle = s.addHandle := rfl
@[simp] theorem State.setCluster_rejects (s : State) (c : Nat) (u : ClusterU) : (s.setCluster c u).rejects = s.rejects := rfl
@[simp] theorem State.setCluster_chords (s : State) (c : Nat) (u : ClusterU) : (s.setCluster c u).chords = s.chords := rfl
@[simp] theorem State.setCluster_links (s : State) (c : Nat) (u : ClusterU) : (s.setCluster c u).links = s.links := rfl
@[simp] theorem State.setCluster_clusters (s : State) (c : Nat) (u : ClusterU) : (s.setCluster c u).clusters = Tbl.set s.clusters c u := rfl
@[simp] theorem State.setCluster_duty (s : State) (c : Nat) (u : ClusterU) : (s.setCluster c u).duty = s.duty := rfl
@[simp] theorem State.setCluster_grants (s : State) (c : Nat) (u : ClusterU) : (s.setCluster c u).grants = s.grants := rfl
@[simp] theorem State.setCluster_powerAt (s : State) (c : Nat) (u : ClusterU) : (s.setCluster c u).powerAt = s.powerAt := rfl
@[simp] theorem State.setCluster_overCap (s : State) (c : Nat) (u : ClusterU) : (s.setCluster c u).overCap = s.overCap := rfl
@[simp] theorem State.setCluster_sites (s : State) (c : Nat) (u : ClusterU) : (s.setCluster c u).sites = s.sites := rfl
@[simp] theorem State.setCluster_winLog (s : State) (c : Nat) (u : ClusterU) : (s.setCluster c u).winLog = s.winLog := rfl
@[simp] theorem State.setCluster_life (s : State) (c : Nat) (u : ClusterU) : (s.setCluster c u).life = s.life := rfl
@[simp] theorem State.setCluster_ledger (s : State) (c : Nat) (u : ClusterU) : (s.setCluster c u).ledger = s.ledger := rfl
@[simp] theorem State.setCluster_floors (s : State) (c : Nat) (u : ClusterU) : (s.setCluster c u).floors = s.floors := rfl
@[simp] theorem State.setCluster_retFuse (s : State) (c : Nat) (u : ClusterU) : (s.setCluster c u).retFuse = s.retFuse := rfl
@[simp] theorem State.setCluster_trend (s : State) (c : Nat) (u : ClusterU) : (s.setCluster c u).trend = s.trend := rfl
@[simp] theorem State.setCluster_timingDays (s : State) (c : Nat) (u : ClusterU) : (s.setCluster c u).timingDays = s.timingDays := rfl
@[simp] theorem State.setCluster_traceProd (s : State) (c : Nat) (u : ClusterU) : (s.setCluster c u).traceProd = s.traceProd := rfl
@[simp] theorem State.setCluster_traceCons (s : State) (c : Nat) (u : ClusterU) : (s.setCluster c u).traceCons = s.traceCons := rfl
@[simp] theorem State.setCluster_traceSeq (s : State) (c : Nat) (u : ClusterU) : (s.setCluster c u).traceSeq = s.traceSeq := rfl
@[simp] theorem State.setCluster_traceLoss (s : State) (c : Nat) (u : ClusterU) : (s.setCluster c u).traceLoss = s.traceLoss := rfl
@[simp] theorem State.setCluster_watches (s : State) (c : Nat) (u : ClusterU) : (s.setCluster c u).watches = s.watches := rfl
@[simp] theorem State.setCluster_tapIr (s : State) (c : Nat) (u : ClusterU) : (s.setCluster c u).tapIr = s.tapIr := rfl
@[simp] theorem State.setCluster_tapDr (s : State) (c : Nat) (u : ClusterU) : (s.setCluster c u).tapDr = s.tapDr := rfl
@[simp] theorem State.setCluster_keys (s : State) (c : Nat) (u : ClusterU) : (s.setCluster c u).keys = s.keys := rfl
@[simp] theorem State.setCluster_triples (s : State) (c : Nat) (u : ClusterU) : (s.setCluster c u).triples = s.triples := rfl
@[simp] theorem State.setCluster_spdm (s : State) (c : Nat) (u : ClusterU) : (s.setCluster c u).spdm = s.spdm := rfl
@[simp] theorem State.setCluster_aux (s : State) (c : Nat) (u : ClusterU) : (s.setCluster c u).aux = s.aux := rfl
@[simp] theorem State.setCluster_vin48 (s : State) (c : Nat) (u : ClusterU) : (s.setCluster c u).vin48 = s.vin48 := rfl
@[simp] theorem State.setCluster_refclk (s : State) (c : Nat) (u : ClusterU) : (s.setCluster c u).refclk = s.refclk := rfl
@[simp] theorem State.setCluster_powered (s : State) (c : Nat) (u : ClusterU) : (s.setCluster c u).powered = s.powered := rfl
@[simp] theorem State.setCluster_ctlReady (s : State) (c : Nat) (u : ClusterU) : (s.setCluster c u).ctlReady = s.ctlReady := rfl
@[simp] theorem State.setCluster_hostTraining (s : State) (c : Nat) (u : ClusterU) : (s.setCluster c u).hostTraining = s.hostTraining := rfl
@[simp] theorem State.setCluster_hostLost (s : State) (c : Nat) (u : ClusterU) : (s.setCluster c u).hostLost = s.hostLost := rfl
@[simp] theorem State.setCluster_throttle (s : State) (c : Nat) (u : ClusterU) : (s.setCluster c u).throttle = s.throttle := rfl
@[simp] theorem State.setCluster_thermTrip (s : State) (c : Nat) (u : ClusterU) : (s.setCluster c u).thermTrip = s.thermTrip := rfl
@[simp] theorem State.setCluster_alert (s : State) (c : Nat) (u : ClusterU) : (s.setCluster c u).alert = s.alert := rfl
@[simp] theorem State.setCluster_currentLimit (s : State) (c : Nat) (u : ClusterU) : (s.setCluster c u).currentLimit = s.currentLimit := rfl
@[simp] theorem State.setCluster_safeThermal (s : State) (c : Nat) (u : ClusterU) : (s.setCluster c u).safeThermal = s.safeThermal := rfl
@[simp] theorem State.setCluster_hot (s : State) (c : Nat) (u : ClusterU) : (s.setCluster c u).hot = s.hot := rfl
@[simp] theorem State.setCluster_starting (s : State) (c : Nat) (u : ClusterU) : (s.setCluster c u).starting = s.starting := rfl
@[simp] theorem State.setCluster_failedStart (s : State) (c : Nat) (u : ClusterU) : (s.setCluster c u).failedStart = s.failedStart := rfl
@[simp] theorem State.setCluster_warmFails (s : State) (c : Nat) (u : ClusterU) : (s.setCluster c u).warmFails = s.warmFails := rfl
@[simp] theorem State.setCluster_fetchStop (s : State) (c : Nat) (u : ClusterU) : (s.setCluster c u).fetchStop = s.fetchStop := rfl
@[simp] theorem State.setCluster_identifyEnds (s : State) (c : Nat) (u : ClusterU) : (s.setCluster c u).identifyEnds = s.identifyEnds := rfl
@[simp] theorem State.setCluster_latchTimer (s : State) (c : Nat) (u : ClusterU) : (s.setCluster c u).latchTimer = s.latchTimer := rfl
@[simp] theorem State.setCluster_latchStop (s : State) (c : Nat) (u : ClusterU) : (s.setCluster c u).latchStop = s.latchStop := rfl
@[simp] theorem State.setCluster_teardowns (s : State) (c : Nat) (u : ClusterU) : (s.setCluster c u).teardowns = s.teardowns := rfl

/-! ### State.setCtl -/

@[simp] theorem State.setCtl_pending (s : State) (fn : Nat) (c : CtlRing) : (s.setCtl fn c).pending = s.pending := rfl
@[simp] theorem State.setCtl_admitted (s : State) (fn : Nat) (c : CtlRing) : (s.setCtl fn c).admitted = s.admitted := rfl
@[simp] theorem State.setCtl_layout (s : State) (fn : Nat) (c : CtlRing) : (s.setCtl fn c).layout = s.layout := rfl
@[simp] theorem State.setCtl_hostTables (s : State) (fn : Nat) (c : CtlRing) : (s.setCtl fn c).hostTables = s.hostTables := rfl
@[simp] theorem State.setCtl_tapRsp (s : State) (fn : Nat) (c : CtlRing) : (s.setCtl fn c).tapRsp = s.tapRsp := rfl
@[simp] theorem State.setCtl_vers (s : State) (fn : Nat) (c : CtlRing) : (s.setCtl fn c).vers = s.vers := rfl
@[simp] theorem State.setCtl_now (s : State) (fn : Nat) (c : CtlRing) : (s.setCtl fn c).now = s.now := rfl
@[simp] theorem State.setCtl_timeZero (s : State) (fn : Nat) (c : CtlRing) : (s.setCtl fn c).timeZero = s.timeZero := rfl
@[simp] theorem State.setCtl_free (s : State) (fn : Nat) (c : CtlRing) : (s.setCtl fn c).free = s.free := rfl
@[simp] theorem State.setCtl_obj (s : State) (fn : Nat) (c : CtlRing) : (s.setCtl fn c).obj = s.obj := rfl
@[simp] theorem State.setCtl_out (s : State) (fn : Nat) (c : CtlRing) : (s.setCtl fn c).out = s.out := rfl
@[simp] theorem State.setCtl_sess (s : State) (fn : Nat) (c : CtlRing) : (s.setCtl fn c).sess = s.sess := rfl
@[simp] theorem State.setCtl_sids (s : State) (fn : Nat) (c : CtlRing) : (s.setCtl fn c).sids = s.sids := rfl
@[simp] theorem State.setCtl_fails (s : State) (fn : Nat) (c : CtlRing) : (s.setCtl fn c).fails = s.fails := rfl
@[simp] theorem State.setCtl_locks (s : State) (fn : Nat) (c : CtlRing) : (s.setCtl fn c).locks = s.locks := rfl
@[simp] theorem State.setCtl_subs (s : State) (fn : Nat) (c : CtlRing) : (s.setCtl fn c).subs = s.subs := rfl
@[simp] theorem State.setCtl_nextSub (s : State) (fn : Nat) (c : CtlRing) : (s.setCtl fn c).nextSub = s.nextSub := rfl
@[simp] theorem State.setCtl_mbx (s : State) (fn : Nat) (c : CtlRing) : (s.setCtl fn c).mbx = s.mbx := rfl
@[simp] theorem State.setCtl_flash (s : State) (fn : Nat) (c : CtlRing) : (s.setCtl fn c).flash = s.flash := rfl
@[simp] theorem State.setCtl_seqs (s : State) (fn : Nat) (c : CtlRing) : (s.setCtl fn c).seqs = s.seqs := rfl
@[simp] theorem State.setCtl_arrays (s : State) (fn : Nat) (c : CtlRing) : (s.setCtl fn c).arrays = s.arrays := rfl
@[simp] theorem State.setCtl_tables (s : State) (fn : Nat) (c : CtlRing) : (s.setCtl fn c).tables = s.tables := rfl
@[simp] theorem State.setCtl_groups (s : State) (fn : Nat) (c : CtlRing) : (s.setCtl fn c).groups = s.groups := rfl
@[simp] theorem State.setCtl_blocks (s : State) (fn : Nat) (c : CtlRing) : (s.setCtl fn c).blocks = s.blocks := rfl
@[simp] theorem State.setCtl_cores (s : State) (fn : Nat) (c : CtlRing) : (s.setCtl fn c).cores = s.cores := rfl
@[simp] theorem State.setCtl_l1d (s : State) (fn : Nat) (c : CtlRing) : (s.setCtl fn c).l1d = s.l1d := rfl
@[simp] theorem State.setCtl_l1i (s : State) (fn : Nat) (c : CtlRing) : (s.setCtl fn c).l1i = s.l1i := rfl
@[simp] theorem State.setCtl_dc (s : State) (fn : Nat) (c : CtlRing) : (s.setCtl fn c).dc = s.dc := rfl
@[simp] theorem State.setCtl_victim (s : State) (fn : Nat) (c : CtlRing) : (s.setCtl fn c).victim = s.victim := rfl
@[simp] theorem State.setCtl_reclaim (s : State) (fn : Nat) (c : CtlRing) : (s.setCtl fn c).reclaim = s.reclaim := rfl
@[simp] theorem State.setCtl_dup (s : State) (fn : Nat) (c : CtlRing) : (s.setCtl fn c).dup = s.dup := rfl
@[simp] theorem State.setCtl_tx (s : State) (fn : Nat) (c : CtlRing) : (s.setCtl fn c).tx = s.tx := rfl
@[simp] theorem State.setCtl_txq (s : State) (fn : Nat) (c : CtlRing) : (s.setCtl fn c).txq = s.txq := rfl
@[simp] theorem State.setCtl_lattice (s : State) (fn : Nat) (c : CtlRing) : (s.setCtl fn c).lattice = s.lattice := rfl
@[simp] theorem State.setCtl_hlocks (s : State) (fn : Nat) (c : CtlRing) : (s.setCtl fn c).hlocks = s.hlocks := rfl
@[simp] theorem State.setCtl_hbm (s : State) (fn : Nat) (c : CtlRing) : (s.setCtl fn c).hbm = s.hbm := rfl
@[simp] theorem State.setCtl_poison (s : State) (fn : Nat) (c : CtlRing) : (s.setCtl fn c).poison = s.poison := rfl
@[simp] theorem State.setCtl_host (s : State) (fn : Nat) (c : CtlRing) : (s.setCtl fn c).host = s.host := rfl
@[simp] theorem State.setCtl_chan (s : State) (fn : Nat) (c : CtlRing) : (s.setCtl fn c).chan = s.chan := rfl
@[simp] theorem State.setCtl_ramp (s : State) (fn : Nat) (c : CtlRing) : (s.setCtl fn c).ramp = s.ramp := rfl
@[simp] theorem State.setCtl_buckets (s : State) (fn : Nat) (c : CtlRing) : (s.setCtl fn c).buckets = s.buckets := rfl
@[simp] theorem State.setCtl_bucketAt (s : State) (fn : Nat) (c : CtlRing) : (s.setCtl fn c).bucketAt = s.bucketAt := rfl
@[simp] theorem State.setCtl_bucketQ (s : State) (fn : Nat) (c : CtlRing) : (s.setCtl fn c).bucketQ = s.bucketQ := rfl
@[simp] theorem State.setCtl_train (s : State) (fn : Nat) (c : CtlRing) : (s.setCtl fn c).train = s.train := rfl
@[simp] theorem State.setCtl_tlbs (s : State) (fn : Nat) (c : CtlRing) : (s.setCtl fn c).tlbs = s.tlbs := rfl
@[simp] theorem State.setCtl_walks (s : State) (fn : Nat) (c : CtlRing) : (s.setCtl fn c).walks = s.walks := rfl
@[simp] theorem State.setCtl_faults (s : State) (fn : Nat) (c : CtlRing) : (s.setCtl fn c).faults = s.faults := rfl
@[simp] theorem State.setCtl_gens (s : State) (fn : Nat) (c : CtlRing) : (s.setCtl fn c).gens = s.gens := rfl
@[simp] theorem State.setCtl_ctxs (s : State) (fn : Nat) (c : CtlRing) : (s.setCtl fn c).ctxs = s.ctxs := rfl
@[simp] theorem State.setCtl_mems (s : State) (fn : Nat) (c : CtlRing) : (s.setCtl fn c).mems = s.mems := rfl
@[simp] theorem State.setCtl_sigs (s : State) (fn : Nat) (c : CtlRing) : (s.setCtl fn c).sigs = s.sigs := rfl
@[simp] theorem State.setCtl_arcs (s : State) (fn : Nat) (c : CtlRing) : (s.setCtl fn c).arcs = s.arcs := rfl
@[simp] theorem State.setCtl_rings (s : State) (fn : Nat) (c : CtlRing) : (s.setCtl fn c).rings = s.rings := rfl
@[simp] theorem State.setCtl_ctls (s : State) (fn : Nat) (c : CtlRing) : (s.setCtl fn c).ctls = Tbl.set s.ctls fn c := rfl
@[simp] theorem State.setCtl_peers (s : State) (fn : Nat) (c : CtlRing) : (s.setCtl fn c).peers = s.peers := rfl
@[simp] theorem State.setCtl_parkq (s : State) (fn : Nat) (c : CtlRing) : (s.setCtl fn c).parkq = s.parkq := rfl
@[simp] theorem State.setCtl_watch (s : State) (fn : Nat) (c : CtlRing) : (s.setCtl fn c).watch = s.watch := rfl
@[simp] theorem State.setCtl_sigAdds (s : State) (fn : Nat) (c : CtlRing) : (s.setCtl fn c).sigAdds = s.sigAdds := rfl
@[simp] theorem State.setCtl_addHandle (s : State) (fn : Nat) (c : CtlRing) : (s.setCtl fn c).addHandle = s.addHandle := rfl
@[simp] theorem State.setCtl_rejects (s : State) (fn : Nat) (c : CtlRing) : (s.setCtl fn c).rejects = s.rejects := rfl
@[simp] theorem State.setCtl_chords (s : State) (fn : Nat) (c : CtlRing) : (s.setCtl fn c).chords = s.chords := rfl
@[simp] theorem State.setCtl_links (s : State) (fn : Nat) (c : CtlRing) : (s.setCtl fn c).links = s.links := rfl
@[simp] theorem State.setCtl_clusters (s : State) (fn : Nat) (c : CtlRing) : (s.setCtl fn c).clusters = s.clusters := rfl
@[simp] theorem State.setCtl_duty (s : State) (fn : Nat) (c : CtlRing) : (s.setCtl fn c).duty = s.duty := rfl
@[simp] theorem State.setCtl_grants (s : State) (fn : Nat) (c : CtlRing) : (s.setCtl fn c).grants = s.grants := rfl
@[simp] theorem State.setCtl_powerAt (s : State) (fn : Nat) (c : CtlRing) : (s.setCtl fn c).powerAt = s.powerAt := rfl
@[simp] theorem State.setCtl_overCap (s : State) (fn : Nat) (c : CtlRing) : (s.setCtl fn c).overCap = s.overCap := rfl
@[simp] theorem State.setCtl_sites (s : State) (fn : Nat) (c : CtlRing) : (s.setCtl fn c).sites = s.sites := rfl
@[simp] theorem State.setCtl_winLog (s : State) (fn : Nat) (c : CtlRing) : (s.setCtl fn c).winLog = s.winLog := rfl
@[simp] theorem State.setCtl_life (s : State) (fn : Nat) (c : CtlRing) : (s.setCtl fn c).life = s.life := rfl
@[simp] theorem State.setCtl_ledger (s : State) (fn : Nat) (c : CtlRing) : (s.setCtl fn c).ledger = s.ledger := rfl
@[simp] theorem State.setCtl_floors (s : State) (fn : Nat) (c : CtlRing) : (s.setCtl fn c).floors = s.floors := rfl
@[simp] theorem State.setCtl_retFuse (s : State) (fn : Nat) (c : CtlRing) : (s.setCtl fn c).retFuse = s.retFuse := rfl
@[simp] theorem State.setCtl_trend (s : State) (fn : Nat) (c : CtlRing) : (s.setCtl fn c).trend = s.trend := rfl
@[simp] theorem State.setCtl_timingDays (s : State) (fn : Nat) (c : CtlRing) : (s.setCtl fn c).timingDays = s.timingDays := rfl
@[simp] theorem State.setCtl_traceProd (s : State) (fn : Nat) (c : CtlRing) : (s.setCtl fn c).traceProd = s.traceProd := rfl
@[simp] theorem State.setCtl_traceCons (s : State) (fn : Nat) (c : CtlRing) : (s.setCtl fn c).traceCons = s.traceCons := rfl
@[simp] theorem State.setCtl_traceSeq (s : State) (fn : Nat) (c : CtlRing) : (s.setCtl fn c).traceSeq = s.traceSeq := rfl
@[simp] theorem State.setCtl_traceLoss (s : State) (fn : Nat) (c : CtlRing) : (s.setCtl fn c).traceLoss = s.traceLoss := rfl
@[simp] theorem State.setCtl_watches (s : State) (fn : Nat) (c : CtlRing) : (s.setCtl fn c).watches = s.watches := rfl
@[simp] theorem State.setCtl_tapIr (s : State) (fn : Nat) (c : CtlRing) : (s.setCtl fn c).tapIr = s.tapIr := rfl
@[simp] theorem State.setCtl_tapDr (s : State) (fn : Nat) (c : CtlRing) : (s.setCtl fn c).tapDr = s.tapDr := rfl
@[simp] theorem State.setCtl_keys (s : State) (fn : Nat) (c : CtlRing) : (s.setCtl fn c).keys = s.keys := rfl
@[simp] theorem State.setCtl_triples (s : State) (fn : Nat) (c : CtlRing) : (s.setCtl fn c).triples = s.triples := rfl
@[simp] theorem State.setCtl_spdm (s : State) (fn : Nat) (c : CtlRing) : (s.setCtl fn c).spdm = s.spdm := rfl
@[simp] theorem State.setCtl_aux (s : State) (fn : Nat) (c : CtlRing) : (s.setCtl fn c).aux = s.aux := rfl
@[simp] theorem State.setCtl_vin48 (s : State) (fn : Nat) (c : CtlRing) : (s.setCtl fn c).vin48 = s.vin48 := rfl
@[simp] theorem State.setCtl_refclk (s : State) (fn : Nat) (c : CtlRing) : (s.setCtl fn c).refclk = s.refclk := rfl
@[simp] theorem State.setCtl_powered (s : State) (fn : Nat) (c : CtlRing) : (s.setCtl fn c).powered = s.powered := rfl
@[simp] theorem State.setCtl_ctlReady (s : State) (fn : Nat) (c : CtlRing) : (s.setCtl fn c).ctlReady = s.ctlReady := rfl
@[simp] theorem State.setCtl_hostTraining (s : State) (fn : Nat) (c : CtlRing) : (s.setCtl fn c).hostTraining = s.hostTraining := rfl
@[simp] theorem State.setCtl_hostLost (s : State) (fn : Nat) (c : CtlRing) : (s.setCtl fn c).hostLost = s.hostLost := rfl
@[simp] theorem State.setCtl_throttle (s : State) (fn : Nat) (c : CtlRing) : (s.setCtl fn c).throttle = s.throttle := rfl
@[simp] theorem State.setCtl_thermTrip (s : State) (fn : Nat) (c : CtlRing) : (s.setCtl fn c).thermTrip = s.thermTrip := rfl
@[simp] theorem State.setCtl_alert (s : State) (fn : Nat) (c : CtlRing) : (s.setCtl fn c).alert = s.alert := rfl
@[simp] theorem State.setCtl_currentLimit (s : State) (fn : Nat) (c : CtlRing) : (s.setCtl fn c).currentLimit = s.currentLimit := rfl
@[simp] theorem State.setCtl_safeThermal (s : State) (fn : Nat) (c : CtlRing) : (s.setCtl fn c).safeThermal = s.safeThermal := rfl
@[simp] theorem State.setCtl_hot (s : State) (fn : Nat) (c : CtlRing) : (s.setCtl fn c).hot = s.hot := rfl
@[simp] theorem State.setCtl_starting (s : State) (fn : Nat) (c : CtlRing) : (s.setCtl fn c).starting = s.starting := rfl
@[simp] theorem State.setCtl_failedStart (s : State) (fn : Nat) (c : CtlRing) : (s.setCtl fn c).failedStart = s.failedStart := rfl
@[simp] theorem State.setCtl_warmFails (s : State) (fn : Nat) (c : CtlRing) : (s.setCtl fn c).warmFails = s.warmFails := rfl
@[simp] theorem State.setCtl_fetchStop (s : State) (fn : Nat) (c : CtlRing) : (s.setCtl fn c).fetchStop = s.fetchStop := rfl
@[simp] theorem State.setCtl_identifyEnds (s : State) (fn : Nat) (c : CtlRing) : (s.setCtl fn c).identifyEnds = s.identifyEnds := rfl
@[simp] theorem State.setCtl_latchTimer (s : State) (fn : Nat) (c : CtlRing) : (s.setCtl fn c).latchTimer = s.latchTimer := rfl
@[simp] theorem State.setCtl_latchStop (s : State) (fn : Nat) (c : CtlRing) : (s.setCtl fn c).latchStop = s.latchStop := rfl
@[simp] theorem State.setCtl_teardowns (s : State) (fn : Nat) (c : CtlRing) : (s.setCtl fn c).teardowns = s.teardowns := rfl

/-! ### State.setKeySlot -/

@[simp] theorem State.setKeySlot_pending (s : State) (n : Nat) (k : KeySlot) : (s.setKeySlot n k).pending = s.pending := rfl
@[simp] theorem State.setKeySlot_admitted (s : State) (n : Nat) (k : KeySlot) : (s.setKeySlot n k).admitted = s.admitted := rfl
@[simp] theorem State.setKeySlot_layout (s : State) (n : Nat) (k : KeySlot) : (s.setKeySlot n k).layout = s.layout := rfl
@[simp] theorem State.setKeySlot_hostTables (s : State) (n : Nat) (k : KeySlot) : (s.setKeySlot n k).hostTables = s.hostTables := rfl
@[simp] theorem State.setKeySlot_tapRsp (s : State) (n : Nat) (k : KeySlot) : (s.setKeySlot n k).tapRsp = s.tapRsp := rfl
@[simp] theorem State.setKeySlot_vers (s : State) (n : Nat) (k : KeySlot) : (s.setKeySlot n k).vers = s.vers := rfl
@[simp] theorem State.setKeySlot_now (s : State) (n : Nat) (k : KeySlot) : (s.setKeySlot n k).now = s.now := rfl
@[simp] theorem State.setKeySlot_timeZero (s : State) (n : Nat) (k : KeySlot) : (s.setKeySlot n k).timeZero = s.timeZero := rfl
@[simp] theorem State.setKeySlot_free (s : State) (n : Nat) (k : KeySlot) : (s.setKeySlot n k).free = s.free := rfl
@[simp] theorem State.setKeySlot_obj (s : State) (n : Nat) (k : KeySlot) : (s.setKeySlot n k).obj = s.obj := rfl
@[simp] theorem State.setKeySlot_out (s : State) (n : Nat) (k : KeySlot) : (s.setKeySlot n k).out = s.out := rfl
@[simp] theorem State.setKeySlot_sess (s : State) (n : Nat) (k : KeySlot) : (s.setKeySlot n k).sess = s.sess := rfl
@[simp] theorem State.setKeySlot_sids (s : State) (n : Nat) (k : KeySlot) : (s.setKeySlot n k).sids = s.sids := rfl
@[simp] theorem State.setKeySlot_fails (s : State) (n : Nat) (k : KeySlot) : (s.setKeySlot n k).fails = s.fails := rfl
@[simp] theorem State.setKeySlot_locks (s : State) (n : Nat) (k : KeySlot) : (s.setKeySlot n k).locks = s.locks := rfl
@[simp] theorem State.setKeySlot_subs (s : State) (n : Nat) (k : KeySlot) : (s.setKeySlot n k).subs = s.subs := rfl
@[simp] theorem State.setKeySlot_nextSub (s : State) (n : Nat) (k : KeySlot) : (s.setKeySlot n k).nextSub = s.nextSub := rfl
@[simp] theorem State.setKeySlot_mbx (s : State) (n : Nat) (k : KeySlot) : (s.setKeySlot n k).mbx = s.mbx := rfl
@[simp] theorem State.setKeySlot_flash (s : State) (n : Nat) (k : KeySlot) : (s.setKeySlot n k).flash = s.flash := rfl
@[simp] theorem State.setKeySlot_seqs (s : State) (n : Nat) (k : KeySlot) : (s.setKeySlot n k).seqs = s.seqs := rfl
@[simp] theorem State.setKeySlot_arrays (s : State) (n : Nat) (k : KeySlot) : (s.setKeySlot n k).arrays = s.arrays := rfl
@[simp] theorem State.setKeySlot_tables (s : State) (n : Nat) (k : KeySlot) : (s.setKeySlot n k).tables = s.tables := rfl
@[simp] theorem State.setKeySlot_groups (s : State) (n : Nat) (k : KeySlot) : (s.setKeySlot n k).groups = s.groups := rfl
@[simp] theorem State.setKeySlot_blocks (s : State) (n : Nat) (k : KeySlot) : (s.setKeySlot n k).blocks = s.blocks := rfl
@[simp] theorem State.setKeySlot_cores (s : State) (n : Nat) (k : KeySlot) : (s.setKeySlot n k).cores = s.cores := rfl
@[simp] theorem State.setKeySlot_l1d (s : State) (n : Nat) (k : KeySlot) : (s.setKeySlot n k).l1d = s.l1d := rfl
@[simp] theorem State.setKeySlot_l1i (s : State) (n : Nat) (k : KeySlot) : (s.setKeySlot n k).l1i = s.l1i := rfl
@[simp] theorem State.setKeySlot_dc (s : State) (n : Nat) (k : KeySlot) : (s.setKeySlot n k).dc = s.dc := rfl
@[simp] theorem State.setKeySlot_victim (s : State) (n : Nat) (k : KeySlot) : (s.setKeySlot n k).victim = s.victim := rfl
@[simp] theorem State.setKeySlot_reclaim (s : State) (n : Nat) (k : KeySlot) : (s.setKeySlot n k).reclaim = s.reclaim := rfl
@[simp] theorem State.setKeySlot_dup (s : State) (n : Nat) (k : KeySlot) : (s.setKeySlot n k).dup = s.dup := rfl
@[simp] theorem State.setKeySlot_tx (s : State) (n : Nat) (k : KeySlot) : (s.setKeySlot n k).tx = s.tx := rfl
@[simp] theorem State.setKeySlot_txq (s : State) (n : Nat) (k : KeySlot) : (s.setKeySlot n k).txq = s.txq := rfl
@[simp] theorem State.setKeySlot_lattice (s : State) (n : Nat) (k : KeySlot) : (s.setKeySlot n k).lattice = s.lattice := rfl
@[simp] theorem State.setKeySlot_hlocks (s : State) (n : Nat) (k : KeySlot) : (s.setKeySlot n k).hlocks = s.hlocks := rfl
@[simp] theorem State.setKeySlot_hbm (s : State) (n : Nat) (k : KeySlot) : (s.setKeySlot n k).hbm = s.hbm := rfl
@[simp] theorem State.setKeySlot_poison (s : State) (n : Nat) (k : KeySlot) : (s.setKeySlot n k).poison = s.poison := rfl
@[simp] theorem State.setKeySlot_host (s : State) (n : Nat) (k : KeySlot) : (s.setKeySlot n k).host = s.host := rfl
@[simp] theorem State.setKeySlot_chan (s : State) (n : Nat) (k : KeySlot) : (s.setKeySlot n k).chan = s.chan := rfl
@[simp] theorem State.setKeySlot_ramp (s : State) (n : Nat) (k : KeySlot) : (s.setKeySlot n k).ramp = s.ramp := rfl
@[simp] theorem State.setKeySlot_buckets (s : State) (n : Nat) (k : KeySlot) : (s.setKeySlot n k).buckets = s.buckets := rfl
@[simp] theorem State.setKeySlot_bucketAt (s : State) (n : Nat) (k : KeySlot) : (s.setKeySlot n k).bucketAt = s.bucketAt := rfl
@[simp] theorem State.setKeySlot_bucketQ (s : State) (n : Nat) (k : KeySlot) : (s.setKeySlot n k).bucketQ = s.bucketQ := rfl
@[simp] theorem State.setKeySlot_train (s : State) (n : Nat) (k : KeySlot) : (s.setKeySlot n k).train = s.train := rfl
@[simp] theorem State.setKeySlot_tlbs (s : State) (n : Nat) (k : KeySlot) : (s.setKeySlot n k).tlbs = s.tlbs := rfl
@[simp] theorem State.setKeySlot_walks (s : State) (n : Nat) (k : KeySlot) : (s.setKeySlot n k).walks = s.walks := rfl
@[simp] theorem State.setKeySlot_faults (s : State) (n : Nat) (k : KeySlot) : (s.setKeySlot n k).faults = s.faults := rfl
@[simp] theorem State.setKeySlot_gens (s : State) (n : Nat) (k : KeySlot) : (s.setKeySlot n k).gens = s.gens := rfl
@[simp] theorem State.setKeySlot_ctxs (s : State) (n : Nat) (k : KeySlot) : (s.setKeySlot n k).ctxs = s.ctxs := rfl
@[simp] theorem State.setKeySlot_mems (s : State) (n : Nat) (k : KeySlot) : (s.setKeySlot n k).mems = s.mems := rfl
@[simp] theorem State.setKeySlot_sigs (s : State) (n : Nat) (k : KeySlot) : (s.setKeySlot n k).sigs = s.sigs := rfl
@[simp] theorem State.setKeySlot_arcs (s : State) (n : Nat) (k : KeySlot) : (s.setKeySlot n k).arcs = s.arcs := rfl
@[simp] theorem State.setKeySlot_rings (s : State) (n : Nat) (k : KeySlot) : (s.setKeySlot n k).rings = s.rings := rfl
@[simp] theorem State.setKeySlot_ctls (s : State) (n : Nat) (k : KeySlot) : (s.setKeySlot n k).ctls = s.ctls := rfl
@[simp] theorem State.setKeySlot_peers (s : State) (n : Nat) (k : KeySlot) : (s.setKeySlot n k).peers = s.peers := rfl
@[simp] theorem State.setKeySlot_parkq (s : State) (n : Nat) (k : KeySlot) : (s.setKeySlot n k).parkq = s.parkq := rfl
@[simp] theorem State.setKeySlot_watch (s : State) (n : Nat) (k : KeySlot) : (s.setKeySlot n k).watch = s.watch := rfl
@[simp] theorem State.setKeySlot_sigAdds (s : State) (n : Nat) (k : KeySlot) : (s.setKeySlot n k).sigAdds = s.sigAdds := rfl
@[simp] theorem State.setKeySlot_addHandle (s : State) (n : Nat) (k : KeySlot) : (s.setKeySlot n k).addHandle = s.addHandle := rfl
@[simp] theorem State.setKeySlot_rejects (s : State) (n : Nat) (k : KeySlot) : (s.setKeySlot n k).rejects = s.rejects := rfl
@[simp] theorem State.setKeySlot_chords (s : State) (n : Nat) (k : KeySlot) : (s.setKeySlot n k).chords = s.chords := rfl
@[simp] theorem State.setKeySlot_links (s : State) (n : Nat) (k : KeySlot) : (s.setKeySlot n k).links = s.links := rfl
@[simp] theorem State.setKeySlot_clusters (s : State) (n : Nat) (k : KeySlot) : (s.setKeySlot n k).clusters = s.clusters := rfl
@[simp] theorem State.setKeySlot_duty (s : State) (n : Nat) (k : KeySlot) : (s.setKeySlot n k).duty = s.duty := rfl
@[simp] theorem State.setKeySlot_grants (s : State) (n : Nat) (k : KeySlot) : (s.setKeySlot n k).grants = s.grants := rfl
@[simp] theorem State.setKeySlot_powerAt (s : State) (n : Nat) (k : KeySlot) : (s.setKeySlot n k).powerAt = s.powerAt := rfl
@[simp] theorem State.setKeySlot_overCap (s : State) (n : Nat) (k : KeySlot) : (s.setKeySlot n k).overCap = s.overCap := rfl
@[simp] theorem State.setKeySlot_sites (s : State) (n : Nat) (k : KeySlot) : (s.setKeySlot n k).sites = s.sites := rfl
@[simp] theorem State.setKeySlot_winLog (s : State) (n : Nat) (k : KeySlot) : (s.setKeySlot n k).winLog = s.winLog := rfl
@[simp] theorem State.setKeySlot_life (s : State) (n : Nat) (k : KeySlot) : (s.setKeySlot n k).life = s.life := rfl
@[simp] theorem State.setKeySlot_ledger (s : State) (n : Nat) (k : KeySlot) : (s.setKeySlot n k).ledger = s.ledger := rfl
@[simp] theorem State.setKeySlot_floors (s : State) (n : Nat) (k : KeySlot) : (s.setKeySlot n k).floors = s.floors := rfl
@[simp] theorem State.setKeySlot_retFuse (s : State) (n : Nat) (k : KeySlot) : (s.setKeySlot n k).retFuse = s.retFuse := rfl
@[simp] theorem State.setKeySlot_trend (s : State) (n : Nat) (k : KeySlot) : (s.setKeySlot n k).trend = s.trend := rfl
@[simp] theorem State.setKeySlot_timingDays (s : State) (n : Nat) (k : KeySlot) : (s.setKeySlot n k).timingDays = s.timingDays := rfl
@[simp] theorem State.setKeySlot_traceProd (s : State) (n : Nat) (k : KeySlot) : (s.setKeySlot n k).traceProd = s.traceProd := rfl
@[simp] theorem State.setKeySlot_traceCons (s : State) (n : Nat) (k : KeySlot) : (s.setKeySlot n k).traceCons = s.traceCons := rfl
@[simp] theorem State.setKeySlot_traceSeq (s : State) (n : Nat) (k : KeySlot) : (s.setKeySlot n k).traceSeq = s.traceSeq := rfl
@[simp] theorem State.setKeySlot_traceLoss (s : State) (n : Nat) (k : KeySlot) : (s.setKeySlot n k).traceLoss = s.traceLoss := rfl
@[simp] theorem State.setKeySlot_watches (s : State) (n : Nat) (k : KeySlot) : (s.setKeySlot n k).watches = s.watches := rfl
@[simp] theorem State.setKeySlot_tapIr (s : State) (n : Nat) (k : KeySlot) : (s.setKeySlot n k).tapIr = s.tapIr := rfl
@[simp] theorem State.setKeySlot_tapDr (s : State) (n : Nat) (k : KeySlot) : (s.setKeySlot n k).tapDr = s.tapDr := rfl
@[simp] theorem State.setKeySlot_keys (s : State) (n : Nat) (k : KeySlot) : (s.setKeySlot n k).keys = Tbl.set s.keys n k := rfl
@[simp] theorem State.setKeySlot_triples (s : State) (n : Nat) (k : KeySlot) : (s.setKeySlot n k).triples = s.triples := rfl
@[simp] theorem State.setKeySlot_spdm (s : State) (n : Nat) (k : KeySlot) : (s.setKeySlot n k).spdm = s.spdm := rfl
@[simp] theorem State.setKeySlot_aux (s : State) (n : Nat) (k : KeySlot) : (s.setKeySlot n k).aux = s.aux := rfl
@[simp] theorem State.setKeySlot_vin48 (s : State) (n : Nat) (k : KeySlot) : (s.setKeySlot n k).vin48 = s.vin48 := rfl
@[simp] theorem State.setKeySlot_refclk (s : State) (n : Nat) (k : KeySlot) : (s.setKeySlot n k).refclk = s.refclk := rfl
@[simp] theorem State.setKeySlot_powered (s : State) (n : Nat) (k : KeySlot) : (s.setKeySlot n k).powered = s.powered := rfl
@[simp] theorem State.setKeySlot_ctlReady (s : State) (n : Nat) (k : KeySlot) : (s.setKeySlot n k).ctlReady = s.ctlReady := rfl
@[simp] theorem State.setKeySlot_hostTraining (s : State) (n : Nat) (k : KeySlot) : (s.setKeySlot n k).hostTraining = s.hostTraining := rfl
@[simp] theorem State.setKeySlot_hostLost (s : State) (n : Nat) (k : KeySlot) : (s.setKeySlot n k).hostLost = s.hostLost := rfl
@[simp] theorem State.setKeySlot_throttle (s : State) (n : Nat) (k : KeySlot) : (s.setKeySlot n k).throttle = s.throttle := rfl
@[simp] theorem State.setKeySlot_thermTrip (s : State) (n : Nat) (k : KeySlot) : (s.setKeySlot n k).thermTrip = s.thermTrip := rfl
@[simp] theorem State.setKeySlot_alert (s : State) (n : Nat) (k : KeySlot) : (s.setKeySlot n k).alert = s.alert := rfl
@[simp] theorem State.setKeySlot_currentLimit (s : State) (n : Nat) (k : KeySlot) : (s.setKeySlot n k).currentLimit = s.currentLimit := rfl
@[simp] theorem State.setKeySlot_safeThermal (s : State) (n : Nat) (k : KeySlot) : (s.setKeySlot n k).safeThermal = s.safeThermal := rfl
@[simp] theorem State.setKeySlot_hot (s : State) (n : Nat) (k : KeySlot) : (s.setKeySlot n k).hot = s.hot := rfl
@[simp] theorem State.setKeySlot_starting (s : State) (n : Nat) (k : KeySlot) : (s.setKeySlot n k).starting = s.starting := rfl
@[simp] theorem State.setKeySlot_failedStart (s : State) (n : Nat) (k : KeySlot) : (s.setKeySlot n k).failedStart = s.failedStart := rfl
@[simp] theorem State.setKeySlot_warmFails (s : State) (n : Nat) (k : KeySlot) : (s.setKeySlot n k).warmFails = s.warmFails := rfl
@[simp] theorem State.setKeySlot_fetchStop (s : State) (n : Nat) (k : KeySlot) : (s.setKeySlot n k).fetchStop = s.fetchStop := rfl
@[simp] theorem State.setKeySlot_identifyEnds (s : State) (n : Nat) (k : KeySlot) : (s.setKeySlot n k).identifyEnds = s.identifyEnds := rfl
@[simp] theorem State.setKeySlot_latchTimer (s : State) (n : Nat) (k : KeySlot) : (s.setKeySlot n k).latchTimer = s.latchTimer := rfl
@[simp] theorem State.setKeySlot_latchStop (s : State) (n : Nat) (k : KeySlot) : (s.setKeySlot n k).latchStop = s.latchStop := rfl
@[simp] theorem State.setKeySlot_teardowns (s : State) (n : Nat) (k : KeySlot) : (s.setKeySlot n k).teardowns = s.teardowns := rfl

/-! ### State.setMbx -/

@[simp] theorem State.setMbx_pending (s : State) (fn : Nat) (m : Mbx) : (s.setMbx fn m).pending = s.pending := rfl
@[simp] theorem State.setMbx_admitted (s : State) (fn : Nat) (m : Mbx) : (s.setMbx fn m).admitted = s.admitted := rfl
@[simp] theorem State.setMbx_layout (s : State) (fn : Nat) (m : Mbx) : (s.setMbx fn m).layout = s.layout := rfl
@[simp] theorem State.setMbx_hostTables (s : State) (fn : Nat) (m : Mbx) : (s.setMbx fn m).hostTables = s.hostTables := rfl
@[simp] theorem State.setMbx_tapRsp (s : State) (fn : Nat) (m : Mbx) : (s.setMbx fn m).tapRsp = s.tapRsp := rfl
@[simp] theorem State.setMbx_vers (s : State) (fn : Nat) (m : Mbx) : (s.setMbx fn m).vers = s.vers := rfl
@[simp] theorem State.setMbx_now (s : State) (fn : Nat) (m : Mbx) : (s.setMbx fn m).now = s.now := rfl
@[simp] theorem State.setMbx_timeZero (s : State) (fn : Nat) (m : Mbx) : (s.setMbx fn m).timeZero = s.timeZero := rfl
@[simp] theorem State.setMbx_free (s : State) (fn : Nat) (m : Mbx) : (s.setMbx fn m).free = s.free := rfl
@[simp] theorem State.setMbx_obj (s : State) (fn : Nat) (m : Mbx) : (s.setMbx fn m).obj = s.obj := rfl
@[simp] theorem State.setMbx_out (s : State) (fn : Nat) (m : Mbx) : (s.setMbx fn m).out = s.out := rfl
@[simp] theorem State.setMbx_sess (s : State) (fn : Nat) (m : Mbx) : (s.setMbx fn m).sess = s.sess := rfl
@[simp] theorem State.setMbx_sids (s : State) (fn : Nat) (m : Mbx) : (s.setMbx fn m).sids = s.sids := rfl
@[simp] theorem State.setMbx_fails (s : State) (fn : Nat) (m : Mbx) : (s.setMbx fn m).fails = s.fails := rfl
@[simp] theorem State.setMbx_locks (s : State) (fn : Nat) (m : Mbx) : (s.setMbx fn m).locks = s.locks := rfl
@[simp] theorem State.setMbx_subs (s : State) (fn : Nat) (m : Mbx) : (s.setMbx fn m).subs = s.subs := rfl
@[simp] theorem State.setMbx_nextSub (s : State) (fn : Nat) (m : Mbx) : (s.setMbx fn m).nextSub = s.nextSub := rfl
@[simp] theorem State.setMbx_mbx (s : State) (fn : Nat) (m : Mbx) : (s.setMbx fn m).mbx = Tbl.set s.mbx fn m := rfl
@[simp] theorem State.setMbx_flash (s : State) (fn : Nat) (m : Mbx) : (s.setMbx fn m).flash = s.flash := rfl
@[simp] theorem State.setMbx_seqs (s : State) (fn : Nat) (m : Mbx) : (s.setMbx fn m).seqs = s.seqs := rfl
@[simp] theorem State.setMbx_arrays (s : State) (fn : Nat) (m : Mbx) : (s.setMbx fn m).arrays = s.arrays := rfl
@[simp] theorem State.setMbx_tables (s : State) (fn : Nat) (m : Mbx) : (s.setMbx fn m).tables = s.tables := rfl
@[simp] theorem State.setMbx_groups (s : State) (fn : Nat) (m : Mbx) : (s.setMbx fn m).groups = s.groups := rfl
@[simp] theorem State.setMbx_blocks (s : State) (fn : Nat) (m : Mbx) : (s.setMbx fn m).blocks = s.blocks := rfl
@[simp] theorem State.setMbx_cores (s : State) (fn : Nat) (m : Mbx) : (s.setMbx fn m).cores = s.cores := rfl
@[simp] theorem State.setMbx_l1d (s : State) (fn : Nat) (m : Mbx) : (s.setMbx fn m).l1d = s.l1d := rfl
@[simp] theorem State.setMbx_l1i (s : State) (fn : Nat) (m : Mbx) : (s.setMbx fn m).l1i = s.l1i := rfl
@[simp] theorem State.setMbx_dc (s : State) (fn : Nat) (m : Mbx) : (s.setMbx fn m).dc = s.dc := rfl
@[simp] theorem State.setMbx_victim (s : State) (fn : Nat) (m : Mbx) : (s.setMbx fn m).victim = s.victim := rfl
@[simp] theorem State.setMbx_reclaim (s : State) (fn : Nat) (m : Mbx) : (s.setMbx fn m).reclaim = s.reclaim := rfl
@[simp] theorem State.setMbx_dup (s : State) (fn : Nat) (m : Mbx) : (s.setMbx fn m).dup = s.dup := rfl
@[simp] theorem State.setMbx_tx (s : State) (fn : Nat) (m : Mbx) : (s.setMbx fn m).tx = s.tx := rfl
@[simp] theorem State.setMbx_txq (s : State) (fn : Nat) (m : Mbx) : (s.setMbx fn m).txq = s.txq := rfl
@[simp] theorem State.setMbx_lattice (s : State) (fn : Nat) (m : Mbx) : (s.setMbx fn m).lattice = s.lattice := rfl
@[simp] theorem State.setMbx_hlocks (s : State) (fn : Nat) (m : Mbx) : (s.setMbx fn m).hlocks = s.hlocks := rfl
@[simp] theorem State.setMbx_hbm (s : State) (fn : Nat) (m : Mbx) : (s.setMbx fn m).hbm = s.hbm := rfl
@[simp] theorem State.setMbx_poison (s : State) (fn : Nat) (m : Mbx) : (s.setMbx fn m).poison = s.poison := rfl
@[simp] theorem State.setMbx_host (s : State) (fn : Nat) (m : Mbx) : (s.setMbx fn m).host = s.host := rfl
@[simp] theorem State.setMbx_chan (s : State) (fn : Nat) (m : Mbx) : (s.setMbx fn m).chan = s.chan := rfl
@[simp] theorem State.setMbx_ramp (s : State) (fn : Nat) (m : Mbx) : (s.setMbx fn m).ramp = s.ramp := rfl
@[simp] theorem State.setMbx_buckets (s : State) (fn : Nat) (m : Mbx) : (s.setMbx fn m).buckets = s.buckets := rfl
@[simp] theorem State.setMbx_bucketAt (s : State) (fn : Nat) (m : Mbx) : (s.setMbx fn m).bucketAt = s.bucketAt := rfl
@[simp] theorem State.setMbx_bucketQ (s : State) (fn : Nat) (m : Mbx) : (s.setMbx fn m).bucketQ = s.bucketQ := rfl
@[simp] theorem State.setMbx_train (s : State) (fn : Nat) (m : Mbx) : (s.setMbx fn m).train = s.train := rfl
@[simp] theorem State.setMbx_tlbs (s : State) (fn : Nat) (m : Mbx) : (s.setMbx fn m).tlbs = s.tlbs := rfl
@[simp] theorem State.setMbx_walks (s : State) (fn : Nat) (m : Mbx) : (s.setMbx fn m).walks = s.walks := rfl
@[simp] theorem State.setMbx_faults (s : State) (fn : Nat) (m : Mbx) : (s.setMbx fn m).faults = s.faults := rfl
@[simp] theorem State.setMbx_gens (s : State) (fn : Nat) (m : Mbx) : (s.setMbx fn m).gens = s.gens := rfl
@[simp] theorem State.setMbx_ctxs (s : State) (fn : Nat) (m : Mbx) : (s.setMbx fn m).ctxs = s.ctxs := rfl
@[simp] theorem State.setMbx_mems (s : State) (fn : Nat) (m : Mbx) : (s.setMbx fn m).mems = s.mems := rfl
@[simp] theorem State.setMbx_sigs (s : State) (fn : Nat) (m : Mbx) : (s.setMbx fn m).sigs = s.sigs := rfl
@[simp] theorem State.setMbx_arcs (s : State) (fn : Nat) (m : Mbx) : (s.setMbx fn m).arcs = s.arcs := rfl
@[simp] theorem State.setMbx_rings (s : State) (fn : Nat) (m : Mbx) : (s.setMbx fn m).rings = s.rings := rfl
@[simp] theorem State.setMbx_ctls (s : State) (fn : Nat) (m : Mbx) : (s.setMbx fn m).ctls = s.ctls := rfl
@[simp] theorem State.setMbx_peers (s : State) (fn : Nat) (m : Mbx) : (s.setMbx fn m).peers = s.peers := rfl
@[simp] theorem State.setMbx_parkq (s : State) (fn : Nat) (m : Mbx) : (s.setMbx fn m).parkq = s.parkq := rfl
@[simp] theorem State.setMbx_watch (s : State) (fn : Nat) (m : Mbx) : (s.setMbx fn m).watch = s.watch := rfl
@[simp] theorem State.setMbx_sigAdds (s : State) (fn : Nat) (m : Mbx) : (s.setMbx fn m).sigAdds = s.sigAdds := rfl
@[simp] theorem State.setMbx_addHandle (s : State) (fn : Nat) (m : Mbx) : (s.setMbx fn m).addHandle = s.addHandle := rfl
@[simp] theorem State.setMbx_rejects (s : State) (fn : Nat) (m : Mbx) : (s.setMbx fn m).rejects = s.rejects := rfl
@[simp] theorem State.setMbx_chords (s : State) (fn : Nat) (m : Mbx) : (s.setMbx fn m).chords = s.chords := rfl
@[simp] theorem State.setMbx_links (s : State) (fn : Nat) (m : Mbx) : (s.setMbx fn m).links = s.links := rfl
@[simp] theorem State.setMbx_clusters (s : State) (fn : Nat) (m : Mbx) : (s.setMbx fn m).clusters = s.clusters := rfl
@[simp] theorem State.setMbx_duty (s : State) (fn : Nat) (m : Mbx) : (s.setMbx fn m).duty = s.duty := rfl
@[simp] theorem State.setMbx_grants (s : State) (fn : Nat) (m : Mbx) : (s.setMbx fn m).grants = s.grants := rfl
@[simp] theorem State.setMbx_powerAt (s : State) (fn : Nat) (m : Mbx) : (s.setMbx fn m).powerAt = s.powerAt := rfl
@[simp] theorem State.setMbx_overCap (s : State) (fn : Nat) (m : Mbx) : (s.setMbx fn m).overCap = s.overCap := rfl
@[simp] theorem State.setMbx_sites (s : State) (fn : Nat) (m : Mbx) : (s.setMbx fn m).sites = s.sites := rfl
@[simp] theorem State.setMbx_winLog (s : State) (fn : Nat) (m : Mbx) : (s.setMbx fn m).winLog = s.winLog := rfl
@[simp] theorem State.setMbx_life (s : State) (fn : Nat) (m : Mbx) : (s.setMbx fn m).life = s.life := rfl
@[simp] theorem State.setMbx_ledger (s : State) (fn : Nat) (m : Mbx) : (s.setMbx fn m).ledger = s.ledger := rfl
@[simp] theorem State.setMbx_floors (s : State) (fn : Nat) (m : Mbx) : (s.setMbx fn m).floors = s.floors := rfl
@[simp] theorem State.setMbx_retFuse (s : State) (fn : Nat) (m : Mbx) : (s.setMbx fn m).retFuse = s.retFuse := rfl
@[simp] theorem State.setMbx_trend (s : State) (fn : Nat) (m : Mbx) : (s.setMbx fn m).trend = s.trend := rfl
@[simp] theorem State.setMbx_timingDays (s : State) (fn : Nat) (m : Mbx) : (s.setMbx fn m).timingDays = s.timingDays := rfl
@[simp] theorem State.setMbx_traceProd (s : State) (fn : Nat) (m : Mbx) : (s.setMbx fn m).traceProd = s.traceProd := rfl
@[simp] theorem State.setMbx_traceCons (s : State) (fn : Nat) (m : Mbx) : (s.setMbx fn m).traceCons = s.traceCons := rfl
@[simp] theorem State.setMbx_traceSeq (s : State) (fn : Nat) (m : Mbx) : (s.setMbx fn m).traceSeq = s.traceSeq := rfl
@[simp] theorem State.setMbx_traceLoss (s : State) (fn : Nat) (m : Mbx) : (s.setMbx fn m).traceLoss = s.traceLoss := rfl
@[simp] theorem State.setMbx_watches (s : State) (fn : Nat) (m : Mbx) : (s.setMbx fn m).watches = s.watches := rfl
@[simp] theorem State.setMbx_tapIr (s : State) (fn : Nat) (m : Mbx) : (s.setMbx fn m).tapIr = s.tapIr := rfl
@[simp] theorem State.setMbx_tapDr (s : State) (fn : Nat) (m : Mbx) : (s.setMbx fn m).tapDr = s.tapDr := rfl
@[simp] theorem State.setMbx_keys (s : State) (fn : Nat) (m : Mbx) : (s.setMbx fn m).keys = s.keys := rfl
@[simp] theorem State.setMbx_triples (s : State) (fn : Nat) (m : Mbx) : (s.setMbx fn m).triples = s.triples := rfl
@[simp] theorem State.setMbx_spdm (s : State) (fn : Nat) (m : Mbx) : (s.setMbx fn m).spdm = s.spdm := rfl
@[simp] theorem State.setMbx_aux (s : State) (fn : Nat) (m : Mbx) : (s.setMbx fn m).aux = s.aux := rfl
@[simp] theorem State.setMbx_vin48 (s : State) (fn : Nat) (m : Mbx) : (s.setMbx fn m).vin48 = s.vin48 := rfl
@[simp] theorem State.setMbx_refclk (s : State) (fn : Nat) (m : Mbx) : (s.setMbx fn m).refclk = s.refclk := rfl
@[simp] theorem State.setMbx_powered (s : State) (fn : Nat) (m : Mbx) : (s.setMbx fn m).powered = s.powered := rfl
@[simp] theorem State.setMbx_ctlReady (s : State) (fn : Nat) (m : Mbx) : (s.setMbx fn m).ctlReady = s.ctlReady := rfl
@[simp] theorem State.setMbx_hostTraining (s : State) (fn : Nat) (m : Mbx) : (s.setMbx fn m).hostTraining = s.hostTraining := rfl
@[simp] theorem State.setMbx_hostLost (s : State) (fn : Nat) (m : Mbx) : (s.setMbx fn m).hostLost = s.hostLost := rfl
@[simp] theorem State.setMbx_throttle (s : State) (fn : Nat) (m : Mbx) : (s.setMbx fn m).throttle = s.throttle := rfl
@[simp] theorem State.setMbx_thermTrip (s : State) (fn : Nat) (m : Mbx) : (s.setMbx fn m).thermTrip = s.thermTrip := rfl
@[simp] theorem State.setMbx_alert (s : State) (fn : Nat) (m : Mbx) : (s.setMbx fn m).alert = s.alert := rfl
@[simp] theorem State.setMbx_currentLimit (s : State) (fn : Nat) (m : Mbx) : (s.setMbx fn m).currentLimit = s.currentLimit := rfl
@[simp] theorem State.setMbx_safeThermal (s : State) (fn : Nat) (m : Mbx) : (s.setMbx fn m).safeThermal = s.safeThermal := rfl
@[simp] theorem State.setMbx_hot (s : State) (fn : Nat) (m : Mbx) : (s.setMbx fn m).hot = s.hot := rfl
@[simp] theorem State.setMbx_starting (s : State) (fn : Nat) (m : Mbx) : (s.setMbx fn m).starting = s.starting := rfl
@[simp] theorem State.setMbx_failedStart (s : State) (fn : Nat) (m : Mbx) : (s.setMbx fn m).failedStart = s.failedStart := rfl
@[simp] theorem State.setMbx_warmFails (s : State) (fn : Nat) (m : Mbx) : (s.setMbx fn m).warmFails = s.warmFails := rfl
@[simp] theorem State.setMbx_fetchStop (s : State) (fn : Nat) (m : Mbx) : (s.setMbx fn m).fetchStop = s.fetchStop := rfl
@[simp] theorem State.setMbx_identifyEnds (s : State) (fn : Nat) (m : Mbx) : (s.setMbx fn m).identifyEnds = s.identifyEnds := rfl
@[simp] theorem State.setMbx_latchTimer (s : State) (fn : Nat) (m : Mbx) : (s.setMbx fn m).latchTimer = s.latchTimer := rfl
@[simp] theorem State.setMbx_latchStop (s : State) (fn : Nat) (m : Mbx) : (s.setMbx fn m).latchStop = s.latchStop := rfl
@[simp] theorem State.setMbx_teardowns (s : State) (fn : Nat) (m : Mbx) : (s.setMbx fn m).teardowns = s.teardowns := rfl

/-! ### State.setArc -/

@[simp] theorem State.setArc_pending (s : State) (n : Nat) (a : Arc) : (s.setArc n a).pending = s.pending := rfl
@[simp] theorem State.setArc_admitted (s : State) (n : Nat) (a : Arc) : (s.setArc n a).admitted = s.admitted := rfl
@[simp] theorem State.setArc_layout (s : State) (n : Nat) (a : Arc) : (s.setArc n a).layout = s.layout := rfl
@[simp] theorem State.setArc_hostTables (s : State) (n : Nat) (a : Arc) : (s.setArc n a).hostTables = s.hostTables := rfl
@[simp] theorem State.setArc_tapRsp (s : State) (n : Nat) (a : Arc) : (s.setArc n a).tapRsp = s.tapRsp := rfl
@[simp] theorem State.setArc_vers (s : State) (n : Nat) (a : Arc) : (s.setArc n a).vers = s.vers := rfl
@[simp] theorem State.setArc_now (s : State) (n : Nat) (a : Arc) : (s.setArc n a).now = s.now := rfl
@[simp] theorem State.setArc_timeZero (s : State) (n : Nat) (a : Arc) : (s.setArc n a).timeZero = s.timeZero := rfl
@[simp] theorem State.setArc_free (s : State) (n : Nat) (a : Arc) : (s.setArc n a).free = s.free := rfl
@[simp] theorem State.setArc_obj (s : State) (n : Nat) (a : Arc) : (s.setArc n a).obj = s.obj := rfl
@[simp] theorem State.setArc_out (s : State) (n : Nat) (a : Arc) : (s.setArc n a).out = s.out := rfl
@[simp] theorem State.setArc_sess (s : State) (n : Nat) (a : Arc) : (s.setArc n a).sess = s.sess := rfl
@[simp] theorem State.setArc_sids (s : State) (n : Nat) (a : Arc) : (s.setArc n a).sids = s.sids := rfl
@[simp] theorem State.setArc_fails (s : State) (n : Nat) (a : Arc) : (s.setArc n a).fails = s.fails := rfl
@[simp] theorem State.setArc_locks (s : State) (n : Nat) (a : Arc) : (s.setArc n a).locks = s.locks := rfl
@[simp] theorem State.setArc_subs (s : State) (n : Nat) (a : Arc) : (s.setArc n a).subs = s.subs := rfl
@[simp] theorem State.setArc_nextSub (s : State) (n : Nat) (a : Arc) : (s.setArc n a).nextSub = s.nextSub := rfl
@[simp] theorem State.setArc_mbx (s : State) (n : Nat) (a : Arc) : (s.setArc n a).mbx = s.mbx := rfl
@[simp] theorem State.setArc_flash (s : State) (n : Nat) (a : Arc) : (s.setArc n a).flash = s.flash := rfl
@[simp] theorem State.setArc_seqs (s : State) (n : Nat) (a : Arc) : (s.setArc n a).seqs = s.seqs := rfl
@[simp] theorem State.setArc_arrays (s : State) (n : Nat) (a : Arc) : (s.setArc n a).arrays = s.arrays := rfl
@[simp] theorem State.setArc_tables (s : State) (n : Nat) (a : Arc) : (s.setArc n a).tables = s.tables := rfl
@[simp] theorem State.setArc_groups (s : State) (n : Nat) (a : Arc) : (s.setArc n a).groups = s.groups := rfl
@[simp] theorem State.setArc_blocks (s : State) (n : Nat) (a : Arc) : (s.setArc n a).blocks = s.blocks := rfl
@[simp] theorem State.setArc_cores (s : State) (n : Nat) (a : Arc) : (s.setArc n a).cores = s.cores := rfl
@[simp] theorem State.setArc_l1d (s : State) (n : Nat) (a : Arc) : (s.setArc n a).l1d = s.l1d := rfl
@[simp] theorem State.setArc_l1i (s : State) (n : Nat) (a : Arc) : (s.setArc n a).l1i = s.l1i := rfl
@[simp] theorem State.setArc_dc (s : State) (n : Nat) (a : Arc) : (s.setArc n a).dc = s.dc := rfl
@[simp] theorem State.setArc_victim (s : State) (n : Nat) (a : Arc) : (s.setArc n a).victim = s.victim := rfl
@[simp] theorem State.setArc_reclaim (s : State) (n : Nat) (a : Arc) : (s.setArc n a).reclaim = s.reclaim := rfl
@[simp] theorem State.setArc_dup (s : State) (n : Nat) (a : Arc) : (s.setArc n a).dup = s.dup := rfl
@[simp] theorem State.setArc_tx (s : State) (n : Nat) (a : Arc) : (s.setArc n a).tx = s.tx := rfl
@[simp] theorem State.setArc_txq (s : State) (n : Nat) (a : Arc) : (s.setArc n a).txq = s.txq := rfl
@[simp] theorem State.setArc_lattice (s : State) (n : Nat) (a : Arc) : (s.setArc n a).lattice = s.lattice := rfl
@[simp] theorem State.setArc_hlocks (s : State) (n : Nat) (a : Arc) : (s.setArc n a).hlocks = s.hlocks := rfl
@[simp] theorem State.setArc_hbm (s : State) (n : Nat) (a : Arc) : (s.setArc n a).hbm = s.hbm := rfl
@[simp] theorem State.setArc_poison (s : State) (n : Nat) (a : Arc) : (s.setArc n a).poison = s.poison := rfl
@[simp] theorem State.setArc_host (s : State) (n : Nat) (a : Arc) : (s.setArc n a).host = s.host := rfl
@[simp] theorem State.setArc_chan (s : State) (n : Nat) (a : Arc) : (s.setArc n a).chan = s.chan := rfl
@[simp] theorem State.setArc_ramp (s : State) (n : Nat) (a : Arc) : (s.setArc n a).ramp = s.ramp := rfl
@[simp] theorem State.setArc_buckets (s : State) (n : Nat) (a : Arc) : (s.setArc n a).buckets = s.buckets := rfl
@[simp] theorem State.setArc_bucketAt (s : State) (n : Nat) (a : Arc) : (s.setArc n a).bucketAt = s.bucketAt := rfl
@[simp] theorem State.setArc_bucketQ (s : State) (n : Nat) (a : Arc) : (s.setArc n a).bucketQ = s.bucketQ := rfl
@[simp] theorem State.setArc_train (s : State) (n : Nat) (a : Arc) : (s.setArc n a).train = s.train := rfl
@[simp] theorem State.setArc_tlbs (s : State) (n : Nat) (a : Arc) : (s.setArc n a).tlbs = s.tlbs := rfl
@[simp] theorem State.setArc_walks (s : State) (n : Nat) (a : Arc) : (s.setArc n a).walks = s.walks := rfl
@[simp] theorem State.setArc_faults (s : State) (n : Nat) (a : Arc) : (s.setArc n a).faults = s.faults := rfl
@[simp] theorem State.setArc_gens (s : State) (n : Nat) (a : Arc) : (s.setArc n a).gens = s.gens := rfl
@[simp] theorem State.setArc_ctxs (s : State) (n : Nat) (a : Arc) : (s.setArc n a).ctxs = s.ctxs := rfl
@[simp] theorem State.setArc_mems (s : State) (n : Nat) (a : Arc) : (s.setArc n a).mems = s.mems := rfl
@[simp] theorem State.setArc_sigs (s : State) (n : Nat) (a : Arc) : (s.setArc n a).sigs = s.sigs := rfl
@[simp] theorem State.setArc_arcs (s : State) (n : Nat) (a : Arc) : (s.setArc n a).arcs = Tbl.set s.arcs n a := rfl
@[simp] theorem State.setArc_rings (s : State) (n : Nat) (a : Arc) : (s.setArc n a).rings = s.rings := rfl
@[simp] theorem State.setArc_ctls (s : State) (n : Nat) (a : Arc) : (s.setArc n a).ctls = s.ctls := rfl
@[simp] theorem State.setArc_peers (s : State) (n : Nat) (a : Arc) : (s.setArc n a).peers = s.peers := rfl
@[simp] theorem State.setArc_parkq (s : State) (n : Nat) (a : Arc) : (s.setArc n a).parkq = s.parkq := rfl
@[simp] theorem State.setArc_watch (s : State) (n : Nat) (a : Arc) : (s.setArc n a).watch = s.watch := rfl
@[simp] theorem State.setArc_sigAdds (s : State) (n : Nat) (a : Arc) : (s.setArc n a).sigAdds = s.sigAdds := rfl
@[simp] theorem State.setArc_addHandle (s : State) (n : Nat) (a : Arc) : (s.setArc n a).addHandle = s.addHandle := rfl
@[simp] theorem State.setArc_rejects (s : State) (n : Nat) (a : Arc) : (s.setArc n a).rejects = s.rejects := rfl
@[simp] theorem State.setArc_chords (s : State) (n : Nat) (a : Arc) : (s.setArc n a).chords = s.chords := rfl
@[simp] theorem State.setArc_links (s : State) (n : Nat) (a : Arc) : (s.setArc n a).links = s.links := rfl
@[simp] theorem State.setArc_clusters (s : State) (n : Nat) (a : Arc) : (s.setArc n a).clusters = s.clusters := rfl
@[simp] theorem State.setArc_duty (s : State) (n : Nat) (a : Arc) : (s.setArc n a).duty = s.duty := rfl
@[simp] theorem State.setArc_grants (s : State) (n : Nat) (a : Arc) : (s.setArc n a).grants = s.grants := rfl
@[simp] theorem State.setArc_powerAt (s : State) (n : Nat) (a : Arc) : (s.setArc n a).powerAt = s.powerAt := rfl
@[simp] theorem State.setArc_overCap (s : State) (n : Nat) (a : Arc) : (s.setArc n a).overCap = s.overCap := rfl
@[simp] theorem State.setArc_sites (s : State) (n : Nat) (a : Arc) : (s.setArc n a).sites = s.sites := rfl
@[simp] theorem State.setArc_winLog (s : State) (n : Nat) (a : Arc) : (s.setArc n a).winLog = s.winLog := rfl
@[simp] theorem State.setArc_life (s : State) (n : Nat) (a : Arc) : (s.setArc n a).life = s.life := rfl
@[simp] theorem State.setArc_ledger (s : State) (n : Nat) (a : Arc) : (s.setArc n a).ledger = s.ledger := rfl
@[simp] theorem State.setArc_floors (s : State) (n : Nat) (a : Arc) : (s.setArc n a).floors = s.floors := rfl
@[simp] theorem State.setArc_retFuse (s : State) (n : Nat) (a : Arc) : (s.setArc n a).retFuse = s.retFuse := rfl
@[simp] theorem State.setArc_trend (s : State) (n : Nat) (a : Arc) : (s.setArc n a).trend = s.trend := rfl
@[simp] theorem State.setArc_timingDays (s : State) (n : Nat) (a : Arc) : (s.setArc n a).timingDays = s.timingDays := rfl
@[simp] theorem State.setArc_traceProd (s : State) (n : Nat) (a : Arc) : (s.setArc n a).traceProd = s.traceProd := rfl
@[simp] theorem State.setArc_traceCons (s : State) (n : Nat) (a : Arc) : (s.setArc n a).traceCons = s.traceCons := rfl
@[simp] theorem State.setArc_traceSeq (s : State) (n : Nat) (a : Arc) : (s.setArc n a).traceSeq = s.traceSeq := rfl
@[simp] theorem State.setArc_traceLoss (s : State) (n : Nat) (a : Arc) : (s.setArc n a).traceLoss = s.traceLoss := rfl
@[simp] theorem State.setArc_watches (s : State) (n : Nat) (a : Arc) : (s.setArc n a).watches = s.watches := rfl
@[simp] theorem State.setArc_tapIr (s : State) (n : Nat) (a : Arc) : (s.setArc n a).tapIr = s.tapIr := rfl
@[simp] theorem State.setArc_tapDr (s : State) (n : Nat) (a : Arc) : (s.setArc n a).tapDr = s.tapDr := rfl
@[simp] theorem State.setArc_keys (s : State) (n : Nat) (a : Arc) : (s.setArc n a).keys = s.keys := rfl
@[simp] theorem State.setArc_triples (s : State) (n : Nat) (a : Arc) : (s.setArc n a).triples = s.triples := rfl
@[simp] theorem State.setArc_spdm (s : State) (n : Nat) (a : Arc) : (s.setArc n a).spdm = s.spdm := rfl
@[simp] theorem State.setArc_aux (s : State) (n : Nat) (a : Arc) : (s.setArc n a).aux = s.aux := rfl
@[simp] theorem State.setArc_vin48 (s : State) (n : Nat) (a : Arc) : (s.setArc n a).vin48 = s.vin48 := rfl
@[simp] theorem State.setArc_refclk (s : State) (n : Nat) (a : Arc) : (s.setArc n a).refclk = s.refclk := rfl
@[simp] theorem State.setArc_powered (s : State) (n : Nat) (a : Arc) : (s.setArc n a).powered = s.powered := rfl
@[simp] theorem State.setArc_ctlReady (s : State) (n : Nat) (a : Arc) : (s.setArc n a).ctlReady = s.ctlReady := rfl
@[simp] theorem State.setArc_hostTraining (s : State) (n : Nat) (a : Arc) : (s.setArc n a).hostTraining = s.hostTraining := rfl
@[simp] theorem State.setArc_hostLost (s : State) (n : Nat) (a : Arc) : (s.setArc n a).hostLost = s.hostLost := rfl
@[simp] theorem State.setArc_throttle (s : State) (n : Nat) (a : Arc) : (s.setArc n a).throttle = s.throttle := rfl
@[simp] theorem State.setArc_thermTrip (s : State) (n : Nat) (a : Arc) : (s.setArc n a).thermTrip = s.thermTrip := rfl
@[simp] theorem State.setArc_alert (s : State) (n : Nat) (a : Arc) : (s.setArc n a).alert = s.alert := rfl
@[simp] theorem State.setArc_currentLimit (s : State) (n : Nat) (a : Arc) : (s.setArc n a).currentLimit = s.currentLimit := rfl
@[simp] theorem State.setArc_safeThermal (s : State) (n : Nat) (a : Arc) : (s.setArc n a).safeThermal = s.safeThermal := rfl
@[simp] theorem State.setArc_hot (s : State) (n : Nat) (a : Arc) : (s.setArc n a).hot = s.hot := rfl
@[simp] theorem State.setArc_starting (s : State) (n : Nat) (a : Arc) : (s.setArc n a).starting = s.starting := rfl
@[simp] theorem State.setArc_failedStart (s : State) (n : Nat) (a : Arc) : (s.setArc n a).failedStart = s.failedStart := rfl
@[simp] theorem State.setArc_warmFails (s : State) (n : Nat) (a : Arc) : (s.setArc n a).warmFails = s.warmFails := rfl
@[simp] theorem State.setArc_fetchStop (s : State) (n : Nat) (a : Arc) : (s.setArc n a).fetchStop = s.fetchStop := rfl
@[simp] theorem State.setArc_identifyEnds (s : State) (n : Nat) (a : Arc) : (s.setArc n a).identifyEnds = s.identifyEnds := rfl
@[simp] theorem State.setArc_latchTimer (s : State) (n : Nat) (a : Arc) : (s.setArc n a).latchTimer = s.latchTimer := rfl
@[simp] theorem State.setArc_latchStop (s : State) (n : Nat) (a : Arc) : (s.setArc n a).latchStop = s.latchStop := rfl
@[simp] theorem State.setArc_teardowns (s : State) (n : Nat) (a : Arc) : (s.setArc n a).teardowns = s.teardowns := rfl

/-! ### State.setChord -/

@[simp] theorem State.setChord_pending (s : State) (i : Nat) (c : Chord) : (s.setChord i c).pending = s.pending := rfl
@[simp] theorem State.setChord_admitted (s : State) (i : Nat) (c : Chord) : (s.setChord i c).admitted = s.admitted := rfl
@[simp] theorem State.setChord_layout (s : State) (i : Nat) (c : Chord) : (s.setChord i c).layout = s.layout := rfl
@[simp] theorem State.setChord_hostTables (s : State) (i : Nat) (c : Chord) : (s.setChord i c).hostTables = s.hostTables := rfl
@[simp] theorem State.setChord_tapRsp (s : State) (i : Nat) (c : Chord) : (s.setChord i c).tapRsp = s.tapRsp := rfl
@[simp] theorem State.setChord_vers (s : State) (i : Nat) (c : Chord) : (s.setChord i c).vers = s.vers := rfl
@[simp] theorem State.setChord_now (s : State) (i : Nat) (c : Chord) : (s.setChord i c).now = s.now := rfl
@[simp] theorem State.setChord_timeZero (s : State) (i : Nat) (c : Chord) : (s.setChord i c).timeZero = s.timeZero := rfl
@[simp] theorem State.setChord_free (s : State) (i : Nat) (c : Chord) : (s.setChord i c).free = s.free := rfl
@[simp] theorem State.setChord_obj (s : State) (i : Nat) (c : Chord) : (s.setChord i c).obj = s.obj := rfl
@[simp] theorem State.setChord_out (s : State) (i : Nat) (c : Chord) : (s.setChord i c).out = s.out := rfl
@[simp] theorem State.setChord_sess (s : State) (i : Nat) (c : Chord) : (s.setChord i c).sess = s.sess := rfl
@[simp] theorem State.setChord_sids (s : State) (i : Nat) (c : Chord) : (s.setChord i c).sids = s.sids := rfl
@[simp] theorem State.setChord_fails (s : State) (i : Nat) (c : Chord) : (s.setChord i c).fails = s.fails := rfl
@[simp] theorem State.setChord_locks (s : State) (i : Nat) (c : Chord) : (s.setChord i c).locks = s.locks := rfl
@[simp] theorem State.setChord_subs (s : State) (i : Nat) (c : Chord) : (s.setChord i c).subs = s.subs := rfl
@[simp] theorem State.setChord_nextSub (s : State) (i : Nat) (c : Chord) : (s.setChord i c).nextSub = s.nextSub := rfl
@[simp] theorem State.setChord_mbx (s : State) (i : Nat) (c : Chord) : (s.setChord i c).mbx = s.mbx := rfl
@[simp] theorem State.setChord_flash (s : State) (i : Nat) (c : Chord) : (s.setChord i c).flash = s.flash := rfl
@[simp] theorem State.setChord_seqs (s : State) (i : Nat) (c : Chord) : (s.setChord i c).seqs = s.seqs := rfl
@[simp] theorem State.setChord_arrays (s : State) (i : Nat) (c : Chord) : (s.setChord i c).arrays = s.arrays := rfl
@[simp] theorem State.setChord_tables (s : State) (i : Nat) (c : Chord) : (s.setChord i c).tables = s.tables := rfl
@[simp] theorem State.setChord_groups (s : State) (i : Nat) (c : Chord) : (s.setChord i c).groups = s.groups := rfl
@[simp] theorem State.setChord_blocks (s : State) (i : Nat) (c : Chord) : (s.setChord i c).blocks = s.blocks := rfl
@[simp] theorem State.setChord_cores (s : State) (i : Nat) (c : Chord) : (s.setChord i c).cores = s.cores := rfl
@[simp] theorem State.setChord_l1d (s : State) (i : Nat) (c : Chord) : (s.setChord i c).l1d = s.l1d := rfl
@[simp] theorem State.setChord_l1i (s : State) (i : Nat) (c : Chord) : (s.setChord i c).l1i = s.l1i := rfl
@[simp] theorem State.setChord_dc (s : State) (i : Nat) (c : Chord) : (s.setChord i c).dc = s.dc := rfl
@[simp] theorem State.setChord_victim (s : State) (i : Nat) (c : Chord) : (s.setChord i c).victim = s.victim := rfl
@[simp] theorem State.setChord_reclaim (s : State) (i : Nat) (c : Chord) : (s.setChord i c).reclaim = s.reclaim := rfl
@[simp] theorem State.setChord_dup (s : State) (i : Nat) (c : Chord) : (s.setChord i c).dup = s.dup := rfl
@[simp] theorem State.setChord_tx (s : State) (i : Nat) (c : Chord) : (s.setChord i c).tx = s.tx := rfl
@[simp] theorem State.setChord_txq (s : State) (i : Nat) (c : Chord) : (s.setChord i c).txq = s.txq := rfl
@[simp] theorem State.setChord_lattice (s : State) (i : Nat) (c : Chord) : (s.setChord i c).lattice = s.lattice := rfl
@[simp] theorem State.setChord_hlocks (s : State) (i : Nat) (c : Chord) : (s.setChord i c).hlocks = s.hlocks := rfl
@[simp] theorem State.setChord_hbm (s : State) (i : Nat) (c : Chord) : (s.setChord i c).hbm = s.hbm := rfl
@[simp] theorem State.setChord_poison (s : State) (i : Nat) (c : Chord) : (s.setChord i c).poison = s.poison := rfl
@[simp] theorem State.setChord_host (s : State) (i : Nat) (c : Chord) : (s.setChord i c).host = s.host := rfl
@[simp] theorem State.setChord_chan (s : State) (i : Nat) (c : Chord) : (s.setChord i c).chan = s.chan := rfl
@[simp] theorem State.setChord_ramp (s : State) (i : Nat) (c : Chord) : (s.setChord i c).ramp = s.ramp := rfl
@[simp] theorem State.setChord_buckets (s : State) (i : Nat) (c : Chord) : (s.setChord i c).buckets = s.buckets := rfl
@[simp] theorem State.setChord_bucketAt (s : State) (i : Nat) (c : Chord) : (s.setChord i c).bucketAt = s.bucketAt := rfl
@[simp] theorem State.setChord_bucketQ (s : State) (i : Nat) (c : Chord) : (s.setChord i c).bucketQ = s.bucketQ := rfl
@[simp] theorem State.setChord_train (s : State) (i : Nat) (c : Chord) : (s.setChord i c).train = s.train := rfl
@[simp] theorem State.setChord_tlbs (s : State) (i : Nat) (c : Chord) : (s.setChord i c).tlbs = s.tlbs := rfl
@[simp] theorem State.setChord_walks (s : State) (i : Nat) (c : Chord) : (s.setChord i c).walks = s.walks := rfl
@[simp] theorem State.setChord_faults (s : State) (i : Nat) (c : Chord) : (s.setChord i c).faults = s.faults := rfl
@[simp] theorem State.setChord_gens (s : State) (i : Nat) (c : Chord) : (s.setChord i c).gens = s.gens := rfl
@[simp] theorem State.setChord_ctxs (s : State) (i : Nat) (c : Chord) : (s.setChord i c).ctxs = s.ctxs := rfl
@[simp] theorem State.setChord_mems (s : State) (i : Nat) (c : Chord) : (s.setChord i c).mems = s.mems := rfl
@[simp] theorem State.setChord_sigs (s : State) (i : Nat) (c : Chord) : (s.setChord i c).sigs = s.sigs := rfl
@[simp] theorem State.setChord_arcs (s : State) (i : Nat) (c : Chord) : (s.setChord i c).arcs = s.arcs := rfl
@[simp] theorem State.setChord_rings (s : State) (i : Nat) (c : Chord) : (s.setChord i c).rings = s.rings := rfl
@[simp] theorem State.setChord_ctls (s : State) (i : Nat) (c : Chord) : (s.setChord i c).ctls = s.ctls := rfl
@[simp] theorem State.setChord_peers (s : State) (i : Nat) (c : Chord) : (s.setChord i c).peers = s.peers := rfl
@[simp] theorem State.setChord_parkq (s : State) (i : Nat) (c : Chord) : (s.setChord i c).parkq = s.parkq := rfl
@[simp] theorem State.setChord_watch (s : State) (i : Nat) (c : Chord) : (s.setChord i c).watch = s.watch := rfl
@[simp] theorem State.setChord_sigAdds (s : State) (i : Nat) (c : Chord) : (s.setChord i c).sigAdds = s.sigAdds := rfl
@[simp] theorem State.setChord_addHandle (s : State) (i : Nat) (c : Chord) : (s.setChord i c).addHandle = s.addHandle := rfl
@[simp] theorem State.setChord_rejects (s : State) (i : Nat) (c : Chord) : (s.setChord i c).rejects = s.rejects := rfl
@[simp] theorem State.setChord_chords (s : State) (i : Nat) (c : Chord) : (s.setChord i c).chords = Tbl.set s.chords i c := rfl
@[simp] theorem State.setChord_links (s : State) (i : Nat) (c : Chord) : (s.setChord i c).links = s.links := rfl
@[simp] theorem State.setChord_clusters (s : State) (i : Nat) (c : Chord) : (s.setChord i c).clusters = s.clusters := rfl
@[simp] theorem State.setChord_duty (s : State) (i : Nat) (c : Chord) : (s.setChord i c).duty = s.duty := rfl
@[simp] theorem State.setChord_grants (s : State) (i : Nat) (c : Chord) : (s.setChord i c).grants = s.grants := rfl
@[simp] theorem State.setChord_powerAt (s : State) (i : Nat) (c : Chord) : (s.setChord i c).powerAt = s.powerAt := rfl
@[simp] theorem State.setChord_overCap (s : State) (i : Nat) (c : Chord) : (s.setChord i c).overCap = s.overCap := rfl
@[simp] theorem State.setChord_sites (s : State) (i : Nat) (c : Chord) : (s.setChord i c).sites = s.sites := rfl
@[simp] theorem State.setChord_winLog (s : State) (i : Nat) (c : Chord) : (s.setChord i c).winLog = s.winLog := rfl
@[simp] theorem State.setChord_life (s : State) (i : Nat) (c : Chord) : (s.setChord i c).life = s.life := rfl
@[simp] theorem State.setChord_ledger (s : State) (i : Nat) (c : Chord) : (s.setChord i c).ledger = s.ledger := rfl
@[simp] theorem State.setChord_floors (s : State) (i : Nat) (c : Chord) : (s.setChord i c).floors = s.floors := rfl
@[simp] theorem State.setChord_retFuse (s : State) (i : Nat) (c : Chord) : (s.setChord i c).retFuse = s.retFuse := rfl
@[simp] theorem State.setChord_trend (s : State) (i : Nat) (c : Chord) : (s.setChord i c).trend = s.trend := rfl
@[simp] theorem State.setChord_timingDays (s : State) (i : Nat) (c : Chord) : (s.setChord i c).timingDays = s.timingDays := rfl
@[simp] theorem State.setChord_traceProd (s : State) (i : Nat) (c : Chord) : (s.setChord i c).traceProd = s.traceProd := rfl
@[simp] theorem State.setChord_traceCons (s : State) (i : Nat) (c : Chord) : (s.setChord i c).traceCons = s.traceCons := rfl
@[simp] theorem State.setChord_traceSeq (s : State) (i : Nat) (c : Chord) : (s.setChord i c).traceSeq = s.traceSeq := rfl
@[simp] theorem State.setChord_traceLoss (s : State) (i : Nat) (c : Chord) : (s.setChord i c).traceLoss = s.traceLoss := rfl
@[simp] theorem State.setChord_watches (s : State) (i : Nat) (c : Chord) : (s.setChord i c).watches = s.watches := rfl
@[simp] theorem State.setChord_tapIr (s : State) (i : Nat) (c : Chord) : (s.setChord i c).tapIr = s.tapIr := rfl
@[simp] theorem State.setChord_tapDr (s : State) (i : Nat) (c : Chord) : (s.setChord i c).tapDr = s.tapDr := rfl
@[simp] theorem State.setChord_keys (s : State) (i : Nat) (c : Chord) : (s.setChord i c).keys = s.keys := rfl
@[simp] theorem State.setChord_triples (s : State) (i : Nat) (c : Chord) : (s.setChord i c).triples = s.triples := rfl
@[simp] theorem State.setChord_spdm (s : State) (i : Nat) (c : Chord) : (s.setChord i c).spdm = s.spdm := rfl
@[simp] theorem State.setChord_aux (s : State) (i : Nat) (c : Chord) : (s.setChord i c).aux = s.aux := rfl
@[simp] theorem State.setChord_vin48 (s : State) (i : Nat) (c : Chord) : (s.setChord i c).vin48 = s.vin48 := rfl
@[simp] theorem State.setChord_refclk (s : State) (i : Nat) (c : Chord) : (s.setChord i c).refclk = s.refclk := rfl
@[simp] theorem State.setChord_powered (s : State) (i : Nat) (c : Chord) : (s.setChord i c).powered = s.powered := rfl
@[simp] theorem State.setChord_ctlReady (s : State) (i : Nat) (c : Chord) : (s.setChord i c).ctlReady = s.ctlReady := rfl
@[simp] theorem State.setChord_hostTraining (s : State) (i : Nat) (c : Chord) : (s.setChord i c).hostTraining = s.hostTraining := rfl
@[simp] theorem State.setChord_hostLost (s : State) (i : Nat) (c : Chord) : (s.setChord i c).hostLost = s.hostLost := rfl
@[simp] theorem State.setChord_throttle (s : State) (i : Nat) (c : Chord) : (s.setChord i c).throttle = s.throttle := rfl
@[simp] theorem State.setChord_thermTrip (s : State) (i : Nat) (c : Chord) : (s.setChord i c).thermTrip = s.thermTrip := rfl
@[simp] theorem State.setChord_alert (s : State) (i : Nat) (c : Chord) : (s.setChord i c).alert = s.alert := rfl
@[simp] theorem State.setChord_currentLimit (s : State) (i : Nat) (c : Chord) : (s.setChord i c).currentLimit = s.currentLimit := rfl
@[simp] theorem State.setChord_safeThermal (s : State) (i : Nat) (c : Chord) : (s.setChord i c).safeThermal = s.safeThermal := rfl
@[simp] theorem State.setChord_hot (s : State) (i : Nat) (c : Chord) : (s.setChord i c).hot = s.hot := rfl
@[simp] theorem State.setChord_starting (s : State) (i : Nat) (c : Chord) : (s.setChord i c).starting = s.starting := rfl
@[simp] theorem State.setChord_failedStart (s : State) (i : Nat) (c : Chord) : (s.setChord i c).failedStart = s.failedStart := rfl
@[simp] theorem State.setChord_warmFails (s : State) (i : Nat) (c : Chord) : (s.setChord i c).warmFails = s.warmFails := rfl
@[simp] theorem State.setChord_fetchStop (s : State) (i : Nat) (c : Chord) : (s.setChord i c).fetchStop = s.fetchStop := rfl
@[simp] theorem State.setChord_identifyEnds (s : State) (i : Nat) (c : Chord) : (s.setChord i c).identifyEnds = s.identifyEnds := rfl
@[simp] theorem State.setChord_latchTimer (s : State) (i : Nat) (c : Chord) : (s.setChord i c).latchTimer = s.latchTimer := rfl
@[simp] theorem State.setChord_latchStop (s : State) (i : Nat) (c : Chord) : (s.setChord i c).latchStop = s.latchStop := rfl
@[simp] theorem State.setChord_teardowns (s : State) (i : Nat) (c : Chord) : (s.setChord i c).teardowns = s.teardowns := rfl

/-! ### State.setRing -/

@[simp] theorem State.setRing_pending (s : State) (key : Nat) (r : Ring) : (s.setRing key r).pending = s.pending := rfl
@[simp] theorem State.setRing_admitted (s : State) (key : Nat) (r : Ring) : (s.setRing key r).admitted = s.admitted := rfl
@[simp] theorem State.setRing_layout (s : State) (key : Nat) (r : Ring) : (s.setRing key r).layout = s.layout := rfl
@[simp] theorem State.setRing_hostTables (s : State) (key : Nat) (r : Ring) : (s.setRing key r).hostTables = s.hostTables := rfl
@[simp] theorem State.setRing_tapRsp (s : State) (key : Nat) (r : Ring) : (s.setRing key r).tapRsp = s.tapRsp := rfl
@[simp] theorem State.setRing_vers (s : State) (key : Nat) (r : Ring) : (s.setRing key r).vers = s.vers := rfl
@[simp] theorem State.setRing_now (s : State) (key : Nat) (r : Ring) : (s.setRing key r).now = s.now := rfl
@[simp] theorem State.setRing_timeZero (s : State) (key : Nat) (r : Ring) : (s.setRing key r).timeZero = s.timeZero := rfl
@[simp] theorem State.setRing_free (s : State) (key : Nat) (r : Ring) : (s.setRing key r).free = s.free := rfl
@[simp] theorem State.setRing_obj (s : State) (key : Nat) (r : Ring) : (s.setRing key r).obj = s.obj := rfl
@[simp] theorem State.setRing_out (s : State) (key : Nat) (r : Ring) : (s.setRing key r).out = s.out := rfl
@[simp] theorem State.setRing_sess (s : State) (key : Nat) (r : Ring) : (s.setRing key r).sess = s.sess := rfl
@[simp] theorem State.setRing_sids (s : State) (key : Nat) (r : Ring) : (s.setRing key r).sids = s.sids := rfl
@[simp] theorem State.setRing_fails (s : State) (key : Nat) (r : Ring) : (s.setRing key r).fails = s.fails := rfl
@[simp] theorem State.setRing_locks (s : State) (key : Nat) (r : Ring) : (s.setRing key r).locks = s.locks := rfl
@[simp] theorem State.setRing_subs (s : State) (key : Nat) (r : Ring) : (s.setRing key r).subs = s.subs := rfl
@[simp] theorem State.setRing_nextSub (s : State) (key : Nat) (r : Ring) : (s.setRing key r).nextSub = s.nextSub := rfl
@[simp] theorem State.setRing_mbx (s : State) (key : Nat) (r : Ring) : (s.setRing key r).mbx = s.mbx := rfl
@[simp] theorem State.setRing_flash (s : State) (key : Nat) (r : Ring) : (s.setRing key r).flash = s.flash := rfl
@[simp] theorem State.setRing_seqs (s : State) (key : Nat) (r : Ring) : (s.setRing key r).seqs = s.seqs := rfl
@[simp] theorem State.setRing_arrays (s : State) (key : Nat) (r : Ring) : (s.setRing key r).arrays = s.arrays := rfl
@[simp] theorem State.setRing_tables (s : State) (key : Nat) (r : Ring) : (s.setRing key r).tables = s.tables := rfl
@[simp] theorem State.setRing_groups (s : State) (key : Nat) (r : Ring) : (s.setRing key r).groups = s.groups := rfl
@[simp] theorem State.setRing_blocks (s : State) (key : Nat) (r : Ring) : (s.setRing key r).blocks = s.blocks := rfl
@[simp] theorem State.setRing_cores (s : State) (key : Nat) (r : Ring) : (s.setRing key r).cores = s.cores := rfl
@[simp] theorem State.setRing_l1d (s : State) (key : Nat) (r : Ring) : (s.setRing key r).l1d = s.l1d := rfl
@[simp] theorem State.setRing_l1i (s : State) (key : Nat) (r : Ring) : (s.setRing key r).l1i = s.l1i := rfl
@[simp] theorem State.setRing_dc (s : State) (key : Nat) (r : Ring) : (s.setRing key r).dc = s.dc := rfl
@[simp] theorem State.setRing_victim (s : State) (key : Nat) (r : Ring) : (s.setRing key r).victim = s.victim := rfl
@[simp] theorem State.setRing_reclaim (s : State) (key : Nat) (r : Ring) : (s.setRing key r).reclaim = s.reclaim := rfl
@[simp] theorem State.setRing_dup (s : State) (key : Nat) (r : Ring) : (s.setRing key r).dup = s.dup := rfl
@[simp] theorem State.setRing_tx (s : State) (key : Nat) (r : Ring) : (s.setRing key r).tx = s.tx := rfl
@[simp] theorem State.setRing_txq (s : State) (key : Nat) (r : Ring) : (s.setRing key r).txq = s.txq := rfl
@[simp] theorem State.setRing_lattice (s : State) (key : Nat) (r : Ring) : (s.setRing key r).lattice = s.lattice := rfl
@[simp] theorem State.setRing_hlocks (s : State) (key : Nat) (r : Ring) : (s.setRing key r).hlocks = s.hlocks := rfl
@[simp] theorem State.setRing_hbm (s : State) (key : Nat) (r : Ring) : (s.setRing key r).hbm = s.hbm := rfl
@[simp] theorem State.setRing_poison (s : State) (key : Nat) (r : Ring) : (s.setRing key r).poison = s.poison := rfl
@[simp] theorem State.setRing_host (s : State) (key : Nat) (r : Ring) : (s.setRing key r).host = s.host := rfl
@[simp] theorem State.setRing_chan (s : State) (key : Nat) (r : Ring) : (s.setRing key r).chan = s.chan := rfl
@[simp] theorem State.setRing_ramp (s : State) (key : Nat) (r : Ring) : (s.setRing key r).ramp = s.ramp := rfl
@[simp] theorem State.setRing_buckets (s : State) (key : Nat) (r : Ring) : (s.setRing key r).buckets = s.buckets := rfl
@[simp] theorem State.setRing_bucketAt (s : State) (key : Nat) (r : Ring) : (s.setRing key r).bucketAt = s.bucketAt := rfl
@[simp] theorem State.setRing_bucketQ (s : State) (key : Nat) (r : Ring) : (s.setRing key r).bucketQ = s.bucketQ := rfl
@[simp] theorem State.setRing_train (s : State) (key : Nat) (r : Ring) : (s.setRing key r).train = s.train := rfl
@[simp] theorem State.setRing_tlbs (s : State) (key : Nat) (r : Ring) : (s.setRing key r).tlbs = s.tlbs := rfl
@[simp] theorem State.setRing_walks (s : State) (key : Nat) (r : Ring) : (s.setRing key r).walks = s.walks := rfl
@[simp] theorem State.setRing_faults (s : State) (key : Nat) (r : Ring) : (s.setRing key r).faults = s.faults := rfl
@[simp] theorem State.setRing_gens (s : State) (key : Nat) (r : Ring) : (s.setRing key r).gens = s.gens := rfl
@[simp] theorem State.setRing_ctxs (s : State) (key : Nat) (r : Ring) : (s.setRing key r).ctxs = s.ctxs := rfl
@[simp] theorem State.setRing_mems (s : State) (key : Nat) (r : Ring) : (s.setRing key r).mems = s.mems := rfl
@[simp] theorem State.setRing_sigs (s : State) (key : Nat) (r : Ring) : (s.setRing key r).sigs = s.sigs := rfl
@[simp] theorem State.setRing_arcs (s : State) (key : Nat) (r : Ring) : (s.setRing key r).arcs = s.arcs := rfl
@[simp] theorem State.setRing_rings (s : State) (key : Nat) (r : Ring) : (s.setRing key r).rings = Tbl.set s.rings key r := rfl
@[simp] theorem State.setRing_ctls (s : State) (key : Nat) (r : Ring) : (s.setRing key r).ctls = s.ctls := rfl
@[simp] theorem State.setRing_peers (s : State) (key : Nat) (r : Ring) : (s.setRing key r).peers = s.peers := rfl
@[simp] theorem State.setRing_parkq (s : State) (key : Nat) (r : Ring) : (s.setRing key r).parkq = s.parkq := rfl
@[simp] theorem State.setRing_watch (s : State) (key : Nat) (r : Ring) : (s.setRing key r).watch = s.watch := rfl
@[simp] theorem State.setRing_sigAdds (s : State) (key : Nat) (r : Ring) : (s.setRing key r).sigAdds = s.sigAdds := rfl
@[simp] theorem State.setRing_addHandle (s : State) (key : Nat) (r : Ring) : (s.setRing key r).addHandle = s.addHandle := rfl
@[simp] theorem State.setRing_rejects (s : State) (key : Nat) (r : Ring) : (s.setRing key r).rejects = s.rejects := rfl
@[simp] theorem State.setRing_chords (s : State) (key : Nat) (r : Ring) : (s.setRing key r).chords = s.chords := rfl
@[simp] theorem State.setRing_links (s : State) (key : Nat) (r : Ring) : (s.setRing key r).links = s.links := rfl
@[simp] theorem State.setRing_clusters (s : State) (key : Nat) (r : Ring) : (s.setRing key r).clusters = s.clusters := rfl
@[simp] theorem State.setRing_duty (s : State) (key : Nat) (r : Ring) : (s.setRing key r).duty = s.duty := rfl
@[simp] theorem State.setRing_grants (s : State) (key : Nat) (r : Ring) : (s.setRing key r).grants = s.grants := rfl
@[simp] theorem State.setRing_powerAt (s : State) (key : Nat) (r : Ring) : (s.setRing key r).powerAt = s.powerAt := rfl
@[simp] theorem State.setRing_overCap (s : State) (key : Nat) (r : Ring) : (s.setRing key r).overCap = s.overCap := rfl
@[simp] theorem State.setRing_sites (s : State) (key : Nat) (r : Ring) : (s.setRing key r).sites = s.sites := rfl
@[simp] theorem State.setRing_winLog (s : State) (key : Nat) (r : Ring) : (s.setRing key r).winLog = s.winLog := rfl
@[simp] theorem State.setRing_life (s : State) (key : Nat) (r : Ring) : (s.setRing key r).life = s.life := rfl
@[simp] theorem State.setRing_ledger (s : State) (key : Nat) (r : Ring) : (s.setRing key r).ledger = s.ledger := rfl
@[simp] theorem State.setRing_floors (s : State) (key : Nat) (r : Ring) : (s.setRing key r).floors = s.floors := rfl
@[simp] theorem State.setRing_retFuse (s : State) (key : Nat) (r : Ring) : (s.setRing key r).retFuse = s.retFuse := rfl
@[simp] theorem State.setRing_trend (s : State) (key : Nat) (r : Ring) : (s.setRing key r).trend = s.trend := rfl
@[simp] theorem State.setRing_timingDays (s : State) (key : Nat) (r : Ring) : (s.setRing key r).timingDays = s.timingDays := rfl
@[simp] theorem State.setRing_traceProd (s : State) (key : Nat) (r : Ring) : (s.setRing key r).traceProd = s.traceProd := rfl
@[simp] theorem State.setRing_traceCons (s : State) (key : Nat) (r : Ring) : (s.setRing key r).traceCons = s.traceCons := rfl
@[simp] theorem State.setRing_traceSeq (s : State) (key : Nat) (r : Ring) : (s.setRing key r).traceSeq = s.traceSeq := rfl
@[simp] theorem State.setRing_traceLoss (s : State) (key : Nat) (r : Ring) : (s.setRing key r).traceLoss = s.traceLoss := rfl
@[simp] theorem State.setRing_watches (s : State) (key : Nat) (r : Ring) : (s.setRing key r).watches = s.watches := rfl
@[simp] theorem State.setRing_tapIr (s : State) (key : Nat) (r : Ring) : (s.setRing key r).tapIr = s.tapIr := rfl
@[simp] theorem State.setRing_tapDr (s : State) (key : Nat) (r : Ring) : (s.setRing key r).tapDr = s.tapDr := rfl
@[simp] theorem State.setRing_keys (s : State) (key : Nat) (r : Ring) : (s.setRing key r).keys = s.keys := rfl
@[simp] theorem State.setRing_triples (s : State) (key : Nat) (r : Ring) : (s.setRing key r).triples = s.triples := rfl
@[simp] theorem State.setRing_spdm (s : State) (key : Nat) (r : Ring) : (s.setRing key r).spdm = s.spdm := rfl
@[simp] theorem State.setRing_aux (s : State) (key : Nat) (r : Ring) : (s.setRing key r).aux = s.aux := rfl
@[simp] theorem State.setRing_vin48 (s : State) (key : Nat) (r : Ring) : (s.setRing key r).vin48 = s.vin48 := rfl
@[simp] theorem State.setRing_refclk (s : State) (key : Nat) (r : Ring) : (s.setRing key r).refclk = s.refclk := rfl
@[simp] theorem State.setRing_powered (s : State) (key : Nat) (r : Ring) : (s.setRing key r).powered = s.powered := rfl
@[simp] theorem State.setRing_ctlReady (s : State) (key : Nat) (r : Ring) : (s.setRing key r).ctlReady = s.ctlReady := rfl
@[simp] theorem State.setRing_hostTraining (s : State) (key : Nat) (r : Ring) : (s.setRing key r).hostTraining = s.hostTraining := rfl
@[simp] theorem State.setRing_hostLost (s : State) (key : Nat) (r : Ring) : (s.setRing key r).hostLost = s.hostLost := rfl
@[simp] theorem State.setRing_throttle (s : State) (key : Nat) (r : Ring) : (s.setRing key r).throttle = s.throttle := rfl
@[simp] theorem State.setRing_thermTrip (s : State) (key : Nat) (r : Ring) : (s.setRing key r).thermTrip = s.thermTrip := rfl
@[simp] theorem State.setRing_alert (s : State) (key : Nat) (r : Ring) : (s.setRing key r).alert = s.alert := rfl
@[simp] theorem State.setRing_currentLimit (s : State) (key : Nat) (r : Ring) : (s.setRing key r).currentLimit = s.currentLimit := rfl
@[simp] theorem State.setRing_safeThermal (s : State) (key : Nat) (r : Ring) : (s.setRing key r).safeThermal = s.safeThermal := rfl
@[simp] theorem State.setRing_hot (s : State) (key : Nat) (r : Ring) : (s.setRing key r).hot = s.hot := rfl
@[simp] theorem State.setRing_starting (s : State) (key : Nat) (r : Ring) : (s.setRing key r).starting = s.starting := rfl
@[simp] theorem State.setRing_failedStart (s : State) (key : Nat) (r : Ring) : (s.setRing key r).failedStart = s.failedStart := rfl
@[simp] theorem State.setRing_warmFails (s : State) (key : Nat) (r : Ring) : (s.setRing key r).warmFails = s.warmFails := rfl
@[simp] theorem State.setRing_fetchStop (s : State) (key : Nat) (r : Ring) : (s.setRing key r).fetchStop = s.fetchStop := rfl
@[simp] theorem State.setRing_identifyEnds (s : State) (key : Nat) (r : Ring) : (s.setRing key r).identifyEnds = s.identifyEnds := rfl
@[simp] theorem State.setRing_latchTimer (s : State) (key : Nat) (r : Ring) : (s.setRing key r).latchTimer = s.latchTimer := rfl
@[simp] theorem State.setRing_latchStop (s : State) (key : Nat) (r : Ring) : (s.setRing key r).latchStop = s.latchStop := rfl
@[simp] theorem State.setRing_teardowns (s : State) (key : Nat) (r : Ring) : (s.setRing key r).teardowns = s.teardowns := rfl

/-! ### State.setCtx -/

@[simp] theorem State.setCtx_pending (s : State) (n : Nat) (c : Ctx) : (s.setCtx n c).pending = s.pending := rfl
@[simp] theorem State.setCtx_admitted (s : State) (n : Nat) (c : Ctx) : (s.setCtx n c).admitted = s.admitted := rfl
@[simp] theorem State.setCtx_layout (s : State) (n : Nat) (c : Ctx) : (s.setCtx n c).layout = s.layout := rfl
@[simp] theorem State.setCtx_hostTables (s : State) (n : Nat) (c : Ctx) : (s.setCtx n c).hostTables = s.hostTables := rfl
@[simp] theorem State.setCtx_tapRsp (s : State) (n : Nat) (c : Ctx) : (s.setCtx n c).tapRsp = s.tapRsp := rfl
@[simp] theorem State.setCtx_vers (s : State) (n : Nat) (c : Ctx) : (s.setCtx n c).vers = s.vers := rfl
@[simp] theorem State.setCtx_now (s : State) (n : Nat) (c : Ctx) : (s.setCtx n c).now = s.now := rfl
@[simp] theorem State.setCtx_timeZero (s : State) (n : Nat) (c : Ctx) : (s.setCtx n c).timeZero = s.timeZero := rfl
@[simp] theorem State.setCtx_free (s : State) (n : Nat) (c : Ctx) : (s.setCtx n c).free = s.free := rfl
@[simp] theorem State.setCtx_obj (s : State) (n : Nat) (c : Ctx) : (s.setCtx n c).obj = s.obj := rfl
@[simp] theorem State.setCtx_out (s : State) (n : Nat) (c : Ctx) : (s.setCtx n c).out = s.out := rfl
@[simp] theorem State.setCtx_sess (s : State) (n : Nat) (c : Ctx) : (s.setCtx n c).sess = s.sess := rfl
@[simp] theorem State.setCtx_sids (s : State) (n : Nat) (c : Ctx) : (s.setCtx n c).sids = s.sids := rfl
@[simp] theorem State.setCtx_fails (s : State) (n : Nat) (c : Ctx) : (s.setCtx n c).fails = s.fails := rfl
@[simp] theorem State.setCtx_locks (s : State) (n : Nat) (c : Ctx) : (s.setCtx n c).locks = s.locks := rfl
@[simp] theorem State.setCtx_subs (s : State) (n : Nat) (c : Ctx) : (s.setCtx n c).subs = s.subs := rfl
@[simp] theorem State.setCtx_nextSub (s : State) (n : Nat) (c : Ctx) : (s.setCtx n c).nextSub = s.nextSub := rfl
@[simp] theorem State.setCtx_mbx (s : State) (n : Nat) (c : Ctx) : (s.setCtx n c).mbx = s.mbx := rfl
@[simp] theorem State.setCtx_flash (s : State) (n : Nat) (c : Ctx) : (s.setCtx n c).flash = s.flash := rfl
@[simp] theorem State.setCtx_seqs (s : State) (n : Nat) (c : Ctx) : (s.setCtx n c).seqs = s.seqs := rfl
@[simp] theorem State.setCtx_arrays (s : State) (n : Nat) (c : Ctx) : (s.setCtx n c).arrays = s.arrays := rfl
@[simp] theorem State.setCtx_tables (s : State) (n : Nat) (c : Ctx) : (s.setCtx n c).tables = s.tables := rfl
@[simp] theorem State.setCtx_groups (s : State) (n : Nat) (c : Ctx) : (s.setCtx n c).groups = s.groups := rfl
@[simp] theorem State.setCtx_blocks (s : State) (n : Nat) (c : Ctx) : (s.setCtx n c).blocks = s.blocks := rfl
@[simp] theorem State.setCtx_cores (s : State) (n : Nat) (c : Ctx) : (s.setCtx n c).cores = s.cores := rfl
@[simp] theorem State.setCtx_l1d (s : State) (n : Nat) (c : Ctx) : (s.setCtx n c).l1d = s.l1d := rfl
@[simp] theorem State.setCtx_l1i (s : State) (n : Nat) (c : Ctx) : (s.setCtx n c).l1i = s.l1i := rfl
@[simp] theorem State.setCtx_dc (s : State) (n : Nat) (c : Ctx) : (s.setCtx n c).dc = s.dc := rfl
@[simp] theorem State.setCtx_victim (s : State) (n : Nat) (c : Ctx) : (s.setCtx n c).victim = s.victim := rfl
@[simp] theorem State.setCtx_reclaim (s : State) (n : Nat) (c : Ctx) : (s.setCtx n c).reclaim = s.reclaim := rfl
@[simp] theorem State.setCtx_dup (s : State) (n : Nat) (c : Ctx) : (s.setCtx n c).dup = s.dup := rfl
@[simp] theorem State.setCtx_tx (s : State) (n : Nat) (c : Ctx) : (s.setCtx n c).tx = s.tx := rfl
@[simp] theorem State.setCtx_txq (s : State) (n : Nat) (c : Ctx) : (s.setCtx n c).txq = s.txq := rfl
@[simp] theorem State.setCtx_lattice (s : State) (n : Nat) (c : Ctx) : (s.setCtx n c).lattice = s.lattice := rfl
@[simp] theorem State.setCtx_hlocks (s : State) (n : Nat) (c : Ctx) : (s.setCtx n c).hlocks = s.hlocks := rfl
@[simp] theorem State.setCtx_hbm (s : State) (n : Nat) (c : Ctx) : (s.setCtx n c).hbm = s.hbm := rfl
@[simp] theorem State.setCtx_poison (s : State) (n : Nat) (c : Ctx) : (s.setCtx n c).poison = s.poison := rfl
@[simp] theorem State.setCtx_host (s : State) (n : Nat) (c : Ctx) : (s.setCtx n c).host = s.host := rfl
@[simp] theorem State.setCtx_chan (s : State) (n : Nat) (c : Ctx) : (s.setCtx n c).chan = s.chan := rfl
@[simp] theorem State.setCtx_ramp (s : State) (n : Nat) (c : Ctx) : (s.setCtx n c).ramp = s.ramp := rfl
@[simp] theorem State.setCtx_buckets (s : State) (n : Nat) (c : Ctx) : (s.setCtx n c).buckets = s.buckets := rfl
@[simp] theorem State.setCtx_bucketAt (s : State) (n : Nat) (c : Ctx) : (s.setCtx n c).bucketAt = s.bucketAt := rfl
@[simp] theorem State.setCtx_bucketQ (s : State) (n : Nat) (c : Ctx) : (s.setCtx n c).bucketQ = s.bucketQ := rfl
@[simp] theorem State.setCtx_train (s : State) (n : Nat) (c : Ctx) : (s.setCtx n c).train = s.train := rfl
@[simp] theorem State.setCtx_tlbs (s : State) (n : Nat) (c : Ctx) : (s.setCtx n c).tlbs = s.tlbs := rfl
@[simp] theorem State.setCtx_walks (s : State) (n : Nat) (c : Ctx) : (s.setCtx n c).walks = s.walks := rfl
@[simp] theorem State.setCtx_faults (s : State) (n : Nat) (c : Ctx) : (s.setCtx n c).faults = s.faults := rfl
@[simp] theorem State.setCtx_gens (s : State) (n : Nat) (c : Ctx) : (s.setCtx n c).gens = s.gens := rfl
@[simp] theorem State.setCtx_ctxs (s : State) (n : Nat) (c : Ctx) : (s.setCtx n c).ctxs = Tbl.set s.ctxs n c := rfl
@[simp] theorem State.setCtx_mems (s : State) (n : Nat) (c : Ctx) : (s.setCtx n c).mems = s.mems := rfl
@[simp] theorem State.setCtx_sigs (s : State) (n : Nat) (c : Ctx) : (s.setCtx n c).sigs = s.sigs := rfl
@[simp] theorem State.setCtx_arcs (s : State) (n : Nat) (c : Ctx) : (s.setCtx n c).arcs = s.arcs := rfl
@[simp] theorem State.setCtx_rings (s : State) (n : Nat) (c : Ctx) : (s.setCtx n c).rings = s.rings := rfl
@[simp] theorem State.setCtx_ctls (s : State) (n : Nat) (c : Ctx) : (s.setCtx n c).ctls = s.ctls := rfl
@[simp] theorem State.setCtx_peers (s : State) (n : Nat) (c : Ctx) : (s.setCtx n c).peers = s.peers := rfl
@[simp] theorem State.setCtx_parkq (s : State) (n : Nat) (c : Ctx) : (s.setCtx n c).parkq = s.parkq := rfl
@[simp] theorem State.setCtx_watch (s : State) (n : Nat) (c : Ctx) : (s.setCtx n c).watch = s.watch := rfl
@[simp] theorem State.setCtx_sigAdds (s : State) (n : Nat) (c : Ctx) : (s.setCtx n c).sigAdds = s.sigAdds := rfl
@[simp] theorem State.setCtx_addHandle (s : State) (n : Nat) (c : Ctx) : (s.setCtx n c).addHandle = s.addHandle := rfl
@[simp] theorem State.setCtx_rejects (s : State) (n : Nat) (c : Ctx) : (s.setCtx n c).rejects = s.rejects := rfl
@[simp] theorem State.setCtx_chords (s : State) (n : Nat) (c : Ctx) : (s.setCtx n c).chords = s.chords := rfl
@[simp] theorem State.setCtx_links (s : State) (n : Nat) (c : Ctx) : (s.setCtx n c).links = s.links := rfl
@[simp] theorem State.setCtx_clusters (s : State) (n : Nat) (c : Ctx) : (s.setCtx n c).clusters = s.clusters := rfl
@[simp] theorem State.setCtx_duty (s : State) (n : Nat) (c : Ctx) : (s.setCtx n c).duty = s.duty := rfl
@[simp] theorem State.setCtx_grants (s : State) (n : Nat) (c : Ctx) : (s.setCtx n c).grants = s.grants := rfl
@[simp] theorem State.setCtx_powerAt (s : State) (n : Nat) (c : Ctx) : (s.setCtx n c).powerAt = s.powerAt := rfl
@[simp] theorem State.setCtx_overCap (s : State) (n : Nat) (c : Ctx) : (s.setCtx n c).overCap = s.overCap := rfl
@[simp] theorem State.setCtx_sites (s : State) (n : Nat) (c : Ctx) : (s.setCtx n c).sites = s.sites := rfl
@[simp] theorem State.setCtx_winLog (s : State) (n : Nat) (c : Ctx) : (s.setCtx n c).winLog = s.winLog := rfl
@[simp] theorem State.setCtx_life (s : State) (n : Nat) (c : Ctx) : (s.setCtx n c).life = s.life := rfl
@[simp] theorem State.setCtx_ledger (s : State) (n : Nat) (c : Ctx) : (s.setCtx n c).ledger = s.ledger := rfl
@[simp] theorem State.setCtx_floors (s : State) (n : Nat) (c : Ctx) : (s.setCtx n c).floors = s.floors := rfl
@[simp] theorem State.setCtx_retFuse (s : State) (n : Nat) (c : Ctx) : (s.setCtx n c).retFuse = s.retFuse := rfl
@[simp] theorem State.setCtx_trend (s : State) (n : Nat) (c : Ctx) : (s.setCtx n c).trend = s.trend := rfl
@[simp] theorem State.setCtx_timingDays (s : State) (n : Nat) (c : Ctx) : (s.setCtx n c).timingDays = s.timingDays := rfl
@[simp] theorem State.setCtx_traceProd (s : State) (n : Nat) (c : Ctx) : (s.setCtx n c).traceProd = s.traceProd := rfl
@[simp] theorem State.setCtx_traceCons (s : State) (n : Nat) (c : Ctx) : (s.setCtx n c).traceCons = s.traceCons := rfl
@[simp] theorem State.setCtx_traceSeq (s : State) (n : Nat) (c : Ctx) : (s.setCtx n c).traceSeq = s.traceSeq := rfl
@[simp] theorem State.setCtx_traceLoss (s : State) (n : Nat) (c : Ctx) : (s.setCtx n c).traceLoss = s.traceLoss := rfl
@[simp] theorem State.setCtx_watches (s : State) (n : Nat) (c : Ctx) : (s.setCtx n c).watches = s.watches := rfl
@[simp] theorem State.setCtx_tapIr (s : State) (n : Nat) (c : Ctx) : (s.setCtx n c).tapIr = s.tapIr := rfl
@[simp] theorem State.setCtx_tapDr (s : State) (n : Nat) (c : Ctx) : (s.setCtx n c).tapDr = s.tapDr := rfl
@[simp] theorem State.setCtx_keys (s : State) (n : Nat) (c : Ctx) : (s.setCtx n c).keys = s.keys := rfl
@[simp] theorem State.setCtx_triples (s : State) (n : Nat) (c : Ctx) : (s.setCtx n c).triples = s.triples := rfl
@[simp] theorem State.setCtx_spdm (s : State) (n : Nat) (c : Ctx) : (s.setCtx n c).spdm = s.spdm := rfl
@[simp] theorem State.setCtx_aux (s : State) (n : Nat) (c : Ctx) : (s.setCtx n c).aux = s.aux := rfl
@[simp] theorem State.setCtx_vin48 (s : State) (n : Nat) (c : Ctx) : (s.setCtx n c).vin48 = s.vin48 := rfl
@[simp] theorem State.setCtx_refclk (s : State) (n : Nat) (c : Ctx) : (s.setCtx n c).refclk = s.refclk := rfl
@[simp] theorem State.setCtx_powered (s : State) (n : Nat) (c : Ctx) : (s.setCtx n c).powered = s.powered := rfl
@[simp] theorem State.setCtx_ctlReady (s : State) (n : Nat) (c : Ctx) : (s.setCtx n c).ctlReady = s.ctlReady := rfl
@[simp] theorem State.setCtx_hostTraining (s : State) (n : Nat) (c : Ctx) : (s.setCtx n c).hostTraining = s.hostTraining := rfl
@[simp] theorem State.setCtx_hostLost (s : State) (n : Nat) (c : Ctx) : (s.setCtx n c).hostLost = s.hostLost := rfl
@[simp] theorem State.setCtx_throttle (s : State) (n : Nat) (c : Ctx) : (s.setCtx n c).throttle = s.throttle := rfl
@[simp] theorem State.setCtx_thermTrip (s : State) (n : Nat) (c : Ctx) : (s.setCtx n c).thermTrip = s.thermTrip := rfl
@[simp] theorem State.setCtx_alert (s : State) (n : Nat) (c : Ctx) : (s.setCtx n c).alert = s.alert := rfl
@[simp] theorem State.setCtx_currentLimit (s : State) (n : Nat) (c : Ctx) : (s.setCtx n c).currentLimit = s.currentLimit := rfl
@[simp] theorem State.setCtx_safeThermal (s : State) (n : Nat) (c : Ctx) : (s.setCtx n c).safeThermal = s.safeThermal := rfl
@[simp] theorem State.setCtx_hot (s : State) (n : Nat) (c : Ctx) : (s.setCtx n c).hot = s.hot := rfl
@[simp] theorem State.setCtx_starting (s : State) (n : Nat) (c : Ctx) : (s.setCtx n c).starting = s.starting := rfl
@[simp] theorem State.setCtx_failedStart (s : State) (n : Nat) (c : Ctx) : (s.setCtx n c).failedStart = s.failedStart := rfl
@[simp] theorem State.setCtx_warmFails (s : State) (n : Nat) (c : Ctx) : (s.setCtx n c).warmFails = s.warmFails := rfl
@[simp] theorem State.setCtx_fetchStop (s : State) (n : Nat) (c : Ctx) : (s.setCtx n c).fetchStop = s.fetchStop := rfl
@[simp] theorem State.setCtx_identifyEnds (s : State) (n : Nat) (c : Ctx) : (s.setCtx n c).identifyEnds = s.identifyEnds := rfl
@[simp] theorem State.setCtx_latchTimer (s : State) (n : Nat) (c : Ctx) : (s.setCtx n c).latchTimer = s.latchTimer := rfl
@[simp] theorem State.setCtx_latchStop (s : State) (n : Nat) (c : Ctx) : (s.setCtx n c).latchStop = s.latchStop := rfl
@[simp] theorem State.setCtx_teardowns (s : State) (n : Nat) (c : Ctx) : (s.setCtx n c).teardowns = s.teardowns := rfl

/-! ### State.setSeq -/

@[simp] theorem State.setSeq_pending (s : State) (k : Nat) (q : Seq) : (s.setSeq k q).pending = s.pending := rfl
@[simp] theorem State.setSeq_admitted (s : State) (k : Nat) (q : Seq) : (s.setSeq k q).admitted = s.admitted := rfl
@[simp] theorem State.setSeq_layout (s : State) (k : Nat) (q : Seq) : (s.setSeq k q).layout = s.layout := rfl
@[simp] theorem State.setSeq_hostTables (s : State) (k : Nat) (q : Seq) : (s.setSeq k q).hostTables = s.hostTables := rfl
@[simp] theorem State.setSeq_tapRsp (s : State) (k : Nat) (q : Seq) : (s.setSeq k q).tapRsp = s.tapRsp := rfl
@[simp] theorem State.setSeq_vers (s : State) (k : Nat) (q : Seq) : (s.setSeq k q).vers = s.vers := rfl
@[simp] theorem State.setSeq_now (s : State) (k : Nat) (q : Seq) : (s.setSeq k q).now = s.now := rfl
@[simp] theorem State.setSeq_timeZero (s : State) (k : Nat) (q : Seq) : (s.setSeq k q).timeZero = s.timeZero := rfl
@[simp] theorem State.setSeq_free (s : State) (k : Nat) (q : Seq) : (s.setSeq k q).free = s.free := rfl
@[simp] theorem State.setSeq_obj (s : State) (k : Nat) (q : Seq) : (s.setSeq k q).obj = s.obj := rfl
@[simp] theorem State.setSeq_out (s : State) (k : Nat) (q : Seq) : (s.setSeq k q).out = s.out := rfl
@[simp] theorem State.setSeq_sess (s : State) (k : Nat) (q : Seq) : (s.setSeq k q).sess = s.sess := rfl
@[simp] theorem State.setSeq_sids (s : State) (k : Nat) (q : Seq) : (s.setSeq k q).sids = s.sids := rfl
@[simp] theorem State.setSeq_fails (s : State) (k : Nat) (q : Seq) : (s.setSeq k q).fails = s.fails := rfl
@[simp] theorem State.setSeq_locks (s : State) (k : Nat) (q : Seq) : (s.setSeq k q).locks = s.locks := rfl
@[simp] theorem State.setSeq_subs (s : State) (k : Nat) (q : Seq) : (s.setSeq k q).subs = s.subs := rfl
@[simp] theorem State.setSeq_nextSub (s : State) (k : Nat) (q : Seq) : (s.setSeq k q).nextSub = s.nextSub := rfl
@[simp] theorem State.setSeq_mbx (s : State) (k : Nat) (q : Seq) : (s.setSeq k q).mbx = s.mbx := rfl
@[simp] theorem State.setSeq_flash (s : State) (k : Nat) (q : Seq) : (s.setSeq k q).flash = s.flash := rfl
@[simp] theorem State.setSeq_seqs (s : State) (k : Nat) (q : Seq) : (s.setSeq k q).seqs = Tbl.set s.seqs k q := rfl
@[simp] theorem State.setSeq_arrays (s : State) (k : Nat) (q : Seq) : (s.setSeq k q).arrays = s.arrays := rfl
@[simp] theorem State.setSeq_tables (s : State) (k : Nat) (q : Seq) : (s.setSeq k q).tables = s.tables := rfl
@[simp] theorem State.setSeq_groups (s : State) (k : Nat) (q : Seq) : (s.setSeq k q).groups = s.groups := rfl
@[simp] theorem State.setSeq_blocks (s : State) (k : Nat) (q : Seq) : (s.setSeq k q).blocks = s.blocks := rfl
@[simp] theorem State.setSeq_cores (s : State) (k : Nat) (q : Seq) : (s.setSeq k q).cores = s.cores := rfl
@[simp] theorem State.setSeq_l1d (s : State) (k : Nat) (q : Seq) : (s.setSeq k q).l1d = s.l1d := rfl
@[simp] theorem State.setSeq_l1i (s : State) (k : Nat) (q : Seq) : (s.setSeq k q).l1i = s.l1i := rfl
@[simp] theorem State.setSeq_dc (s : State) (k : Nat) (q : Seq) : (s.setSeq k q).dc = s.dc := rfl
@[simp] theorem State.setSeq_victim (s : State) (k : Nat) (q : Seq) : (s.setSeq k q).victim = s.victim := rfl
@[simp] theorem State.setSeq_reclaim (s : State) (k : Nat) (q : Seq) : (s.setSeq k q).reclaim = s.reclaim := rfl
@[simp] theorem State.setSeq_dup (s : State) (k : Nat) (q : Seq) : (s.setSeq k q).dup = s.dup := rfl
@[simp] theorem State.setSeq_tx (s : State) (k : Nat) (q : Seq) : (s.setSeq k q).tx = s.tx := rfl
@[simp] theorem State.setSeq_txq (s : State) (k : Nat) (q : Seq) : (s.setSeq k q).txq = s.txq := rfl
@[simp] theorem State.setSeq_lattice (s : State) (k : Nat) (q : Seq) : (s.setSeq k q).lattice = s.lattice := rfl
@[simp] theorem State.setSeq_hlocks (s : State) (k : Nat) (q : Seq) : (s.setSeq k q).hlocks = s.hlocks := rfl
@[simp] theorem State.setSeq_hbm (s : State) (k : Nat) (q : Seq) : (s.setSeq k q).hbm = s.hbm := rfl
@[simp] theorem State.setSeq_poison (s : State) (k : Nat) (q : Seq) : (s.setSeq k q).poison = s.poison := rfl
@[simp] theorem State.setSeq_host (s : State) (k : Nat) (q : Seq) : (s.setSeq k q).host = s.host := rfl
@[simp] theorem State.setSeq_chan (s : State) (k : Nat) (q : Seq) : (s.setSeq k q).chan = s.chan := rfl
@[simp] theorem State.setSeq_ramp (s : State) (k : Nat) (q : Seq) : (s.setSeq k q).ramp = s.ramp := rfl
@[simp] theorem State.setSeq_buckets (s : State) (k : Nat) (q : Seq) : (s.setSeq k q).buckets = s.buckets := rfl
@[simp] theorem State.setSeq_bucketAt (s : State) (k : Nat) (q : Seq) : (s.setSeq k q).bucketAt = s.bucketAt := rfl
@[simp] theorem State.setSeq_bucketQ (s : State) (k : Nat) (q : Seq) : (s.setSeq k q).bucketQ = s.bucketQ := rfl
@[simp] theorem State.setSeq_train (s : State) (k : Nat) (q : Seq) : (s.setSeq k q).train = s.train := rfl
@[simp] theorem State.setSeq_tlbs (s : State) (k : Nat) (q : Seq) : (s.setSeq k q).tlbs = s.tlbs := rfl
@[simp] theorem State.setSeq_walks (s : State) (k : Nat) (q : Seq) : (s.setSeq k q).walks = s.walks := rfl
@[simp] theorem State.setSeq_faults (s : State) (k : Nat) (q : Seq) : (s.setSeq k q).faults = s.faults := rfl
@[simp] theorem State.setSeq_gens (s : State) (k : Nat) (q : Seq) : (s.setSeq k q).gens = s.gens := rfl
@[simp] theorem State.setSeq_ctxs (s : State) (k : Nat) (q : Seq) : (s.setSeq k q).ctxs = s.ctxs := rfl
@[simp] theorem State.setSeq_mems (s : State) (k : Nat) (q : Seq) : (s.setSeq k q).mems = s.mems := rfl
@[simp] theorem State.setSeq_sigs (s : State) (k : Nat) (q : Seq) : (s.setSeq k q).sigs = s.sigs := rfl
@[simp] theorem State.setSeq_arcs (s : State) (k : Nat) (q : Seq) : (s.setSeq k q).arcs = s.arcs := rfl
@[simp] theorem State.setSeq_rings (s : State) (k : Nat) (q : Seq) : (s.setSeq k q).rings = s.rings := rfl
@[simp] theorem State.setSeq_ctls (s : State) (k : Nat) (q : Seq) : (s.setSeq k q).ctls = s.ctls := rfl
@[simp] theorem State.setSeq_peers (s : State) (k : Nat) (q : Seq) : (s.setSeq k q).peers = s.peers := rfl
@[simp] theorem State.setSeq_parkq (s : State) (k : Nat) (q : Seq) : (s.setSeq k q).parkq = s.parkq := rfl
@[simp] theorem State.setSeq_watch (s : State) (k : Nat) (q : Seq) : (s.setSeq k q).watch = s.watch := rfl
@[simp] theorem State.setSeq_sigAdds (s : State) (k : Nat) (q : Seq) : (s.setSeq k q).sigAdds = s.sigAdds := rfl
@[simp] theorem State.setSeq_addHandle (s : State) (k : Nat) (q : Seq) : (s.setSeq k q).addHandle = s.addHandle := rfl
@[simp] theorem State.setSeq_rejects (s : State) (k : Nat) (q : Seq) : (s.setSeq k q).rejects = s.rejects := rfl
@[simp] theorem State.setSeq_chords (s : State) (k : Nat) (q : Seq) : (s.setSeq k q).chords = s.chords := rfl
@[simp] theorem State.setSeq_links (s : State) (k : Nat) (q : Seq) : (s.setSeq k q).links = s.links := rfl
@[simp] theorem State.setSeq_clusters (s : State) (k : Nat) (q : Seq) : (s.setSeq k q).clusters = s.clusters := rfl
@[simp] theorem State.setSeq_duty (s : State) (k : Nat) (q : Seq) : (s.setSeq k q).duty = s.duty := rfl
@[simp] theorem State.setSeq_grants (s : State) (k : Nat) (q : Seq) : (s.setSeq k q).grants = s.grants := rfl
@[simp] theorem State.setSeq_powerAt (s : State) (k : Nat) (q : Seq) : (s.setSeq k q).powerAt = s.powerAt := rfl
@[simp] theorem State.setSeq_overCap (s : State) (k : Nat) (q : Seq) : (s.setSeq k q).overCap = s.overCap := rfl
@[simp] theorem State.setSeq_sites (s : State) (k : Nat) (q : Seq) : (s.setSeq k q).sites = s.sites := rfl
@[simp] theorem State.setSeq_winLog (s : State) (k : Nat) (q : Seq) : (s.setSeq k q).winLog = s.winLog := rfl
@[simp] theorem State.setSeq_life (s : State) (k : Nat) (q : Seq) : (s.setSeq k q).life = s.life := rfl
@[simp] theorem State.setSeq_ledger (s : State) (k : Nat) (q : Seq) : (s.setSeq k q).ledger = s.ledger := rfl
@[simp] theorem State.setSeq_floors (s : State) (k : Nat) (q : Seq) : (s.setSeq k q).floors = s.floors := rfl
@[simp] theorem State.setSeq_retFuse (s : State) (k : Nat) (q : Seq) : (s.setSeq k q).retFuse = s.retFuse := rfl
@[simp] theorem State.setSeq_trend (s : State) (k : Nat) (q : Seq) : (s.setSeq k q).trend = s.trend := rfl
@[simp] theorem State.setSeq_timingDays (s : State) (k : Nat) (q : Seq) : (s.setSeq k q).timingDays = s.timingDays := rfl
@[simp] theorem State.setSeq_traceProd (s : State) (k : Nat) (q : Seq) : (s.setSeq k q).traceProd = s.traceProd := rfl
@[simp] theorem State.setSeq_traceCons (s : State) (k : Nat) (q : Seq) : (s.setSeq k q).traceCons = s.traceCons := rfl
@[simp] theorem State.setSeq_traceSeq (s : State) (k : Nat) (q : Seq) : (s.setSeq k q).traceSeq = s.traceSeq := rfl
@[simp] theorem State.setSeq_traceLoss (s : State) (k : Nat) (q : Seq) : (s.setSeq k q).traceLoss = s.traceLoss := rfl
@[simp] theorem State.setSeq_watches (s : State) (k : Nat) (q : Seq) : (s.setSeq k q).watches = s.watches := rfl
@[simp] theorem State.setSeq_tapIr (s : State) (k : Nat) (q : Seq) : (s.setSeq k q).tapIr = s.tapIr := rfl
@[simp] theorem State.setSeq_tapDr (s : State) (k : Nat) (q : Seq) : (s.setSeq k q).tapDr = s.tapDr := rfl
@[simp] theorem State.setSeq_keys (s : State) (k : Nat) (q : Seq) : (s.setSeq k q).keys = s.keys := rfl
@[simp] theorem State.setSeq_triples (s : State) (k : Nat) (q : Seq) : (s.setSeq k q).triples = s.triples := rfl
@[simp] theorem State.setSeq_spdm (s : State) (k : Nat) (q : Seq) : (s.setSeq k q).spdm = s.spdm := rfl
@[simp] theorem State.setSeq_aux (s : State) (k : Nat) (q : Seq) : (s.setSeq k q).aux = s.aux := rfl
@[simp] theorem State.setSeq_vin48 (s : State) (k : Nat) (q : Seq) : (s.setSeq k q).vin48 = s.vin48 := rfl
@[simp] theorem State.setSeq_refclk (s : State) (k : Nat) (q : Seq) : (s.setSeq k q).refclk = s.refclk := rfl
@[simp] theorem State.setSeq_powered (s : State) (k : Nat) (q : Seq) : (s.setSeq k q).powered = s.powered := rfl
@[simp] theorem State.setSeq_ctlReady (s : State) (k : Nat) (q : Seq) : (s.setSeq k q).ctlReady = s.ctlReady := rfl
@[simp] theorem State.setSeq_hostTraining (s : State) (k : Nat) (q : Seq) : (s.setSeq k q).hostTraining = s.hostTraining := rfl
@[simp] theorem State.setSeq_hostLost (s : State) (k : Nat) (q : Seq) : (s.setSeq k q).hostLost = s.hostLost := rfl
@[simp] theorem State.setSeq_throttle (s : State) (k : Nat) (q : Seq) : (s.setSeq k q).throttle = s.throttle := rfl
@[simp] theorem State.setSeq_thermTrip (s : State) (k : Nat) (q : Seq) : (s.setSeq k q).thermTrip = s.thermTrip := rfl
@[simp] theorem State.setSeq_alert (s : State) (k : Nat) (q : Seq) : (s.setSeq k q).alert = s.alert := rfl
@[simp] theorem State.setSeq_currentLimit (s : State) (k : Nat) (q : Seq) : (s.setSeq k q).currentLimit = s.currentLimit := rfl
@[simp] theorem State.setSeq_safeThermal (s : State) (k : Nat) (q : Seq) : (s.setSeq k q).safeThermal = s.safeThermal := rfl
@[simp] theorem State.setSeq_hot (s : State) (k : Nat) (q : Seq) : (s.setSeq k q).hot = s.hot := rfl
@[simp] theorem State.setSeq_starting (s : State) (k : Nat) (q : Seq) : (s.setSeq k q).starting = s.starting := rfl
@[simp] theorem State.setSeq_failedStart (s : State) (k : Nat) (q : Seq) : (s.setSeq k q).failedStart = s.failedStart := rfl
@[simp] theorem State.setSeq_warmFails (s : State) (k : Nat) (q : Seq) : (s.setSeq k q).warmFails = s.warmFails := rfl
@[simp] theorem State.setSeq_fetchStop (s : State) (k : Nat) (q : Seq) : (s.setSeq k q).fetchStop = s.fetchStop := rfl
@[simp] theorem State.setSeq_identifyEnds (s : State) (k : Nat) (q : Seq) : (s.setSeq k q).identifyEnds = s.identifyEnds := rfl
@[simp] theorem State.setSeq_latchTimer (s : State) (k : Nat) (q : Seq) : (s.setSeq k q).latchTimer = s.latchTimer := rfl
@[simp] theorem State.setSeq_latchStop (s : State) (k : Nat) (q : Seq) : (s.setSeq k q).latchStop = s.latchStop := rfl
@[simp] theorem State.setSeq_teardowns (s : State) (k : Nat) (q : Seq) : (s.setSeq k q).teardowns = s.teardowns := rfl

/-! ### State.setWatchU -/

@[simp] theorem State.setWatchU_pending (s : State) (u : Nat) (w : WatchU) : (s.setWatchU u w).pending = s.pending := rfl
@[simp] theorem State.setWatchU_admitted (s : State) (u : Nat) (w : WatchU) : (s.setWatchU u w).admitted = s.admitted := rfl
@[simp] theorem State.setWatchU_layout (s : State) (u : Nat) (w : WatchU) : (s.setWatchU u w).layout = s.layout := rfl
@[simp] theorem State.setWatchU_hostTables (s : State) (u : Nat) (w : WatchU) : (s.setWatchU u w).hostTables = s.hostTables := rfl
@[simp] theorem State.setWatchU_tapRsp (s : State) (u : Nat) (w : WatchU) : (s.setWatchU u w).tapRsp = s.tapRsp := rfl
@[simp] theorem State.setWatchU_vers (s : State) (u : Nat) (w : WatchU) : (s.setWatchU u w).vers = s.vers := rfl
@[simp] theorem State.setWatchU_now (s : State) (u : Nat) (w : WatchU) : (s.setWatchU u w).now = s.now := rfl
@[simp] theorem State.setWatchU_timeZero (s : State) (u : Nat) (w : WatchU) : (s.setWatchU u w).timeZero = s.timeZero := rfl
@[simp] theorem State.setWatchU_free (s : State) (u : Nat) (w : WatchU) : (s.setWatchU u w).free = s.free := rfl
@[simp] theorem State.setWatchU_obj (s : State) (u : Nat) (w : WatchU) : (s.setWatchU u w).obj = s.obj := rfl
@[simp] theorem State.setWatchU_out (s : State) (u : Nat) (w : WatchU) : (s.setWatchU u w).out = s.out := rfl
@[simp] theorem State.setWatchU_sess (s : State) (u : Nat) (w : WatchU) : (s.setWatchU u w).sess = s.sess := rfl
@[simp] theorem State.setWatchU_sids (s : State) (u : Nat) (w : WatchU) : (s.setWatchU u w).sids = s.sids := rfl
@[simp] theorem State.setWatchU_fails (s : State) (u : Nat) (w : WatchU) : (s.setWatchU u w).fails = s.fails := rfl
@[simp] theorem State.setWatchU_locks (s : State) (u : Nat) (w : WatchU) : (s.setWatchU u w).locks = s.locks := rfl
@[simp] theorem State.setWatchU_subs (s : State) (u : Nat) (w : WatchU) : (s.setWatchU u w).subs = s.subs := rfl
@[simp] theorem State.setWatchU_nextSub (s : State) (u : Nat) (w : WatchU) : (s.setWatchU u w).nextSub = s.nextSub := rfl
@[simp] theorem State.setWatchU_mbx (s : State) (u : Nat) (w : WatchU) : (s.setWatchU u w).mbx = s.mbx := rfl
@[simp] theorem State.setWatchU_flash (s : State) (u : Nat) (w : WatchU) : (s.setWatchU u w).flash = s.flash := rfl
@[simp] theorem State.setWatchU_seqs (s : State) (u : Nat) (w : WatchU) : (s.setWatchU u w).seqs = s.seqs := rfl
@[simp] theorem State.setWatchU_arrays (s : State) (u : Nat) (w : WatchU) : (s.setWatchU u w).arrays = s.arrays := rfl
@[simp] theorem State.setWatchU_tables (s : State) (u : Nat) (w : WatchU) : (s.setWatchU u w).tables = s.tables := rfl
@[simp] theorem State.setWatchU_groups (s : State) (u : Nat) (w : WatchU) : (s.setWatchU u w).groups = s.groups := rfl
@[simp] theorem State.setWatchU_blocks (s : State) (u : Nat) (w : WatchU) : (s.setWatchU u w).blocks = s.blocks := rfl
@[simp] theorem State.setWatchU_cores (s : State) (u : Nat) (w : WatchU) : (s.setWatchU u w).cores = s.cores := rfl
@[simp] theorem State.setWatchU_l1d (s : State) (u : Nat) (w : WatchU) : (s.setWatchU u w).l1d = s.l1d := rfl
@[simp] theorem State.setWatchU_l1i (s : State) (u : Nat) (w : WatchU) : (s.setWatchU u w).l1i = s.l1i := rfl
@[simp] theorem State.setWatchU_dc (s : State) (u : Nat) (w : WatchU) : (s.setWatchU u w).dc = s.dc := rfl
@[simp] theorem State.setWatchU_victim (s : State) (u : Nat) (w : WatchU) : (s.setWatchU u w).victim = s.victim := rfl
@[simp] theorem State.setWatchU_reclaim (s : State) (u : Nat) (w : WatchU) : (s.setWatchU u w).reclaim = s.reclaim := rfl
@[simp] theorem State.setWatchU_dup (s : State) (u : Nat) (w : WatchU) : (s.setWatchU u w).dup = s.dup := rfl
@[simp] theorem State.setWatchU_tx (s : State) (u : Nat) (w : WatchU) : (s.setWatchU u w).tx = s.tx := rfl
@[simp] theorem State.setWatchU_txq (s : State) (u : Nat) (w : WatchU) : (s.setWatchU u w).txq = s.txq := rfl
@[simp] theorem State.setWatchU_lattice (s : State) (u : Nat) (w : WatchU) : (s.setWatchU u w).lattice = s.lattice := rfl
@[simp] theorem State.setWatchU_hlocks (s : State) (u : Nat) (w : WatchU) : (s.setWatchU u w).hlocks = s.hlocks := rfl
@[simp] theorem State.setWatchU_hbm (s : State) (u : Nat) (w : WatchU) : (s.setWatchU u w).hbm = s.hbm := rfl
@[simp] theorem State.setWatchU_poison (s : State) (u : Nat) (w : WatchU) : (s.setWatchU u w).poison = s.poison := rfl
@[simp] theorem State.setWatchU_host (s : State) (u : Nat) (w : WatchU) : (s.setWatchU u w).host = s.host := rfl
@[simp] theorem State.setWatchU_chan (s : State) (u : Nat) (w : WatchU) : (s.setWatchU u w).chan = s.chan := rfl
@[simp] theorem State.setWatchU_ramp (s : State) (u : Nat) (w : WatchU) : (s.setWatchU u w).ramp = s.ramp := rfl
@[simp] theorem State.setWatchU_buckets (s : State) (u : Nat) (w : WatchU) : (s.setWatchU u w).buckets = s.buckets := rfl
@[simp] theorem State.setWatchU_bucketAt (s : State) (u : Nat) (w : WatchU) : (s.setWatchU u w).bucketAt = s.bucketAt := rfl
@[simp] theorem State.setWatchU_bucketQ (s : State) (u : Nat) (w : WatchU) : (s.setWatchU u w).bucketQ = s.bucketQ := rfl
@[simp] theorem State.setWatchU_train (s : State) (u : Nat) (w : WatchU) : (s.setWatchU u w).train = s.train := rfl
@[simp] theorem State.setWatchU_tlbs (s : State) (u : Nat) (w : WatchU) : (s.setWatchU u w).tlbs = s.tlbs := rfl
@[simp] theorem State.setWatchU_walks (s : State) (u : Nat) (w : WatchU) : (s.setWatchU u w).walks = s.walks := rfl
@[simp] theorem State.setWatchU_faults (s : State) (u : Nat) (w : WatchU) : (s.setWatchU u w).faults = s.faults := rfl
@[simp] theorem State.setWatchU_gens (s : State) (u : Nat) (w : WatchU) : (s.setWatchU u w).gens = s.gens := rfl
@[simp] theorem State.setWatchU_ctxs (s : State) (u : Nat) (w : WatchU) : (s.setWatchU u w).ctxs = s.ctxs := rfl
@[simp] theorem State.setWatchU_mems (s : State) (u : Nat) (w : WatchU) : (s.setWatchU u w).mems = s.mems := rfl
@[simp] theorem State.setWatchU_sigs (s : State) (u : Nat) (w : WatchU) : (s.setWatchU u w).sigs = s.sigs := rfl
@[simp] theorem State.setWatchU_arcs (s : State) (u : Nat) (w : WatchU) : (s.setWatchU u w).arcs = s.arcs := rfl
@[simp] theorem State.setWatchU_rings (s : State) (u : Nat) (w : WatchU) : (s.setWatchU u w).rings = s.rings := rfl
@[simp] theorem State.setWatchU_ctls (s : State) (u : Nat) (w : WatchU) : (s.setWatchU u w).ctls = s.ctls := rfl
@[simp] theorem State.setWatchU_peers (s : State) (u : Nat) (w : WatchU) : (s.setWatchU u w).peers = s.peers := rfl
@[simp] theorem State.setWatchU_parkq (s : State) (u : Nat) (w : WatchU) : (s.setWatchU u w).parkq = s.parkq := rfl
@[simp] theorem State.setWatchU_watch (s : State) (u : Nat) (w : WatchU) : (s.setWatchU u w).watch = s.watch := rfl
@[simp] theorem State.setWatchU_sigAdds (s : State) (u : Nat) (w : WatchU) : (s.setWatchU u w).sigAdds = s.sigAdds := rfl
@[simp] theorem State.setWatchU_addHandle (s : State) (u : Nat) (w : WatchU) : (s.setWatchU u w).addHandle = s.addHandle := rfl
@[simp] theorem State.setWatchU_rejects (s : State) (u : Nat) (w : WatchU) : (s.setWatchU u w).rejects = s.rejects := rfl
@[simp] theorem State.setWatchU_chords (s : State) (u : Nat) (w : WatchU) : (s.setWatchU u w).chords = s.chords := rfl
@[simp] theorem State.setWatchU_links (s : State) (u : Nat) (w : WatchU) : (s.setWatchU u w).links = s.links := rfl
@[simp] theorem State.setWatchU_clusters (s : State) (u : Nat) (w : WatchU) : (s.setWatchU u w).clusters = s.clusters := rfl
@[simp] theorem State.setWatchU_duty (s : State) (u : Nat) (w : WatchU) : (s.setWatchU u w).duty = s.duty := rfl
@[simp] theorem State.setWatchU_grants (s : State) (u : Nat) (w : WatchU) : (s.setWatchU u w).grants = s.grants := rfl
@[simp] theorem State.setWatchU_powerAt (s : State) (u : Nat) (w : WatchU) : (s.setWatchU u w).powerAt = s.powerAt := rfl
@[simp] theorem State.setWatchU_overCap (s : State) (u : Nat) (w : WatchU) : (s.setWatchU u w).overCap = s.overCap := rfl
@[simp] theorem State.setWatchU_sites (s : State) (u : Nat) (w : WatchU) : (s.setWatchU u w).sites = s.sites := rfl
@[simp] theorem State.setWatchU_winLog (s : State) (u : Nat) (w : WatchU) : (s.setWatchU u w).winLog = s.winLog := rfl
@[simp] theorem State.setWatchU_life (s : State) (u : Nat) (w : WatchU) : (s.setWatchU u w).life = s.life := rfl
@[simp] theorem State.setWatchU_ledger (s : State) (u : Nat) (w : WatchU) : (s.setWatchU u w).ledger = s.ledger := rfl
@[simp] theorem State.setWatchU_floors (s : State) (u : Nat) (w : WatchU) : (s.setWatchU u w).floors = s.floors := rfl
@[simp] theorem State.setWatchU_retFuse (s : State) (u : Nat) (w : WatchU) : (s.setWatchU u w).retFuse = s.retFuse := rfl
@[simp] theorem State.setWatchU_trend (s : State) (u : Nat) (w : WatchU) : (s.setWatchU u w).trend = s.trend := rfl
@[simp] theorem State.setWatchU_timingDays (s : State) (u : Nat) (w : WatchU) : (s.setWatchU u w).timingDays = s.timingDays := rfl
@[simp] theorem State.setWatchU_traceProd (s : State) (u : Nat) (w : WatchU) : (s.setWatchU u w).traceProd = s.traceProd := rfl
@[simp] theorem State.setWatchU_traceCons (s : State) (u : Nat) (w : WatchU) : (s.setWatchU u w).traceCons = s.traceCons := rfl
@[simp] theorem State.setWatchU_traceSeq (s : State) (u : Nat) (w : WatchU) : (s.setWatchU u w).traceSeq = s.traceSeq := rfl
@[simp] theorem State.setWatchU_traceLoss (s : State) (u : Nat) (w : WatchU) : (s.setWatchU u w).traceLoss = s.traceLoss := rfl
@[simp] theorem State.setWatchU_watches (s : State) (u : Nat) (w : WatchU) : (s.setWatchU u w).watches = Tbl.set s.watches u w := rfl
@[simp] theorem State.setWatchU_tapIr (s : State) (u : Nat) (w : WatchU) : (s.setWatchU u w).tapIr = s.tapIr := rfl
@[simp] theorem State.setWatchU_tapDr (s : State) (u : Nat) (w : WatchU) : (s.setWatchU u w).tapDr = s.tapDr := rfl
@[simp] theorem State.setWatchU_keys (s : State) (u : Nat) (w : WatchU) : (s.setWatchU u w).keys = s.keys := rfl
@[simp] theorem State.setWatchU_triples (s : State) (u : Nat) (w : WatchU) : (s.setWatchU u w).triples = s.triples := rfl
@[simp] theorem State.setWatchU_spdm (s : State) (u : Nat) (w : WatchU) : (s.setWatchU u w).spdm = s.spdm := rfl
@[simp] theorem State.setWatchU_aux (s : State) (u : Nat) (w : WatchU) : (s.setWatchU u w).aux = s.aux := rfl
@[simp] theorem State.setWatchU_vin48 (s : State) (u : Nat) (w : WatchU) : (s.setWatchU u w).vin48 = s.vin48 := rfl
@[simp] theorem State.setWatchU_refclk (s : State) (u : Nat) (w : WatchU) : (s.setWatchU u w).refclk = s.refclk := rfl
@[simp] theorem State.setWatchU_powered (s : State) (u : Nat) (w : WatchU) : (s.setWatchU u w).powered = s.powered := rfl
@[simp] theorem State.setWatchU_ctlReady (s : State) (u : Nat) (w : WatchU) : (s.setWatchU u w).ctlReady = s.ctlReady := rfl
@[simp] theorem State.setWatchU_hostTraining (s : State) (u : Nat) (w : WatchU) : (s.setWatchU u w).hostTraining = s.hostTraining := rfl
@[simp] theorem State.setWatchU_hostLost (s : State) (u : Nat) (w : WatchU) : (s.setWatchU u w).hostLost = s.hostLost := rfl
@[simp] theorem State.setWatchU_throttle (s : State) (u : Nat) (w : WatchU) : (s.setWatchU u w).throttle = s.throttle := rfl
@[simp] theorem State.setWatchU_thermTrip (s : State) (u : Nat) (w : WatchU) : (s.setWatchU u w).thermTrip = s.thermTrip := rfl
@[simp] theorem State.setWatchU_alert (s : State) (u : Nat) (w : WatchU) : (s.setWatchU u w).alert = s.alert := rfl
@[simp] theorem State.setWatchU_currentLimit (s : State) (u : Nat) (w : WatchU) : (s.setWatchU u w).currentLimit = s.currentLimit := rfl
@[simp] theorem State.setWatchU_safeThermal (s : State) (u : Nat) (w : WatchU) : (s.setWatchU u w).safeThermal = s.safeThermal := rfl
@[simp] theorem State.setWatchU_hot (s : State) (u : Nat) (w : WatchU) : (s.setWatchU u w).hot = s.hot := rfl
@[simp] theorem State.setWatchU_starting (s : State) (u : Nat) (w : WatchU) : (s.setWatchU u w).starting = s.starting := rfl
@[simp] theorem State.setWatchU_failedStart (s : State) (u : Nat) (w : WatchU) : (s.setWatchU u w).failedStart = s.failedStart := rfl
@[simp] theorem State.setWatchU_warmFails (s : State) (u : Nat) (w : WatchU) : (s.setWatchU u w).warmFails = s.warmFails := rfl
@[simp] theorem State.setWatchU_fetchStop (s : State) (u : Nat) (w : WatchU) : (s.setWatchU u w).fetchStop = s.fetchStop := rfl
@[simp] theorem State.setWatchU_identifyEnds (s : State) (u : Nat) (w : WatchU) : (s.setWatchU u w).identifyEnds = s.identifyEnds := rfl
@[simp] theorem State.setWatchU_latchTimer (s : State) (u : Nat) (w : WatchU) : (s.setWatchU u w).latchTimer = s.latchTimer := rfl
@[simp] theorem State.setWatchU_latchStop (s : State) (u : Nat) (w : WatchU) : (s.setWatchU u w).latchStop = s.latchStop := rfl
@[simp] theorem State.setWatchU_teardowns (s : State) (u : Nat) (w : WatchU) : (s.setWatchU u w).teardowns = s.teardowns := rfl

end Sys2Proof.Machine
end

