-- ==== Sys2Proof/Laws/Server.lean ====
section
/-! SUPPORT. The one path of a request of an open session: what the server does once the request comes to be performed. -/

namespace Sys2Proof.Machine

/-- The state after a request was performed, with its response kept and sent, or waiting for flash. -/
def State.afterRequest (s : State) (p : Port) (c : Sess) (f : Frame) : State :=
  let d := c.asking s.now f.seq
  let r := (s.forRequest c f).performFit d p f
  let e := (r.1.sess.find? fun x => x.id = d.id).getD d
  let rsp := sentTo e r.2.1
  let u := r.1.keepRsp e.id f.seq rsp
  if r.2.2.isEmpty then u.answer p rsp
  else
    let t := { u with flash := u.flash ++ [⟨r.2.2, p, rsp⟩] }
    if p.tr = .mbx then t.setMbx p.fn { t.mbxOf p.fn with busy := true } else t

theorem State.setSess_setSess (s : State) (c d : Sess) (h : d.id = c.id) : (s.setSess c).setSess d = s.setSess d := by
  simp only [State.setSess, List.map_map]
  congr 1
  apply List.map_congr_left
  intro x _
  simp only [Function.comp]
  by_cases hx : x.id = c.id <;> simp [hx, h]

@[simp] theorem State.setSess_now (s : State) (c : Sess) : (s.setSess c).now = s.now := rfl
@[simp] theorem State.setSess_obj (s : State) (c : Sess) : (s.setSess c).obj = s.obj := rfl
@[simp] theorem State.setSess_flash (s : State) (c : Sess) : (s.setSess c).flash = s.flash := rfl
@[simp] theorem State.setSess_out (s : State) (c : Sess) : (s.setSess c).out = s.out := rfl
@[simp] theorem State.setSess_mbx (s : State) (c : Sess) : (s.setSess c).mbx = s.mbx := rfl

theorem State.expire_now (s : State) : s.expire.now = s.now := by unfold State.expire; exact foldl_same State.now (f := fun (s : State) (c : Sess) => s.endSess c.id) (fun _ _ => rfl) _ _
theorem State.expire_obj (s : State) : s.expire.obj = s.obj := by unfold State.expire; exact foldl_same State.obj (f := fun (s : State) (c : Sess) => s.endSess c.id) (fun _ _ => rfl) _ _
theorem State.expire_out (s : State) : s.expire.out = s.out := by unfold State.expire; exact foldl_same State.out (f := fun (s : State) (c : Sess) => s.endSess c.id) (fun _ _ => rfl) _ _
theorem State.expire_flash (s : State) : s.expire.flash = s.flash := by unfold State.expire; exact foldl_same State.flash (f := fun (s : State) (c : Sess) => s.endSess c.id) (fun _ _ => rfl) _ _

/-- A frame of an open session reaches it. -/
theorem State.serveFrame_of_admits {s : State} {p : Port} {f : Frame} {c : Sess} (h : s.Admits p f c) :
    s.serveFrame p f = s.received.inSession p c f := by
  have hf := h.found
  simp only [State.received] at hf
  have hv : (isVf p && decide ((s.expire.bump 8 oFramesIn 1).nat oMbxVfEnable = 0)) = false := by
    cases hc : isVf p
    · rfl
    · simpa [State.received] using h.mailbox hc
  simp only [State.serveFrame, h.hears, hf, h.sound, h.tag, h.form, hv, h.named, Bool.not_true, Bool.false_eq_true, if_false,
    Bool.or_false]
  rfl

/-- A session's request that is in order is performed, kept and answered. -/
theorem State.inSession_of_admits {s : State} {p : Port} {f : Frame} {c : Sess} (h : s.Admits p f c) :
    s.received.inSession p c f =
      let d := c.asking s.now f.seq
      let r := (s.forRequest c f).performFit d p f
      let e := (r.1.sess.find? fun x => x.id = d.id).getD d
      let rsp := sentTo e r.2.1
      let u := r.1.keepRsp e.id f.seq rsp
      if r.2.2.isEmpty then (u, some rsp) else ({ u with flash := u.flash ++ [⟨r.2.2, p, rsp⟩] }, none) := by
  have hk : (c.kept.find? fun e => e.1 = f.seq) = none := by
    rw [List.find?_eq_none]; intro e he; simpa using h.new e he
  have hp : (c.pending && !pendingOk { c with lastUse := s.now } f) = false := by
    show (c.pending && !pendingOk c f) = false
    cases hc : c.pending
    · rfl
    · simp [h.asks hc]
  have hn : s.received.now = s.now := by simp [State.received, State.expire_now]
  have hs : (s.received.setSess { c with lastUse := s.now }).setSess { c with lastUse := s.now, lastSeq := some f.seq } =
      s.forRequest c f := State.setSess_setSess _ _ _ rfl
  unfold State.inSession
  simp only [hn, hp, hk, h.after, Bool.false_eq_true, if_false, Bool.not_true]
  rw [hs]
  rfl

/-- A request that comes to be performed is performed, and answered. -/
theorem State.answerFrame_of_admits {s : State} {p : Port} {f : Frame} {c : Sess} (h : s.Admits p f c) :
    s.answerFrame p f = s.afterRequest p c f := by
  have hm : (p.tr = .mbx && s.hears p && !s.mbxFree p.fn) = false := by
    by_cases hp : p.tr = .mbx
    · simp [h.free hp]
    · simp [hp]
  rw [State.answerFrame, hm, State.serveFrame_of_admits h, State.inSession_of_admits h, State.afterRequest]
  simp only [Bool.false_eq_true, if_false]
  by_cases hb : (((s.forRequest c f).performFit (c.asking s.now f.seq) p f).2.2.isEmpty) = true
  · simp only [hb, if_true]
  · simp only [hb, if_false, Bool.false_eq_true]
    by_cases hp : p.tr = .mbx
    · simp [hp, State.mbxWaits]
    · simp [hp]

/-! ### Responses -/

theorem State.nat_congr {s t : State} (h : s.obj = t.obj) (k : Nat) : s.nat k = t.nat k := by simp [State.nat, State.val, h]
theorem State.ctr_congr {s t : State} (h : s.obj = t.obj) (k : Nat) : s.ctr k = t.ctr k := by simp [State.ctr, h]

/-- What is answered is sent. -/
theorem State.sent_answer (s : State) (p : Port) (f : Frame) : (s.answer p f).Sent p f := by
  unfold State.answer State.Sent
  split
  · split <;> simp_all [State.msix, State.mbxOf, State.portReady, Mbx.respond]
  · split <;> simp

theorem State.answer_obj (s : State) (p : Port) (f : Frame) : (s.answer p f).obj = s.obj := by
  unfold State.answer; split <;> split <;> simp [State.msix]
theorem State.answer_flash (s : State) (p : Port) (f : Frame) : (s.answer p f).flash = s.flash := by
  unfold State.answer; split <;> split <;> simp [State.msix]
theorem State.answer_sess (s : State) (p : Port) (f : Frame) : (s.answer p f).sess = s.sess := by
  unfold State.answer; split <;> split <;> simp [State.msix]
theorem State.keepRsp_obj (s : State) (a b : Nat) (f : Frame) : (s.keepRsp a b f).obj = s.obj := by
  unfold State.keepRsp; split <;> simp
theorem State.keepRsp_flash (s : State) (a b : Nat) (f : Frame) : (s.keepRsp a b f).flash = s.flash := by
  unfold State.keepRsp; split <;> simp

/-- What a frame is sent as differs from it in its tag, its size and its TAG bit only (R42). -/
theorem sentTo_items (c : Sess) (f : Frame) : (sentTo c f).items = f.items := by unfold sentTo; split <;> rfl
theorem sentTo_seq (c : Sess) (f : Frame) : (sentTo c f).seq = f.seq := by unfold sentTo; split <;> rfl
theorem sentTo_status (c : Sess) (f : Frame) : (sentTo c f).status = f.status := by unfold sentTo; split <;> rfl
theorem sentTo_time (c : Sess) (f : Frame) : (sentTo c f).time = f.time := by unfold sentTo; split <;> rfl

theorem State.received_nat (s : State) {k : Nat} (h : k ≠ oFramesIn) : s.received.nat k = s.nat k := by
  rw [State.received, State.nat_bump_ne _ _ _ h]; exact State.nat_congr (State.expire_obj s) k
theorem State.forRequest_obj (s : State) (c : Sess) (f : Frame) : (s.forRequest c f).obj = s.received.obj := rfl
theorem State.countDenials_nat (s : State) (l : List Nat) {k : Nat} (h : k ≠ oLevelDenials) : (s.countDenials l).nat k = s.nat k := by
  unfold State.countDenials; simp only; split
  · rfl
  · exact State.nat_bump_ne _ _ _ h

end Sys2Proof.Machine
end

