-- ==== Sys2Proof/Laws/Threads.lean ====
section
/-! SUPPORT. What the issue of an instruction rests on: what a fetch changes, and what a form's instruction does once it may issue. -/

namespace Sys2Proof.Machine

@[simp] theorem l1Put_groups (s : State) (inst : Bool) (k line : Nat) (ls : List L1Line) : (s.l1Put inst k line ls).groups = s.groups := by
  unfold State.l1Put; split <;> rfl

@[simp] theorem l1Update_groups (s : State) (inst : Bool) (k : Nat) (l : L1Line) (mru : Bool) : (s.l1Update inst k l mru).groups = s.groups := by
  simp [State.l1Update]

@[simp] theorem tlbInsert_groups (s : State) (e : TlbE) : (s.tlbInsert e).groups = s.groups := by
  unfold State.tlbInsert; rfl

theorem lookup_groups {s t : State} {eng part hw va : Nat} {x : Target} (h : s.lookup eng part hw va = some (t, x)) : t.groups = s.groups := by
  unfold State.lookup at h
  split at h
  · cases h; simp
  · simp only [Option.map_eq_some_iff] at h
    obtain ⟨e, -, h⟩ := h
    cases h; simp

theorem fetchPlace_groups {s t : State} {k g : Nat} {x : Target} (h : s.fetchPlace k g = some (t, x)) : t.groups = s.groups := by
  unfold State.fetchPlace at h
  cases hc : ((s.core k).shard.bind fun h => s.ctxOf h.ctx) with
  | none => simp [hc] at h
  | some c =>
    cases hw : c.hw with
    | none => simp [hc, hw] at h
    | some w => simp only [hc, hw, Option.bind_some] at h; exact lookup_groups h

/-- A fetch changes no group. -/
@[simp] theorem touchFetch_groups (s : State) (k g : Nat) : (s.touchFetch k g).groups = s.groups := by
  unfold State.touchFetch
  dsimp only
  split
  · rfl
  · split
    · next h => split <;> simp [fetchPlace_groups h]
    · rfl

@[simp] theorem touchFetch_group (s : State) (k g j h : Nat) : (s.touchFetch k g).group j h = s.group j h := by
  simp [State.group]

/-- An instruction that was served without the L1 touches nothing. -/
theorem touchFetch_of_ibuf {s : State} {k g w : Nat} (h : (s.group k g).ibuf = some ((s.group k g).fetchVa, w)) : s.touchFetch k g = s := by
  simp [State.touchFetch, h]

/-- What an instruction does that is ready. -/
theorem threadOp_ready {s : State} {k g : Nat} {i : TInstr} {fm : OpForm} (f : State → Group → List Nat → Ran) (h : s.Ready k g i fm) :
    s.threadOp k g i fm f =
      match f (s.touchFetch k g) (s.group k g) ((s.group k g).execLanes i) with
      | .wait t => t.notReady k g
      | .failed t => t
      | .fault t c => t.groupFault k g c
      | .done t => t.issued k g false
      | .jumped t => t.issued k g true := by
  have hm := h.may
  simp only [State.mayIssue, Bool.and_eq_true, decide_eq_true_eq] at hm
  have hk : fm.keys.contains (opKey i) = true := by
    have := h.legal
    simp only [OpForm.legal, Bool.and_eq_true] at this
    exact this.1.1.1.1
  have hl : ¬ ∃ a, (s.group k g).lock = some a ∧ (64 ≤ a.count ∨ fm.inLock = false) := by
    rintro ⟨a, e, c⟩
    have := h.lock a e
    rcases c with c | c
    · omega
    · simp [c] at this
  unfold State.threadOp
  simp only [hm.1.1, hm.1.2, hm.2, Bool.not_true, Bool.or_self, Bool.false_eq_true, if_false, ne_eq, not_true_eq_false, hk, Bool.and_false,
    decide_false, h.clear]
  simp [State.runOp, h.legal, h.names, hl] <;> cases f (s.touchFetch k g) (s.group k g) ((s.group k g).execLanes i) <;> rfl

end Sys2Proof.Machine
end

