-- ==== Sys2Proof/Tests/Base.lean ====
section
/-! SUPPORT. Small states and requests that the tests and witnesses are made of. -/

namespace Sys2Proof.Tests

set_option Elab.async false

open Sys2Proof Sys2Proof.Machine

/-- The module READY with both host ports up, and nothing under way. -/
def ready : State :=
  { State.reset with obj := Tbl.set State.reset.obj oModuleState (some 2), starting := none, hostTraining := [], hostLost := [] }

/-- A port that needs no proof for L2. -/
def i3c : Port := { tr := .i3c, fn := 0 }

/-- An open session of a level on a port. -/
def sessOn (p : Port) (level : Nat) : Sess :=
  { id := 5, level := level, part := 0, port := p, pending := false, slot := 0, cnonce := List.replicate 16 1, dnonce := List.replicate 16 2,
    key := List.replicate 32 3, scope := 0xFF, proven := false, lastSeq := none, kept := [], opened := 0, lastUse := 0, tokenEnd := none,
    seg0 := [], ctxSel := 0, trendSel := 0, ntfSeq := 0 }

/-- A state with one session. -/
def State.withSess (s : State) (c : Sess) : State := { s with sess := [c] }

/-- The sender of the session's first request. -/
def who (p : Port) : Who := ⟨p, 5, 1, none⟩

/-- A request frame of the session. -/
def asks (op flags : Nat) (items : List Item) : Frame :=
  sealed { ver := 1, op := op, flags := flags, status := 0, session := 5, seq := 1, time := 0, hdr := none, items := items, tag := none, size := 0,
           crcOk := true, agree := true }

/-- An item that names an object, with data. -/
def item (key : Nat) (data : List Byte) : Item :=
  { idx := key / 256, sub := key % 256, ty := 0xF, rsv := 0, istatus := 0, seg := 0, data := data, padOk := true }

theorem admits_of {s : State} {p : Port} {f : Frame} {c : Sess}
    (h : s.hears p = true ∧ frameLost f = false ∧ f.session ≠ 0 ∧ s.received.findSess p f.session = some c ∧ tagFails (some c) f = false ∧
      frameBad f c.tags = false ∧ (isVf p = true → s.received.nat oMbxVfEnable ≠ 0) ∧ (p.tr = .mbx → s.mbxFree p.fn = true) ∧ (c.pending = true → pendingOk c f = true) ∧
      (∀ e ∈ c.kept, e.1 ≠ f.seq) ∧ seqAfter c.lastSeq f.seq = true) : s.Admits p f c := by
  obtain ⟨h1, h2, h3, h4, h5, h6, h7, h8, h9, h10, h11⟩ := h
  exact ⟨h1, h2, h3, h4, h5, h6, h7, h8, h9, h10, h11⟩

theorem takes_of {s : State} {w : Who} {key : Nat} {data : List Byte} {c : Sess} (a : s.Admits w.port (writeOf w key data) c)
    (h : (s.forRequest c (writeOf w key data)).itemStatuses (c.asking s.now w.seq) w.port (writeOf w key data).items = [0]) : s.Takes w key data c :=
  ⟨a, h⟩

theorem ready_of {s : State} {k g : Nat} {i : TInstr} {fm : OpForm}
    (h : isCore k = true ∧ isGroup g = true ∧ s.mayIssue k g i = true ∧ (s.group k g).awaits fm.regs = false ∧
      (match (s.group k g).lock with
       | none => true
       | some l => decide (l.count < 64) && fm.inLock) = true ∧ fm.legal i = true ∧ (s.group k g).regsCode fm.regs = 0) : s.Ready k g i fm := by
  obtain ⟨h1, h2, h3, h4, h5, h6, h7⟩ := h
  refine ⟨h1, h2, h3, h4, ?_, h6, h7⟩
  intro l hl
  rw [hl] at h5
  simpa using h5

theorem commands_of {s : State} {fn op v : Nat} {zero : List (Nat × Nat × Nat)}
    (h : isFn fn = true ∧ s.ctlHead fn = some v ∧ hOp v = op ∧ (s.ctl fn).stale = 0 ∧ ctlHeadOk v = true ∧
      ∀ z ∈ zero, bits z.2.1 z.2.2 (ctlW v z.1) = 0) : s.Commands fn op v zero := by
  obtain ⟨h1, h2, h3, h4, h5, h6⟩ := h
  exact ⟨h1, h2, h3, h4, h5, h6⟩

/-- The checks of `State.Admits`. -/
def admitsB (s : State) (p : Port) (f : Frame) (c : Sess) : Bool :=
  s.hears p && !frameLost f && decide (f.session ≠ 0) && decide (s.received.findSess p f.session = some c) && !tagFails (some c) f &&
    !frameBad f c.tags && (!isVf p || decide (s.received.nat oMbxVfEnable ≠ 0)) && (decide (p.tr ≠ .mbx) || s.mbxFree p.fn) && (!c.pending || pendingOk c f) &&
    (c.kept.all fun e => decide (e.1 ≠ f.seq)) && seqAfter c.lastSeq f.seq

theorem admits_of_b {s : State} {p : Port} {f : Frame} {c : Sess} (h : admitsB s p f c = true) : s.Admits p f c := by
  simp only [admitsB, Bool.and_eq_true, Bool.not_eq_true', decide_eq_true_eq, Bool.or_eq_true, List.all_eq_true] at h
  obtain ⟨⟨⟨⟨⟨⟨⟨⟨⟨⟨h1, h2⟩, h3⟩, h4⟩, h5⟩, h6⟩, h7⟩, hm⟩, h8⟩, h9⟩, h10⟩ := h
  refine ⟨h1, h2, h3, h4, h5, h6, ?_, ?_, ?_, h9, h10⟩
  · intro hv; simpa [hv] using h7
  · intro hp; simpa [hp] using hm
  · intro hc; simpa [hc] using h8

/-- The checks of `State.Takes`, in a session of a level on the I3C port. -/
def takesB (s : State) (key : Nat) (data : List Byte) (level : Nat) : Bool :=
  let c := sessOn i3c level
  let f := writeOf (who i3c) key data
  let u := State.withSess s c
  admitsB u i3c f c && decide ((u.forRequest c f).itemStatuses (c.asking u.now 1) i3c f.items = [0])

theorem takes_of_b {s : State} {key : Nat} {data : List Byte} {level : Nat} (h : takesB s key data level = true) :
    (State.withSess s (sessOn i3c level)).Takes (who i3c) key data (sessOn i3c level) := by
  simp only [takesB, Bool.and_eq_true, decide_eq_true_eq] at h
  exact ⟨admits_of_b h.1, h.2⟩

/-- The checks of `State.TakesAll`. -/
def takesAllB (s : State) (l : List (Nat × List Byte)) (level : Nat) : Bool :=
  let c := sessOn i3c level
  let f := allOf (who i3c) l
  let u := State.withSess s c
  admitsB u i3c f c && decide (l.length ≤ 64) && decide (∀ st ∈ (u.forRequest c f).itemStatuses (c.asking u.now 1) i3c f.items, st = 0)

theorem takesAll_of_b {s : State} {l : List (Nat × List Byte)} {level : Nat} (h : takesAllB s l level = true) :
    (State.withSess s (sessOn i3c level)).TakesAll (who i3c) l (sessOn i3c level) := by
  simp only [takesAllB, Bool.and_eq_true, decide_eq_true_eq] at h
  exact ⟨admits_of_b h.1.1, h.1.2, h.2⟩

/-! ### A translated context -/

/-- The handle of the first context. -/
def ctxH : Nat := ready.handle 1 0

/-- The first context is resident, and a unit's translation cache maps its first 64 GiB to the window of host port 0. -/
def memOn (s : State) (unit : Nat) : State :=
  { s with ctxs := [(0, { Ctx.reset with live := true, hw := some 0 })], tlbs := [⟨unit, 0, 3, 0, 2 ^ 63 + 3 * 2 ^ 61 + 2 ^ 59 + 0x40000000000, 0⟩] }

/-- A shard that has begun in the first context. -/
def shard : Shard := { Shard.reset with ctx := ctxH, begun := true, bound := 1000 }

/-- A core that runs a shard. -/
def runs (s : State) (k : Nat) : State := { memOn s k with cores := [(k, { CoreU.reset with shard := some shard })] }

/-- Values given to objects. -/
def set (s : State) (l : List (Nat × Nat)) : State := { s with obj := l.foldl (fun o e => Tbl.set o e.1 (some e.2)) s.obj }

/-! ### Rings -/

/-- A record in the host memory of port 0. -/
def inHost (s : State) (addr v : Nat) : State := { s with host := Memory.putNum s.host (hostKey 0 addr) 64 v }

/-- A record of one command, with its operand words. -/
def record (op ctx : Nat) (w : List Nat) : Nat := op * 2 ^ 120 + 2 ^ 96 + ctx * 2 ^ 64 + 0x77 * 2 ^ 32 + leNat (w.flatMap (leBytes 8)) * 2 ^ 128

/-- A control command at the head of function 0's control ring. -/
def control (s : State) (op : Nat) (w : List Nat) : State := inHost { set s [(oCtlEnable 0, 1)] with ctls := [(0, ⟨1, 0, 0⟩)] } 0 (record op 0 w)

/-- A function's command, in a form that a check evaluates. -/
def commandsB (s : State) (op : Nat) (w : List Nat) (zero : List (Nat × Nat × Nat)) : Bool :=
  let u := control s op w
  decide (u.ctlHead 0 = some (record op 0 w)) && decide (hOp (record op 0 w) = op) && ctlHeadOk (record op 0 w) &&
    zero.all fun z => decide (bits z.2.1 z.2.2 (ctlW (record op 0 w) z.1) = 0)

theorem commands_of_b {s : State} {op : Nat} {w : List Nat} {zero : List (Nat × Nat × Nat)} (h : commandsB s op w zero = true) :
    (control s op w).Commands 0 op (record op 0 w) zero := by
  simp only [commandsB, Bool.and_eq_true, decide_eq_true_eq, List.all_eq_true] at h
  exact ⟨by decide, h.1.1.1, h.1.1.2, rfl, h.1.2, h.2⟩

/-- The live contexts, rings and whatever else a command needs: a context, a step ring and its completion ring. -/
def ring5 : Nat := 65536 * 5
def comp7 : Nat := 65536 * 7
def aRing : Ring := { Ring.reset with live := true, base := 0x10000, log2 := 6, page := 1, resumed := true, comp := ready.handle 7 0, waitTo := 1000, runTo := 1000 }
def aComp : Ring := { Ring.reset with live := true, kind := 4, base := 0x20000, log2 := 6, page := 2 }

/-- A submitting ring, its completion ring, and the first context resident. -/
def ringed (r : Ring) : State :=
  { memOn ready 0 with rings := [(ring5, { r with live := true, base := 0x10000, log2 := 6, page := 1, resumed := true, comp := ready.handle 7 0 }), (comp7, aComp)] }

/-! ### Octant 0 -/

/-- The first channels of octant 0 belong to partition 0, as after reset. -/
structure Octant0 (u : State) : Prop where
  settled : u.layout = []
  targets : u.targetsOf 0 = []
  owners : ((List.range 192).filter fun i => u.chanOwner (192 * 0 + i) = 0 && u.chanBase (192 * 0 + i) ≠ csTarget && !([] : List Nat).contains i) =
    List.range 192
  base : u.ctr (oRegionBase 0 0) = 0

theorem Octant0.inRegion {u : State} (h : Octant0 u) (a n : Nat) (ha : a + n ≤ 2 ^ 31) (hn : 0 < n) : u.inRegion 0 a n = true := by
  have hc : u.chansOf 0 0 = List.range 192 := by
    unfold State.chansOf
    rw [h.targets]
    exact h.owners
  have hr : u.regionAt 0 0 = some 0 := by
    have e : List.range 17 = 0 :: (List.range 17).tail := by decide
    unfold State.regionAt
    rw [e, List.find?_cons_of_pos]
    simp [State.layoutOf, State.layoutNow, h.settled, hc, h.base]
  have hp : ∀ pa, pa < 2 ^ 31 → ∃ c l, u.place pa = .chan c l 0 := by
    intro pa hlt
    have h1 : pa / octantBytes = 0 := Nat.div_eq_of_lt (by unfold octantBytes; omega)
    have h2 : pa % octantBytes / 2 ^ 31 = 0 := by rw [Nat.mod_eq_of_lt (by unfold octantBytes; omega)]; omega
    unfold State.place
    rw [if_pos (by unfold octantBytes; omega), h1]
    simp only [h2, hr]
    exact ⟨_, _, rfl⟩
  obtain ⟨c, l, e⟩ := hp a (by omega)
  obtain ⟨c', l', e'⟩ := hp (a + n - 1) (by omega)
  have h1 : a / octantBytes = 0 := Nat.div_eq_of_lt (by unfold octantBytes; omega)
  have h2 : (a + n - 1) / octantBytes = 0 := Nat.div_eq_of_lt (by unfold octantBytes; omega)
  simp [State.inRegion, e, e', h1, h2]

end Sys2Proof.Tests
end

