-- ==== Sys2Proof/Tests/Commands.lean ====
section
/-! SUPPORT. Witnesses: states that meet the hypotheses of the statements on commands, copies, shards, signals and chord instances. -/

namespace Sys2Proof.Tests

set_option Elab.async false

open Sys2Proof Sys2Proof.Machine

/-! ### A context with a table -/

/-- The first context's table stands in the window of host port 0: its first entry is the table again, its second maps 2³⁶ to the window, and its
third maps 2³⁷ to vertex 5. -/
def tabled (s : State) : State :=
  { inHost s 0 (leNat (leBytes 8 (2 ^ 63 + 0x40000000000) ++ leBytes 8 (2 ^ 63 + 3 * 2 ^ 61 + 2 ^ 59 + 0x40000000000) ++
      leBytes 8 (2 ^ 63 + 3 * 2 ^ 61 + 2 ^ 60 + 5 * 2 ^ 42))) with
    ctxs := [(0, { Ctx.reset with live := true, hw := some 0, root := 0x40000000000 })] }

/-- A signal word in the window, which holds 0, and one on the peer. -/
def sigHere : Nat := 2 ^ 36 + 256
def sigThere : Nat := 2 ^ 37 + 256

/-- A state with one ring. -/
def ring1 (s : State) (key : Nat) (r : Ring) : State := { s with rings := [(key, { r with live := true, log2 := 6, resumed := true })] }

/-- A command with a first record of some fields. -/
def cmdOf (op head : Nat) : Cmd := { Cmd.reset with aseq := 1, op := op, ctx := ctxH, recs := [op * 2 ^ 120 + head] }

/-! ### What begins, what waits and what ends -/

/-- The fence of a STEP, RUN or COPY, and the word of a WAIT or SIGNAL. -/
def fenced (va v : Nat) : Nat := va * 2 ^ 200 + v * 2 ^ 128
def worded (va v : Nat) : Nat := va * 2 ^ 456 + v * 2 ^ 384

theorem wit_CommandsBeginAndCopiesMove_steps : ∀ e ∈ [(ring5, 1, 0, 0), (65536 * 6 + 3, 2, 2, 3)],
    let s := fun (head : Nat) => ring1 (tabled ready) e.1 { Ring.reset with kind := e.2.2.1, engine := e.2.2.2, accepted := [cmdOf e.2.1 head] }
    (∀ f ∈ [0, fenced sigHere 0, fenced sigHere 1, fenced sigThere 1], (((s f).ring e.1).next = some (cmdOf e.2.1 f)) ∧ (s f).serves = true) ∧
    ((s 0).ctxOf ctxH).isSome = true ∧ (s 0).noEngine ((s 0).ring e.1) = false ∧
    (s 0).fenceOk (cmdOf e.2.1 0) = true ∧ (s 0).fenceOk (cmdOf e.2.1 (fenced sigHere 0)) = true ∧
    (s 0).fenceOk (cmdOf e.2.1 (fenced sigHere 1)) = false ∧ (s 0).sigPeer ctxH sigHere = false ∧
    (s 0).fenceOk (cmdOf e.2.1 (fenced sigThere 1)) = false ∧ (s 0).sigPeer ctxH sigThere = true ∧
    (set (s 0) [(oCoreState 3, 2)]).noEngine { Ring.reset with kind := 2, engine := 3 } = true ∧ (s 0).noEngine { Ring.reset with part := 1 } = true ∧
    (({ s 0 with ctxs := [(0, { Ctx.reset with live := true, error := true })] } : State).ctxOf ctxH).map (fun x => x.error) = some true := by decide +kernel

/-- A STEP of two shards of which one has ended, in a partition that has no core left. -/
theorem wit_CommandsBeginAndCopiesMove_retired :
    let c : Cmd := { cmdOf 1 (2 * 2 ^ 441) with begun := true, shardsBegun := 1, shardsEnded := 1 }
    let s := ring1 (tabled ready) ring5 { Ring.reset with part := 1, accepted := [c] }
    (s.ring ring5).next = some c ∧ s.serves = true ∧ s.noEngine (s.ring ring5) = true ∧ s.shardsOn ring5 1 = false ∧ c.code = 0 := by
  decide +kernel

theorem wit_CommandsBeginAndCopiesMove_words :
    (∀ op ∈ [4, 5], ∀ w ∈ [worded sigHere 0, worded sigHere 1, worded sigThere 0], let c := cmdOf op w
      let s := ring1 (tabled ready) ring5 { Ring.reset with accepted := [c] }
      (s.ring ring5).next = (if op = 4 then some c else none) ∧ s.serves = true ∧ (s.ring ring5).accepted = [c] ∧ s.waitChord (s.ring ring5) c = none) ∧
    (tabled ready).sigPeer ctxH sigThere = true ∧ (tabled ready).sigPeer ctxH sigHere = false ∧ (tabled ready).sigReached ctxH sigHere 0 = true ∧
    (tabled ready).sigReached ctxH sigHere 1 = false ∧ (tabled ready).xlate ctxH sigThere = some (.peer 5 256) ∧ (tabled ready).carrier ctxH 5 = none ∧
    (tabled ready).xlate ctxH sigHere = some (.mem 0x40000000100 false) ∧
    -- an addition whose word has no translation yet
    (tabled ready).xlate ctxH 8 = none ∧ ((tabled ready).ctxOf ctxH).isSome = true ∧
    -- the carrier arc to the peer: OPEN, BROKEN, and none
    (∀ e ∈ [(1, none), (3, some 0x0C02)], let s : State := { tabled ready with arcs := [(2, { Arc.reset with live := true, kind := 1, ctx := ctxH, vertex := 5, state := e.1 })] }
      (match s.peerArc ctxH 5 with
        | .ok _ => none
        | .error c => some c) = e.2) ∧
    ((tabled ready).arcs.all fun e => !(e.2.live && e.2.kind = 1 && e.2.ctx = ctxH && e.2.vertex = 5)) = true := by decide +kernel

/-- A copy ring's WAIT on the release signal of an instance of which the engine is a member: not begun, begun, and with the instance BROKEN. -/
def waitsOnChord (begun : Bool) (st : Nat) (at_ : Nat) : State :=
  { set (ring1 (tabled ready) (kCopyRing 31) { Ring.reset with kind := 3, engine := 31, accepted := [{ cmdOf 4 (worded sigHere at_) with begun := begun }] })
      [(oOwner 63, 0), (oMembers 63, 2 ^ 127 + 1), (oReleaseSig 63, ready.handle 4 0), (oChordState 63, st)] with
    sigs := [(0, { SigObj.reset with live := true, ctx := ctxH, va := sigHere })] }

theorem wit_CommandsBeginAndCopiesMove_chord : ∀ begun ∈ [true, false], ∀ st ∈ [1, 3], ∀ at_ ∈ [0, 1],
    let s := waitsOnChord begun st at_
    let c : Cmd := { cmdOf 4 (worded sigHere at_) with begun := begun }
    (s.ring (kCopyRing 31)).next = some c ∧ s.serves = true ∧ s.sigPeer ctxH c.word.1 = false ∧ s.waitChord (s.ring (kCopyRing 31)) c = some 63 ∧
      s.ctr (oChordState 63) = st ∧ s.sigReached ctxH c.word.1 c.word.2 = decide (at_ = 0) ∧
      ((s.arriveChord 63 127).map fun u => decide (c ∈ (u.ring (kCopyRing 31)).accepted)) = some true := by decide +kernel

/-! ### Copies -/

/-- A COPY of `n` octets from 0 to 4,096, through an arc where `arc` is not 0. -/
def copyOf (n arc : Nat) : Cmd := cmdOf 3 (4096 * 2 ^ 392 + n * 2 ^ 344 + arc * 2 ^ 308)

theorem wit_CommandsBeginAndCopiesMove_copy : ∀ e ∈ [0, 31],
    (∀ a ∈ [0, ready.handle 3 0], let s := ring1 (tabled ready) (kCopyRing e) { Ring.reset with kind := 3, engine := e, accepted := [copyOf 128 a] }
      (s.ring (kCopyRing e)).next = some (copyOf 128 a) ∧ (s.ring (kCopyRing e)).kind = 3 ∧ s.serves = true ∧ (s.ring (kCopyRing e)).copying.length < 4 ∧
        s.noEngine (s.ring (kCopyRing e)) = false ∧ s.ctr (oCeState e) ≠ 3 ∧ copyArc (copyOf 128 a).head = a) ∧
    (set ready [(oCeState e, 4)]).noEngine { Ring.reset with kind := 3, engine := e } = true ∧
    (∀ x ∈ [(2, 0x0C01), (3, 0x0C02), (0, 1), (1, 0)], ({ ready with arcs := [(0, { Arc.reset with live := true, state := x.1 })] } : State).arcGate 0 = x.2) := by
  decide +kernel

/-- A copy engine's copy of 128 octets in flight. -/
def copying (e : Nat) (c : Cmd) : State :=
  ring1 (memOn ready (256 + e)) (kCopyRing e) { Ring.reset with kind := 3, engine := e, accepted := [{ c with begun := true }] }

/-- Data that was answered, and whether it is poisoned. -/
def gotIt : Got → Option (Nat × Bool)
  | .data v p => some (v, p)
  | _ => none

theorem wit_CommandsBeginAndCopiesMove_pieces :
    let c := copyOf 128 0
    let d : Cmd := { c with begun := true, done := 128 }
    ((copying 31 d).ring (kCopyRing 31)).copying = [d] ∧ d.done = bits 383 344 d.head ∧ (copying 31 d).copyOver 31 d = true ∧
    (let s := copying 31 c
     let s1 := (s.copyRoom 31 c 4096 128).1
     let s2 := s1.unitRead (.copyEngine 31) (copyAccess 31 4 0 c) 128 (kCopyRing 31) 1
     gotIt (s.copyRoom 31 c 4096 128).2 = some (0, false) ∧ (gotIt s2.2).map (fun x => x.2) = some false ∧ (gotIt (s2.1.copyWrite 31 (kCopyRing 31) c 0 4096 128 0).2).isSome = true) ∧
    (let s : State := { copying 31 c with
       dup := [(2 ^ 35, [⟨3, false, true, 15⟩])], l1d := [(l1Key false 3 (2 ^ 35), [{ line := 2 ^ 35, way := 0, st := 3, valid := 15, dirty := 15, poison := 15, data := 0 }])] }
     let s1 := (s.copyRoom 31 c 4096 128).1
     gotIt (s.copyRoom 31 c 4096 128).2 = some (0, false) ∧ (gotIt (s1.unitRead (.copyEngine 31) (copyAccess 31 4 0 c) 128 (kCopyRing 31) 1).2).map (fun x => x.2) = some true) := by decide +kernel

/-- What holds a piece back or ends the copy: an arc that is full or BROKEN, and a destination without a translation. -/
theorem wit_CommandsBeginAndCopiesMove_room :
    let c := copyOf 128 (ready.handle 3 0)
    let m : TxMsg := { m := blankMsg, ring := 0, aseq := 0, sent := false, lastTx := 0, link := 0, resends := 0, nacks := 0 }
    let s := fun (a : Arc) => ({ copying 31 c with arcs := [(0, { a with live := true, kind := 1, ctx := ctxH, vertex := 5 })] } : State)
    (match ((s { Arc.reset with state := 1, unacked := List.replicate 256 m }).copyRoom 31 c 4096 128).2 with
      | .wait => true
      | _ => false) = true ∧
    (match ((s { Arc.reset with state := 3 }).copyRoom 31 c 4096 128).2 with
      | .fail code => code
      | _ => 0) = 0x0C02 ∧
    (match ((ring1 (tabled ready) (kCopyRing 31) { Ring.reset with kind := 3, engine := 31, accepted := [{ copyOf 128 0 with begun := true }] }).copyRoom 31
        (copyOf 128 0) 4096 128).2 with
      | .wait => true
      | _ => false) = true := by decide +kernel

/-! ### Shards -/

/-- A STEP of one shard that has begun, at core 3's partition. -/
def stepping : State :=
  { ring1 (tabled ready) ring5 { Ring.reset with accepted := [{ cmdOf 1 (2 ^ 441) with begun := true, recs := [2 ^ 120 + 2 ^ 441, 0] }] } with
    cores := [(0, { CoreU.reset with freeAt := 5 }), (1, { CoreU.reset with freeAt := 5 }), (2, { CoreU.reset with freeAt := 5 })] }

theorem wit_ShardsBeginAndEnd_begin :
    stepping.coreFree 3 = true ∧ stepping.pickRing 3 = some ring5 ∧ (stepping.ableCmd ring5).isSome = true ∧
    ((stepping.ctxOf ctxH).map fun x => x.error) = some false ∧ stepping.breakpoint 3 0 = 0 ∧ (stepping.core 3).stood = none ∧
    stepping.firstFree 3 ring5 = true ∧ stepping.firstFree 4 ring5 = false ∧ stepping.coreFree 4 = true ∧ stepping.pickRing 4 = some ring5 ∧
    (∀ b ∈ [[(oBrkCtrl 3, 1), (oBrkCount 3, 1)], [(oBrkCtrl 3, 2)]], let s := set stepping b
      s.breakpoint 3 0 ≠ 0 ∧ s.coreFree 3 = true ∧ s.pickRing 3 = some ring5 ∧ (s.ableCmd ring5).isSome = true ∧ s.firstFree 3 ring5 = true) ∧
    (let s : State := { stepping with ctxs := [(0, { Ctx.reset with live := true, hw := some 0, error := true })] }
     (s.ctxOf ctxH).map (fun x => x.error) = some true ∧ s.coreFree 3 = true ∧ s.pickRing 3 = some ring5 ∧ s.firstFree 3 ring5 = true ∧
       (s.ableCmd ring5).map (fun c => decide (c.shardsBegun = c.shardsEnded)) = some true) ∧
    (let s := set stepping [(oBrkCtrl 3, 3), (oBrkCount 3, 2), (oBrkTag 3, 1), (oBrkMask 3, 1)]
     s.breakpoint 3 0 = 0 ∧ s.coreFree 3 = true ∧ s.pickRing 3 = some ring5) := by decide +kernel

/-- A core's shard, at its end or not. -/
def sharding (done : Bool) : State :=
  { ring1 ready ring5 { Ring.reset with accepted := [{ cmdOf 1 (2 ^ 441) with begun := true, shardsBegun := 1 }] } with
    cores := [(3, { CoreU.reset with shard := some { shard with ring := ring5, aseq := 1, seqDone := done } })] }

theorem wit_ShardsBeginAndEnd :
    (let s := sharding true
     let h : Shard := { shard with ring := ring5, aseq := 1, seqDone := true }
     (s.core 3).shard = some h ∧ s.shardOver 3 h = true ∧ h.code = 0 ∧ (s.core 3).pendStale = false ∧ s.groupsOf 3 = [] ∧
       (s.cores.filter fun e => (e.2.shard.map fun y => (y.ring, y.aseq)) = some (ring5, 1)).map (fun e => e.1) = [3] ∧
       ((s.ring ring5).accepted.find? fun x => x.aseq = 1).map (fun c => (c.ended, c.code, c.shardsEnded + 1 - c.shards)) = some (none, 0, 0)) ∧
    (sharding false).running 3 = true ∧ (sharding false).coreHalted 3 = false ∧
    (((copying 31 (copyOf 128 0)).ring (kCopyRing 31)).accepted.find? fun c => c.op = 3 && c.begun && c.ended.isNone).isSome = true := by decide +kernel

theorem wit_BreakpointsHalt :
    let s := set { sharding false with cores := [(3, { CoreU.reset with shard := some { shard with begun := false } })] } [(oSeqState 3, 3)]
    takesB s (oResume 3) [0, 0] 2 = true ∧ s.seqState 3 = 3 ∧ ((s.core 3).shard.map fun h => h.begun) = some false := by decide +kernel

/-! ### Signals -/

/-- A signal of the first context. -/
def signalled : State := { tabled ready with sigs := [(0, { SigObj.reset with live := true, ctx := ctxH, va := sigHere })] }

theorem wit_SignalsAndArrivals_signals :
    (tabled ready).xlate ctxH sigHere = some (.mem 0x40000000100 false) ∧ (tabled ready).rangeBusy 0x40000000100 8 = false ∧ (tabled ready).seqs = [] ∧
    (let s : State := { tabled ready with watch := [⟨.seq 3, ctxH, sigHere, 0, 0, true⟩, ⟨.seq 4, ctxH, sigHere, 1, 0, true⟩] }
     (s.watch.map fun w => s.watchReached w) = [true, false]) ∧
    ready.up = true ∧ isSignalPage 3840 = true ∧ isSignalPage 4095 = true ∧ (ready.doorSignal 31 5 = none) ∧
    (signalled.doorSignal 0 (ready.handle 4 0 % 2 ^ 32)).isSome = true ∧ ready.doorSignal 31 (Tbl.get 0 ready.addHandle (4096 * 31 + 4095)) = none ∧
    (let s : State := { signalled with addHandle := [(3840, ready.handle 4 0)] }
     (s.doorSignal 0 (Tbl.get 0 s.addHandle 3840)).map (fun x => s.xlate x.ctx x.va) = some (some (.mem 0x40000000100 false))) := by decide +kernel

/-- Additions whose word has no translation, whose context is gone, whose home is free or serves another, and whose peer's carrier arc takes a message,
is full, or is not there. -/
theorem wit_SignalsAndArrivals_additions :
    let x : SigAdd := ⟨ctxH, sigHere, 1, .host 1, 0, 0⟩
    ((tabled ready).xlate ctxH 8 = none ∧ ((tabled ready).ctxOf ctxH).isSome = true) ∧ (ready.xlate ctxH 8 = none ∧ ready.ctxOf ctxH = none) ∧
    ((tabled ready).rangeShut 0x40000000100 8 = false ∧
      ∀ b ∈ (tabled ready).reqBuckets (0x40000000100 / 128) (.unit x.who 0x40000000100 8 true), (tabled ready).bucketRate b = 0) ∧
    ({ tabled ready with tx := [⟨0x40000000100 / 128, .iwr (.host 1) 0x40000000100 1 [], [1000], [], false⟩] } : State).rangeShut 0x40000000100 8 = true ∧
    (tabled ready).xlate ctxH sigThere = some (.peer 5 256) ∧ (tabled ready).carrier ctxH 5 = none ∧
    (let m : TxMsg := { m := blankMsg, ring := 0, aseq := 0, sent := false, lastTx := 0, link := 0, resends := 0, nacks := 0 }
     ∀ n ∈ [0, 256], let s : State := { tabled ready with
       arcs := [(2, { Arc.reset with live := true, kind := 1, ctx := ctxH, vertex := 5, state := 1, unacked := List.replicate n m })] }
      s.carrier ctxH 5 = some 2 ∧ (s.arcSignal 2 256 1 0 0).isSome = decide (n = 0) ∧ (s.arc 2).state ≠ 3) ∧
    (let mine := fun (a : SigAdd) => decide (a.ctx = ctxH) && decide (a.va = sigHere) && decide (a.value = 1)
     ([x].find? mine) = some x) := by decide +kernel

/-- A chord instance with a host port and more as its members. -/
def chorded (i members : Nat) (more : List (Nat × Nat)) : State := set ready ([(oOwner i, 0), (oMembers i, members)] ++ more)

theorem wit_SignalsAndArrivals_chords : ∀ i ∈ [0, 63],
    let may := fun (s : State) => bits 31 6 i = 0 ∧ (s.ctr (oMembers i)).testBit 128 = true ∧ s.ctr (oChordState i) ≠ 3
    (ready.ctr (oMembers i)).testBit 128 = false ∧
    (let s := chorded i (2 ^ 128 + 2) []; may s ∧ s.arrivalFor i 128 = some false ∧ setBit (s.ctr (oArrived i)) 128 ≠ s.ctr (oMembers i)) ∧
    (let s := chorded i (2 ^ 128 + 2) [(oArrived i, 2 ^ 128)]; may s ∧ s.arrivalFor i 128 = some true) ∧
    (let s : State := { chorded i (2 ^ 128 + 2) [(oArrived i, 2 ^ 128)] with chords := [(i, { Chord.reset with next := 2 ^ 128 })] }
     may s ∧ s.arrivalFor i 128 = none) ∧
    (let s := chorded i (2 ^ 128 + 2) [(oArrived i, 2)]
     may s ∧ s.arrivalFor i 128 = some false ∧ setBit (s.ctr (oArrived i)) 128 = s.ctr (oMembers i) ∧ (s.chordU i).next = 0 ∧ s.remotes i = [] ∧
       s.sigOf (s.ctr (oReleaseSig i)) = none) ∧
    (let s : State := { chorded i (2 ^ 128 + 2) [(oArrived i, 2), (oReleaseSig i, ready.handle 4 0)] with sigs := [(0, { SigObj.reset with live := true, ctx := ctxH, va := sigHere })] }
     may s ∧ s.arrivalFor i 128 = some false ∧ setBit (s.ctr (oArrived i)) 128 = s.ctr (oMembers i) ∧ (s.sigOf (s.ctr (oReleaseSig i))).isSome = true) ∧
    (let h := ready.handle 3 2
     let s : State := { chorded i (2 ^ 128 + 2) [(oArrived i, 2), (oRemote i, h)] with arcs := [(2, { Arc.reset with live := true, kind := 2, state := 1 })] }
     may s ∧ s.arrivalFor i 128 = some false ∧ setBit (s.ctr (oArrived i)) 128 = s.ctr (oMembers i) ∧ s.remotes i = [h] ∧ hKind h = 3 ∧ s.fresh h = true ∧
       (s.chordU i).sent = false ∧ (s.chordU i).remote.testBit 0 = false ∧ (s.arc (hSlot h)).live = true ∧ (s.arc (hSlot h)).state ≠ 3 ∧
       (s.arc (hSlot h)).unacked.length < 256) := by decide +kernel

end Sys2Proof.Tests
end

