-- ==== Sys2Proof/Tests/Links.lean ====
section
/-! SUPPORT. Witnesses: states that meet the hypotheses of the statements on links, arcs, keys, attestation and the test access port. -/

namespace Sys2Proof.Tests

set_option Elab.async false

open Sys2Proof Sys2Proof.Machine

/-! ### Links -/

/-- Link 47 in a state, and what is held of it. -/
def linked (st : Nat) (x : Link) : State := { set ready [(oVertexId, 3), (oLinkState 47, st)] with links := [(47, { x with prsntSince := some 0 })] }

/-- A message to vertex 5, and a flit of it. -/
def msgTo (hops : Nat) : PMsg := { blankMsg with dv := 5, sv := 7, hops := hops }
def flit0 (lseq : Nat) : Flit := ⟨lseq, msgTo 9, true, true, 0⟩

theorem wit_LinksTrainAndCarry_up :
    (ready.link 47).prsntSince = none ∧
    (∀ st ∈ [0, 1, 2, 3, 4, 5], ((linked st Link.reset).link 47).prsntSince = some 0 ∧ (linked st Link.reset).linkState 47 = st ∧ st ≠ lsRetired) ∧
    ((linked lsTraining Link.reset).link 47).trained = false ∧
    (∀ st ∈ [1, 2, 3, 4, 5], (linked st { Link.reset with trained := true }).helloes 47 = true) ∧
    (linked 2 Link.reset).assigned = true ∧ (linked 2 Link.reset).vertex = 3 ∧ ready.assigned = false := by decide +kernel

/-- Vertex 5 lies beyond link 46, through the one alternative of its entry. -/
def routed (q : List Flit) : State :=
  { set (linked 2 Link.reset) [(oLinkState 46, 2), (oRouteTable 7, (2 ^ 47 + (2 ^ 7 + 46)) * 2 ^ (48 * 5))] with
    links := [(46, { Link.reset with replay := q })] }

/-- 512 flits in a replay buffer. -/
def full : List Flit := List.replicate 512 (flit0 0)

theorem wit_LinksTrainAndCarry_flits :
    (let x : Link := { Link.reset with trained := true, replay := [flit0 4095], replays := 6 }
     (linked 2 x).helloes 47 = true ∧ ((linked 2 x).link 47).queue = [] ∧ (∀ f ∈ ((linked 2 x).link 47).replay, acked 4095 f.lseq = false) ∧
       ((linked 2 x).link 47).replay ≠ [] ∧ ((linked 2 x).link 47).replays < 7 ∧ 7 ≤ ((linked 2 { x with replays := 7 }).link 47).replays ∧
       ((linked 2 { x with naking := true }).link 47).naking = true ∧ ((linked 2 x).link 47).naking = false) ∧
    (∀ left ∈ [1, 2], let x : Link := { Link.reset with trained := true, queue := [(left, msgTo 9)] }
     (linked 2 x).helloes 47 = true ∧ ((linked 2 x).link 47).queue = [(left, msgTo 9)] ∧ (linked 2 x).linkState 47 = lsUp ∧ (msgTo 9).cls < 2 ∧
       Tbl.get 0 ((linked 2 x).link 47).credits (creditKey (msgTo 9).cls (msgTo 9).mtype) = 0 ∧ ((linked 2 x).link 47).replay.length < 512) ∧
    (routed full).carries 47 = true ∧ (msgTo 0).dv ≠ (routed full).vertex ∧
    (let s := (routed full).flitsIn 47 (msgTo 9)
     s.chooseAlt (s.routeEntry 7 5) { msgTo 9 with hops := 8 } = some (2 ^ 7 + 46) ∧ 512 ≤ (s.link ((2 ^ 7 + 46) % 64)).replay.length) ∧
    (let s := (linked 2 Link.reset).flitsIn 47 (msgTo 9); s.chooseAlt (s.routeEntry 7 5) { msgTo 9 with hops := 8 } = none) ∧
    (linked lsDraining Link.reset).linkState 47 = lsDraining ∧ ((linked lsDraining Link.reset).link 47).queue = [] ∧
    ((linked lsDraining Link.reset).link 47).replay = [] ∧ (linked lsDraining Link.reset).stopDue 47 = false := by decide +kernel

/-- A link whose drain the latch's STOP waits for: with a cable, with a message not begun, and with flits not acknowledged. -/
def latched (x : Link) : State := { linked lsDraining { x with prsntSince := some 0 } with latchStop := true }

theorem wit_LinksTrainAndCarry_latch :
    (let x : Link := { Link.reset with queue := [(flitsOf (msgTo 9), msgTo 9)] }
     (latched x).stopDue 47 = true ∧ (latched x).linkState 47 = lsDraining ∧ ((latched x).link 47).prsntSince = some 0 ∧
       (∀ q ∈ ((latched x).link 47).queue, flitsOf q.2 ≤ q.1) ∧ ((latched x).link 47).replay = []) ∧
    (let x : Link := { Link.reset with trained := true, replay := [flit0 4095], replays := 7 }
     (latched x).stopDue 47 = true ∧ (latched x).helloes 47 = true ∧ (∀ f ∈ ((latched x).link 47).replay, acked 4095 f.lseq = false) ∧
       ((latched x).link 47).replay ≠ [] ∧ 7 ≤ ((latched x).link 47).replays ∧ ({ latched x with latchStop := false } : State).stopDue 47 = false) ∧
    (linked 2 Link.reset).stopDue 47 = false := by decide +kernel

/-! ### Arcs -/

/-- An arc of the first partition to vertex 7, with a key. -/
def arced (a : Arc) : State :=
  { linked 2 Link.reset with arcs := [(2, { a with live := true, vertex := 7, name := 9, epoch := 4 })], keys := [(0, { KeySlot.reset with cur := 1 })] }

/-- Its far end's message of a type. -/
def msgOf (ty mseq : Nat) : PMsg := { blankMsg with dv := 3, sv := 7, mtype := ty, darc := 2, depoch := 4, mseq := mseq, key := 1, name := 9 }

theorem heard_of (a : Arc) (m : PMsg) (ty : Nat)
    (h : m.dv = 3 ∧ m.mtype = ty ∧ m.darc = 2 ∧ m.depoch = 4 ∧ m.sv = 7 ∧ a.kind ≠ 0 ∧ (arced a).keyOf ((arced a).arc 2) = { KeySlot.reset with cur := 1 } ∧
      m.intact = true ∧ m.key = 1) : (arced a).Heard 47 2 m ty := by
  obtain ⟨h1, h2, h3, h4, h5, h6, h7, h8, h9⟩ := h
  have hv : (arced a).vertex = 3 := rfl
  refine ⟨by decide, rfl, h1.trans hv.symm, h2, h3, rfl, h6, h4.symm, h5.symm, ?_, ?_⟩
  · rw [h7]; decide
  · simp [State.tagOk, h7, h8, h9]

theorem wit_MessagesAreApplied_order : ∀ ty ∈ [0, 1, 2, 3, 4, 5, 12],
    (∀ mseq ∈ [1, 2, 256, 0, 2 ^ 31, 257], (arced { Arc.reset with kind := 1 }).Heard 47 2 (msgOf ty mseq) ty) ∧
    (arced { Arc.reset with kind := 1 }).arc 2 = { Arc.reset with live := true, vertex := 7, name := 9, epoch := 4, kind := 1 } ∧
    (∀ e ∈ [(2, 2), (256, 256), (0, 0), (2 ^ 31, 2 ^ 31), (257, 257)], (((e.1 : Nat) + 2 ^ 32 - Arc.reset.applied) % 2 ^ 32 = e.2)) := by
  intro ty h
  refine ⟨fun mseq h' => heard_of _ _ _ ⟨rfl, rfl, rfl, rfl, rfl, by decide, rfl, rfl, rfl⟩, rfl, by decide⟩

theorem next_of {a : Arc} {m : PMsg} (h : a.applied = 0 ∧ m.mseq = 1 ∧ a.window = [] ∧ a.sinceAck = 0) : a.Next m := by
  obtain ⟨h1, h2, h3, h4⟩ := h
  exact ⟨by omega, by rw [h1, h2]; rfl, h3, by omega⟩

theorem wit_MessagesAreApplied_next : ∀ ty ∈ [0, 1, 3, 5, 12],
    let s := arced { Arc.reset with kind := 1 }
    (s.arc 2).Next (msgOf ty 1) ∧ ((s.taking 47 2 (msgOf ty 1)).applyMsg 2 (msgOf ty 1)).2 = true ∧
      ((((s.taking 47 2 (msgOf ty 1)).applyMsg 2 (msgOf ty 1)).1).arc 2).window = [msgOf ty 1] ∧
      ((((s.taking 47 2 (msgOf ty 1)).applyMsg 2 (msgOf ty 1)).1).arc 2).sinceAck = (s.arc 2).sinceAck := by
  intro ty h
  refine ⟨next_of ⟨rfl, rfl, rfl, rfl⟩, ?_⟩
  revert ty
  decide +kernel

/-- A message with data for the first octant. -/
def writeTo (ty : Nat) : PMsg := { msgOf ty 1 with addrk := 1, addr := 4096, data := [1, 2, 3, 4, 5, 6, 7, 8], len := 8 }

theorem octant_of_write (ty : Nat) (h : ty ∈ [0, 1, 2, 4]) : Octant0 ((arced { Arc.reset with kind := 1 }).taking 47 2 (writeTo ty)) := by
  refine ⟨?_, ?_, ?_, ?_⟩ <;> · revert ty; decide +kernel

theorem wit_MessagesAreApplied_memory : ∀ ty ∈ [0, 1, 2, 4],
    let s := arced { Arc.reset with kind := 1 }
    s.Heard 47 2 (writeTo ty) ty ∧ (s.arc 2).Next (writeTo ty) ∧ (s.taking 47 2 (writeTo ty)).inRegion 0 4096 8 = true := fun ty h =>
  ⟨heard_of _ _ _ ⟨rfl, rfl, rfl, rfl, rfl, by decide, rfl, rfl, rfl⟩, next_of ⟨rfl, rfl, rfl, rfl⟩,
    (octant_of_write ty h).inRegion 4096 8 (by decide) (by decide)⟩

theorem wit_MessagesAreApplied_free : ∀ ty ∈ [0, 1, 2, 4],
    let s := arced { Arc.reset with kind := 1 }
    (s.taking 47 2 (writeTo ty)).rangeBusy 4096 8 = false ∧ (s.arc 2).part = 0 ∧ (s.arc 2).unacked.length < 256 ∧ (s.arc 2).state ≠ 3 := by decide +kernel

theorem wit_MessagesAreApplied :
    (let s := arced { Arc.reset with kind := 1 }
     ((List.range 64).filter fun i => (s.remotes i).any fun h => hSlot h = 2 && hKind h = 3 && s.fresh h) = []) ∧
    (let s := set (arced { Arc.reset with kind := 1 }) [(oRemote 63, ready.handle 3 2)]
     ((List.range 64).filter fun i => (s.remotes i).any fun h => hSlot h = 2 && hKind h = 3 && s.fresh h) = [63] ∧
       ((List.range (s.remotes 63).length).find? fun j => hSlot ((s.remotes 63).getD j 0) = 2) = some 0 ∧ s.ctr (oRound 63) + 2 = 2) ∧
    (let s := arced { Arc.reset with kind := 1, next := 3 }
     (((s.arc 2).next + 2 ^ 32 - 3) % 2 ^ 32 < 2 ^ 31) ∧ ∀ i, i < 64 → ∀ h ∈ s.remotes i, hSlot h ≠ 2) := by decide +kernel

/-! ### Sending, opening, resolving -/

/-- A message kept for sending. -/
def kept (sent : Bool) : TxMsg := { m := msgOf 0 1, ring := 0, aseq := 0, sent := sent, lastTx := 0, link := 0, resends := 0, nacks := 0 }

theorem wit_ArcsOpenResendAndRefuse_timers :
    (let s := arced { Arc.reset with kind := 1, state := 1, unacked := [kept true, kept false] }
     let a := s.arc 2
     a.live = true ∧ a.kind ≠ 0 ∧ a.state = 1 ∧ a.keywait = false ∧ s.assigned = true ∧ s.noKey a = false ∧ a.unacked = [kept true] ++ kept false :: []) ∧
    (∀ n ∈ [0, 1], ∀ st ∈ [0, 2], let a := (arced { Arc.reset with kind := 1, state := st, sinceAck := n }).arc 2
      a.live = true ∧ a.kind ≠ 0 ∧ a.sinceAck = n ∧ a.window = [] ∧ a.state = st) ∧
    (let a := (arced { Arc.reset with kind := 1, state := 4, keywait := true }).arc 2; a.live = true ∧ a.kind ≠ 0 ∧ a.state = 4 ∧ a.keywait = true) ∧
    (let s := arced { Arc.reset with kind := 1, state := 1, keywait := true, unacked := [kept true] }
     let a := s.arc 2
     a.state = 1 ∧ a.keywait = true ∧ a.unacked = [kept true] ∧ s.assigned = true ∧ s.noKey a = false) ∧
    (∀ n ∈ [0, 5], let s := set (arced { Arc.reset with kind := 1, state := 4, resolves := n }) [(oArcResendLimit, 5)]
      let a := s.arc 2
      a.live = true ∧ a.kind ≠ 0 ∧ a.state = 4 ∧ a.keywait = false ∧ (decide (s.nat oArcResendLimit ≤ a.resolves) = decide (n = 5))) ∧
    (∀ n ∈ [0, 5], let x : TxMsg := { kept true with resends := n }
      let s := set (arced { Arc.reset with kind := 1, state := 1, unacked := [x], rto := 5000 }) [(oArcResendLimit, 5)]
      let a := s.arc 2
      a.unacked = [x] ∧ x.sent = true ∧ x.lastTx + s.arcRto a < 2 ^ 64 ∧ x.ring = 0 ∧ s.assigned = true ∧ s.noKey a = false ∧
        (decide (s.nat oArcResendLimit ≤ x.resends) = decide (n = 5))) := by decide +kernel

theorem named_of (a : Arc) (m : PMsg) (ty : Nat)
    (h : m.dv = 3 ∧ m.mtype = ty ∧ m.name = 9 ∧ m.sv = 7 ∧ a.kind ≠ 0 ∧ (arced a).keyOf ((arced a).arc 2) = { KeySlot.reset with cur := 1 } ∧
      m.intact = true ∧ m.key = 1) : (arced a).Named 47 2 m ty := by
  obtain ⟨h1, h2, h3, h4, h6, h7, h8, h9⟩ := h
  have hv : (arced a).vertex = 3 := rfl
  refine ⟨by decide, rfl, h1.trans hv.symm, h2, ?_, ?_, ?_⟩
  · simp [State.arcNamed, arced, h3, h4, h6]
  · rw [h7]; decide
  · simp [State.tagOk, h7, h8, h9]

theorem wit_ArcsOpenResendAndRefuse_opens :
    (∀ st ∈ [0, 1, 2], (arced { Arc.reset with kind := 1, state := st }).Named 47 2 { msgOf 8 0 with opx := 1 } 8) ∧
    (arced { Arc.reset with kind := 1 }).Named 47 2 (msgOf 9 0) 9 ∧ (arced { Arc.reset with kind := 1 }).Named 47 2 (msgOf 10 0) 10 ∧
    (∀ st ∈ [2, 4], (arced { Arc.reset with kind := 1, state := st, next := 3 }).Named 47 2 { msgOf 11 3 with opx := 1 } 11 ∧
      (arced { Arc.reset with kind := 1, state := st, next := 3 }).Named 47 2 (msgOf 11 3) 11) ∧
    ((3 + 2 ^ 32 - 3) % 2 ^ 32 < 2 ^ 31) ∧ Nat.testBit 1 0 = true ∧ Nat.testBit 0 0 = false := by
  have n := fun a m ty h => named_of a m ty h
  exact ⟨fun st _ => n _ _ _ ⟨rfl, rfl, rfl, rfl, Nat.one_ne_zero, rfl, rfl, rfl⟩, n _ _ _ ⟨rfl, rfl, rfl, rfl, Nat.one_ne_zero, rfl, rfl, rfl⟩,
    n _ _ _ ⟨rfl, rfl, rfl, rfl, Nat.one_ne_zero, rfl, rfl, rfl⟩,
    fun st _ => ⟨n _ _ _ ⟨rfl, rfl, rfl, rfl, Nat.one_ne_zero, rfl, rfl, rfl⟩, n _ _ _ ⟨rfl, rfl, rfl, rfl, Nat.one_ne_zero, rfl, rfl, rfl⟩⟩, by decide, by decide, by decide⟩

theorem wit_ArcsOpenResendAndRefuse_refuse :
    (∀ ty ∈ [0, 1, 2, 3, 4, 5, 6, 12],
      (let s := arced { Arc.reset with kind := 1 }
       s.carries 47 = true ∧ (msgOf ty 1).dv = s.vertex ∧ (s.arc (msgOf ty 1).darc).live = true ∧ (s.arc 2).epoch = (msgOf ty 1).depoch ∧
         (s.arc 2).vertex = (msgOf ty 1).sv ∧ (s.keyOf (s.arc 2)).cur ≠ 0 ∧ s.tagOk (s.arc 2) { msgOf ty 1 with key := 2 } = false) ∧
      (let s : State := { arced { Arc.reset with kind := 1 } with keys := [] }; (s.keyOf (s.arc 2)).cur = 0) ∧ ((linked 2 Link.reset).arc 2).live = false) ∧
    (∀ n ∈ [0, 4], let x : TxMsg := { kept true with nacks := n }
      let s := set (arced { Arc.reset with kind := 1, state := 1, unacked := [x] }) [(oArcResendLimit, 5)]
      ((s.arc 2).unacked.find? fun t => t.m.mseq = (msgOf 7 1).mseq && t.sent) = some x ∧ (decide (x.nacks + 1 < s.nat oArcResendLimit) = decide (n = 0))) := by
  decide +kernel

theorem wit_ArcsOpenResendAndRefuse_nacks : ∀ opx ∈ [1, 2, 3], ∀ kw ∈ [true, false], ∀ st ∈ [1, 2],
    (arced { Arc.reset with kind := 1, state := st, keywait := kw, unacked := [kept true] }).Nacked 47 2 { msgOf 7 1 with opx := opx } opx := by
  intro opx _ kw _ st _
  exact ⟨by decide, rfl, rfl, rfl, rfl, rfl, rfl, Nat.one_ne_zero, rfl⟩

/-! ### Keys -/

/-- A request over a secured session. -/
def keyReq (part slot rsv n : Nat) : KeyReq :=
  { part := part, slot := slot, rsv := rsv, job := 1, epoch := 1, secret := List.replicate n 1, vendor := Config.vendorId.toNat, secured := true }

theorem wit_KeysAndTeardowns_keys :
    let s : State := { ready with spdm := 1 }
    (∀ n ∈ [0, 31, 32, 33], s.keyHeard (keyReq 15 15 0 n) = true) ∧ s.keyHeard { keyReq 15 15 0 32 with secured := false } = false ∧
    ready.keyHeard (keyReq 15 15 0 32) = false ∧ keyInRange (keyReq 15 15 0 32) = true ∧ keyInRange (keyReq 16 0 0 32) = false ∧
    keyInRange (keyReq 0 16 0 32) = false ∧ keyInRange (keyReq 0 0 1 32) = false ∧ (keyReq 15 15 0 32).secret.length = 32 ∧ s.ctr (oPartState 15) ≠ 2 ∧
    (set s [(oPartState 15, 2)]).ctr (oPartState 15) = 2 ∧ (15, 1, 1) ∉ s.triples ∧
    (15, 1, 1) ∈ ({ s with triples := [(15, 1, 1)] } : State).triples := by
  refine ⟨fun n _ => by simp [State.keyHeard, keyReq], by simp [State.keyHeard], by simp [State.keyHeard, ready, State.reset], by decide, by decide, by decide,
    by decide, by decide, by decide +kernel, by decide +kernel, by decide, by decide⟩

theorem wit_KeysAndTeardowns_teardowns : (∀ p ∈ [0, 15], takesB ready (oTeardown p) [1] 2 = true) ∧
    Tbl.get 0 ({ ready with teardowns := [(15, 1)] } : State).teardowns 15 = 0 + 1 := by decide +kernel

/-! ### Attestation -/

theorem wit_AttestationAndTap : ready.acrunUp = true ∧ ({ ready with aux := false } : State).acrunUp = false ∧ (∀ i ∈ [1, 2, 16, 23], (ready.measureBlock i).isSome = true) ∧
    (∀ i ∈ [6, 15, 24, 254], ready.measureBlock i = none) ∧ ready.spdm < 4 ∧ 4 ≤ ({ ready with spdm := 4 } : State).spdm ∧
    ready.nat oModuleState ≠ 0 ∧ ready.nat oModuleState ≠ 4 ∧ (set ready [(oModuleState, 4)]).nat oModuleState = 4 ∧
    (set ready [(oModuleState, 0)]).nat oModuleState = 0 ∧ (((runs ready 95).core 95).shard.bind fun h => (runs ready 95).ctxOf h.ctx).isSome = true := by
  refine ⟨by decide +kernel, by decide +kernel, ?_, by decide +kernel, by decide +kernel, by decide +kernel, by decide +kernel, by decide +kernel, by decide +kernel, by decide +kernel,
    by decide +kernel⟩
  intro i h
  simp only [List.mem_cons, List.mem_nil_iff, or_false] at h
  rcases h with rfl | rfl | rfl | rfl <;> rfl

end Sys2Proof.Tests
end

