-- ==== Sys2Proof/Tests/Memory.lean ====
section
/-! SUPPORT. Witnesses: states that meet the hypotheses of the statements on homes, caches, WRITE rows, channels, error sites and faults. -/

namespace Sys2Proof.Tests

set_option Elab.async false

open Sys2Proof Sys2Proof.Machine

/-- A line of a host window, at whose home there is little to look up. -/
def ln0 : Nat := 2 ^ 35

theorem homeFree_of {s : State} {line : Nat} {req : HomeReq}
    (h : (s.accountAt req.agent (128 * line) req.bytes).lineBusy line = false ∧ (∀ w ∈ s.txq, ahead w line = false) ∧ s.lateWbs line = [] ∧
      (req.writes = true → (s.accountAt req.agent (128 * line) req.bytes).writesWait line = false) ∧
      ∀ b ∈ s.reqBuckets line req, (s.accountAt req.agent (128 * line) req.bytes).bucketRate b = 0) : s.HomeFree line req :=
  ⟨h.1, h.2.1, h.2.2.1, h.2.2.2.1, h.2.2.2.2⟩

/-- The checks of `State.HomeFree`. -/
def homeFreeB (s : State) (line : Nat) (req : HomeReq) : Bool :=
  let u := s.accountAt req.agent (128 * line) req.bytes
  !u.lineBusy line && (s.txq.all fun w => !ahead w line) && decide (s.lateWbs line = []) && (!req.writes || !u.writesWait line) &&
    (s.reqBuckets line req).all fun b => u.bucketRate b = 0

theorem homeFree_of_b {s : State} {line : Nat} {req : HomeReq} (h : homeFreeB s line req = true) : s.HomeFree line req := by
  simp only [homeFreeB, Bool.and_eq_true, Bool.not_eq_true', decide_eq_true_eq, Bool.or_eq_true, List.all_eq_true] at h
  obtain ⟨⟨⟨⟨h1, h2⟩, h3⟩, h4⟩, h5⟩ := h
  exact ⟨h1, h2, h3, fun hw => by simpa [hw] using h4, h5⟩

/-- Core 3 holds the line, owned or shared. -/
def held (owned : Bool) : State := { ready with dup := [(ln0, [⟨3, false, owned, 15⟩])] }

/-- A message in flight to the home of the line. -/
def sent (s : State) (kind : String) (src mask data : Nat) (a : Option AtomMsg) : State :=
  { s with lattice := [{ kind := kind, src := src, dst := homeNode ln0, line := ln0, mask := mask, data := data, atom := a }] }

/-- Reads of a core and of a link, with no owner, with another as owner, and with the reader as owner; an instruction fetch; a read whose EVN is
still on its way. -/
theorem wit_RequestsAreAnswered_rds :
    (∀ s ∈ [ready, held true], ∀ na ∈ [true, false],
      s.arrive "RDS" 95 ln0 = s ∧ (s.inFlight "RDSI" 95 ln0).isSome = false ∧ (s.pastEvn false 95 ln0) = s ∧
      homeFreeB s ln0 (.rds (.core 95) 15 na false) = true ∧ homeFreeB s ln0 (.rds (.link 47) 15 true false) = true) ∧
    (held true).ownerOf ln0 = some 3 ∧ ready.ownerOf ln0 = none ∧ (Agent.link 47).wf = true ∧
    (homeFreeB ((held true).pastEvn false 3 ln0) ln0 (.rds (.core 3) 15 false false) = true ∧ ((held true).pastEvn false 3 ln0).ownerOf ln0 = some 3) ∧
    (let s := sent (held true) "RDSI" 3 15 0 none
     (s.inFlight "RDSI" 3 ln0).isSome = true ∧ homeFreeB ((s.arrive "RDSI" 3 ln0).pastEvn true 3 ln0) ln0 (.rds (.core 3) 15 false true) = true) ∧
    (let s := sent (held true) "EVN" 3 0 0 none
     homeFreeB ((s.arrive "RDS" 3 ln0).pastEvn false 3 ln0) ln0 (.rds (.core 3) 15 false false) = true ∧
       ((s.arrive "RDS" 3 ln0).pastEvn false 3 ln0).ownerOf ln0 = none) := by decide +kernel

theorem wit_RequestsAreAnswered_rdu : (∀ s ∈ [ready, held false], ∀ b ∈ [true, false],
      homeFreeB ((s.arrive "RDU" 95 ln0).pastEvn false 95 ln0) ln0 (.rdu 95 15 b) = true) ∧
    ready.holders ln0 (some 95) = [] ∧ (held false).holders ln0 (some 95) = [3] ∧ homeFreeB (held false) ln0 (.upg 3 15) = true ∧
    (held false).holders ln0 (some 3) = [] ∧ (∃ d ∈ (held false).tags ln0, d.core = 3 ∧ d.inst = false) ∧
    homeFreeB (held false) ln0 (.upg 95 15) = true ∧ homeFreeB ready ln0 (.upg 3 15) = true ∧ ready.tags ln0 = [] := by decide +kernel

/-- Invalidating writes with and without data, and one that a core's message in flight carries. -/
theorem wit_RequestsAreAnswered_iwr : homeFreeB ready ln0 (.iwr (.mover 95 7) (128 * ln0 + 127) 1 [5]) = true ∧
    (([5, 6] : List Byte).take (128 - (128 * ln0 + 127) % 128) = [5]) ∧ ready.holders ln0 none = [] ∧
    homeFreeB (held true) ln0 (.iwr (.copyEngine 31) (128 * ln0) 1 [5]) = true ∧ (held true).holders ln0 none = [3] ∧
    homeFreeB ready ln0 (.iwr (.host 1) (128 * ln0) 1 []) = true ∧
    (let s := sent ready "IWR" 95 (128 * 4) 9 none
     ((s.lattice.find? fun m => m.isIwr (.core 95) (128 * ln0) && !m.here).map fun m => m.mask / 128) = some 4 ∧
       homeFreeB s ln0 (.iwr (.core 95) (128 * ln0) 15 (leBytes 4 9)) = true) ∧
    (let s : State := { ready with tx := [⟨ln0, .iwr (.host 1) (128 * ln0) 1 [], [1000], [], false⟩] }
     s.txOf ln0 = some ⟨ln0, .iwr (.host 1) (128 * ln0) 1 [], [1000], [], false⟩ ∧ s.txq = []) := by decide +kernel

/-- The operands of an atomic. -/
def aAdd (op : AtomOp) (ret : Bool) : AtomMsg :=
  { op := op, pa := 128 * ln0, va := 0x2000, width := 8, b := 1, c := 0, group := 63, lane := 31, ret := ret, acq := false }

/-- Atomics that a core's message carries, that a link makes, and the message of a LOCK.BEGIN. -/
theorem wit_RequestsAreAnswered_atm :
    (∀ ret ∈ [true, false], ∀ s ∈ [ready, held true], let m := sent s "ATM" 95 4095 (128 * ln0) (some (aAdd .add ret))
      ((m.lattice.find? fun m => m.isAtm (.core 95) (128 * ln0)).bind fun m => m.atom) = some (aAdd .add ret) ∧
      homeFreeB { m with lattice := changeFirst (fun (m : LMsg) => m.isAtm (.core 95) (128 * ln0)) (fun m => { m with here := true }) m.lattice } ln0
        (.atm (.core 95) (aAdd .add ret)) = true) ∧
    homeFreeB (held true) ln0 (.atm (.link 0) { aAdd .swap false with va := 0, group := 0, lane := 0 }) = true ∧
    atomOnHost .add = true ∧ atomOnHost .swap = true ∧ (held true).holders ln0 none ≠ [] ∧ ready.holders ln0 none = [] ∧
    (let m := sent ready "ATM" 95 4095 (128 * ln0) (some (aAdd .lock false))
     homeFreeB { m with lattice := changeFirst (fun (m : LMsg) => m.isAtm (.core 95) (128 * ln0)) (fun m => { m with here := true }) m.lattice }
       (4 * (128 * ln0 / 512)) (.lock 95 63) = true) := by decide +kernel

/-- A transaction of core 5 that awaits core 3, and one that awaits cores 3 and 4. -/
def waits (req : HomeReq) (ks : List Nat) : State :=
  { sent (held true) "WBDAT" 3 15 0 none with tx := [⟨ln0, req, ks, [], false⟩] }

theorem wit_AnswersReachTheHome :
    ready.l1Find true 95 ln0 = none ∧ ready.txOf ln0 = none ∧ ready.txq = [] ∧
    (∀ req ∈ [HomeReq.rdu 5 15 false, .rds (.core 5) 15 false false], ∀ ks ∈ [[3], [3, 4]], let s := waits req ks
      s.txOf ln0 = some ⟨ln0, req, ks, [], false⟩ ∧ 3 ∈ ks ∧ s.txq = [] ∧ (s.inFlight "WBDAT" 3 ln0).isSome = true ∧
        ({ s with lattice := [] }.inFlight "WBDAT" 3 ln0).isSome = false) ∧
    (([3, 4] : List Nat).filter fun j => j ≠ 3) = [4] ∧ (([3] : List Nat).filter fun j => j ≠ 3) = [] := by decide +kernel

/-- An EVN that the home has not learnt of, and one that it has. -/
theorem wit_AnswersReachTheHome_evn : ((sent (held true) "EVN" 3 0 0 none).lattice.find? fun m => m.isEvn false 3 ln0).map (fun m => m.here) = some false ∧
    (((sent (held true) "EVN" 3 0 0 none).voidEvn false 3 ln0).lattice.find? fun m => m.isEvn false 3 ln0).map (fun m => m.here) = some true ∧
    (ready.lattice.find? fun m => m.isEvn true 3 ln0) = none := by decide +kernel

/-- Core 95 with a dirty line, or with its write-back under way. -/
def line0 : L1Line := { line := ln0, way := 0, st := 3, valid := 15, dirty := 8, poison := 0, data := 9 }

theorem wit_L1sAnswer : (({ ready with l1d := [(l1Key false 95 ln0, [line0])] } : State).l1Find false 95 ln0 = some line0) ∧ line0.dirty ≠ 0 ∧
    ready.l1Find false 95 ln0 = none ∧ ready.l1Find true 95 ln0 = none ∧ (({ ready with l1i := [(l1Key true 95 ln0, [line0])] } : State).l1Find true 95 ln0).isSome = true ∧
    ready.l1On false 95 = true ∧ ready.l1On true 95 = true ∧
    (ready.l1Install false 95 ln0 2).isSome = true ∧ (ready.l1Install true 95 ln0 1).isSome = true ∧ (ready.core 95).stores = [] ∧
    ((({ ready with cores := [(95, { CoreU.reset with wbb := [(ln0, 8, 9)] })] } : State).core 95).wbb.any fun w => w.1 = ln0) = true := by decide +kernel

/-- A fill that no message carries, one that a message carries, and an L1 that allocates nothing. -/
theorem wit_L1sAnswer_fill : ready.fillTo false 95 ln0 = none ∧
    (({ ready with lattice := [{ kind := "FILL", src := homeNode ln0, dst := 95, line := ln0, mask := 0x103, data := 7 }] } : State).fillTo false 95 ln0).isSome = true ∧
    (set ready [(oL1dStatus 95, 1)]).l1On false 95 = false ∧ (set ready [(oL1iStatus 95, 2)]).l1On true 95 = false := by decide +kernel

/-! ### WRITE rows -/

theorem wit_WriteRowsTakeEffect_caches : ∀ ca ∈ [CacheId.l1d 95, .l1i 95],
    takesB ready (ctrlKey ca) [1] 2 = true ∧ takesB ready (ctrlKey ca) [2] 3 = true ∧ takesB (set ready [(statusKey ca, 2)]) (ctrlKey ca) [0] 2 = true := by decide +kernel

theorem wit_WriteRowsTakeEffect_slice : takesB ready (ctrlKey (.slice 7 5)) [1] 2 = true ∧ takesB (set ready [(oEvictMode 47, 2)]) (ctrlKey (.slice 7 5)) [2] 3 = true := by
  decide +kernel

theorem wit_WriteRowsTakeEffect_lists :
    takesAllB ready [(oWaymask 7 0, leBytes 2 0x7FFF), (oWaymask 7 15, leBytes 2 0x8000)] 2 = true ∧
    takesAllB ready [(oTlbSetmask 7 0, leBytes 2 0x7FFF), (oTlbSetmask 7 15, leBytes 2 0x8000)] 2 = true ∧
    takesAllB ready [(oCoreMask 0, leBytes 12 (2 ^ 95 - 1)), (oCoreMask 15, leBytes 12 (2 ^ 95))] 2 = true ∧
    takesAllB ready [(oRouteSet, leBytes 8 0), (oRouteSet, leBytes 8 0)] 2 = true ∧
    takesAllB ready [(kChanOwner 1535, [0xFF]), (kChanOwner 0, [0xFF])] 2 = true := by decide +kernel

theorem wit_WriteRowsTakeEffect_one :
    takesB ready (oTeardown 15) [1] 2 = true ∧ takesB ready (oCredKey 15) (List.replicate 32 1) 2 = true ∧
    takesB (set ready [(oFwSvn, 2), (oSvnFused, 1)]) oSvnCommit (leBytes 2 2) 2 = true ∧ takesB ready (oCtlEnable 31) [1] 2 = true ∧
    takesB (set ready [(oOwner 63, 0)]) (oMembers 63) (leBytes 18 3) 2 = true ∧ takesB (set ready [(oMembers 63, 2 ^ 130)]) (oMgmtArrive 63) [0] 2 = true ∧
    (∀ v ∈ [1, 2, 3], takesB ready (oLinkCtrl 47) [BitVec.ofNat 8 v] 2 = true) ∧ takesB ready oSiteClear (leBytes 4 (7 * 2 ^ 29 + 408 * 2 ^ 20)) 3 = true ∧
    takesB ready oTraceEnable [1] 2 = true ∧ takesB ready oTraceCons (leBytes 4 1) 2 = true ∧ takesB ready oIdentify (leBytes 2 1) 2 = true ∧
    takesB ready (oWatchCfg 383) (leBytes 8 0) 2 = true ∧ (∀ v ∈ [1, 2, 3, 4], takesB ready oStartReq [BitVec.ofNat 8 v] 2 = true) := by decide +kernel

/-! ### Caches, channels, sites, faults -/

/-- A request of core 95 that waits for a bucket. -/
def bwait (b : Nat) : BWait := ⟨b, 128, 7, ln0, .rds (.core 95) 15 false false⟩

theorem wit_CachesAndRegionsSettle :
    (∀ ca ∈ [CacheId.l1d 95, .l1i 95, .slice 7 5], ca.wf = true ∧ (set ready [(statusKey ca, 1)]).ctr (statusKey ca) = 1) ∧
    (set ready [(oWaymaskState 7, 1)]).ctr (oWaymaskState 7) = 1 ∧ (set ready [(kChanState 1535, csClearing)]).chanState 1535 = csClearing ∧ ready.txq = [] ∧
    (∀ b ∈ [latticeBucket 7 15, sliceBucket 47 15], let s : State := { ready with bucketQ := [bwait b] }
      (s.bucketQ.find? fun w => w.bucket = b) = some (bwait b) ∧ (bwait b).req.agent.wf = true ∧ s.bucketRate b = 0) := by decide +kernel

/-- A request made as a whole that waits for a bucket, at a rate and with a level. -/
theorem wit_CachesAndRegionsSettle_unit : let b := latticeBucket 7 15
    let w : BWait := ⟨b, 128, 7, ln0, .unit (.mover 95 7) (128 * ln0) 64 true⟩
    let s : State := { set ready [(oRateLattice 15, 1)] with bucketQ := [w], buckets := [(b, 5)] }
    (s.bucketQ.find? fun w => w.bucket = b) = some w ∧ s.bucketRate b ≠ 0 ∧ 0 < s.bucketLevel b := by decide +kernel

/-- Channel 1535 in a state. -/
def chan (st : Nat) (u : ChanU) : State := { set ready [(kChanState 1535, st)] with chan := [(1535, u)] }

/-- A failed write of word 5 on pseudo-channel 0: with room among the held writes, with none, on a channel that is DEGRADED, and while a training slot
holds the channel. -/
theorem wit_ChannelsServe_parity : isPseudo 0 = true ∧ (ParityCase.readFails 5).onPseudo 0 = true ∧ (ParityCase.writeFails 5 []).onPseudo 0 = true ∧
    (ParityCase.writeFails 13 []).onPseudo 1 = true ∧
    (∀ l ∈ [[], (List.range 64).map fun i => (i + 64, 0)], let s := chan csService { ChanU.reset with held := l }
      let u := s.exhausted 1535 0 6
      (s.chanU 1535).trainHeld = false ∧ s.chanBase 1535 ≠ csDegraded ∧ (∀ h ∈ (u.chanU 1535).held ++ (u.chanU 1535).waiting, h.1 ≠ 5) ∧
        ((u.chanU 1535).held.length < 63 ∨ 64 ≤ (u.chanU 1535).held.length)) ∧
    (chan csDegraded ChanU.reset).chanBase 1535 = csDegraded ∧ ((chan csTraining { ChanU.reset with trainHeld := true }).chanU 1535).trainHeld = true := by
  decide +kernel

theorem wit_ChannelsServe :
    ready.chanState 1535 ≠ csTraining ∧ ready.chanState 1535 ≠ csMigrating ∧ ready.chanState 1535 ≠ csClearing ∧
    (∀ l ∈ [[(1, 5)], [(0, 5), (1, 9)]], let s := chan csSuspect { ChanU.reset with suspect := l }
      s.chanState 1535 = csSuspect ∧ (s.chanU 1535).suspect = l) ∧
    (let s := chan csMigrating { ChanU.reset with target := 1534 }
     s.chanState 1535 = csMigrating ∧ (s.chanU 1535).held = [] ∧ (s.chanU 1535).waiting = [] ∧ (s.chanU 1535).target ≠ 1535 ∧
       Tbl.get [] s.victim (1535 / 32) = [] ∧ Memory.wf s.hbm = true) ∧
    ready.nat oTrainSlotPeriod ≠ 0 ∧ (Tbl.get TrainSlot.reset ready.train 7).chan = none ∧ ready.trainSkips (192 * 7) = false ∧
    (let s : State := { chan csTraining { ChanU.reset with trainHeld := true } with train := [(7, ⟨0, some 1535, csService⟩)] }
     (Tbl.get TrainSlot.reset s.train 7).chan = some 1535 ∧ s.val (oHbmMargin 7 (1535 % 192)) = none ∧ (s.chanU 1535).retries = [] ∧ s.txq = [] ∧
       s.chanState 1535 = csTraining) := by decide +kernel

theorem wit_SitesAndLedgerCount : isDie 7 = true ∧ isSite 408 = true ∧ isSite 96 = true ∧ siteKind 96 = 2 ∧
    (set ready [(oCoreState 95, 1)]).ctr (oCoreState 95) = 1 ∧ ((set ready [(oCoreState 95, 1)]).cluster (95 / 4)).gated = false ∧
    (set ready [(oArrayState 383, 3)]).ctr (oArrayState 383) = 3 ∧
    (set ready [(oCeState 31, 3)]).ctr (oCeState 31) = 3 ∧ ready.ctr oLedgerState ≠ 2 ∧ (set ready [(oLedgerState, 2)]).ctr oLedgerState = 2 := by decide +kernel

/-- An event at a site of each kind but arrays: the action of none of them begins at once, or the site is LASTING already. -/
theorem wit_SitesAndLedgerCount_event : ∀ x ∈ [48, 51, 96, 192, 384, 396, 400], ∀ e ∈ [SiteEv.corrected, .uncorrectable],
    let h := ready.eccHits 7 x e 0
    h.siteState 7 x = 2 ∨ ((h.eccCount 7 x e).siteError 7 x e).siteState 7 x ≠ 2 ∨ atOnce x = false := by decide +kernel

/-- A site that is LASTING, before its action and under it, with as many spares used as it has. -/
def lasting (x : Nat) (acting : Bool) (used : Nat) : State :=
  { set ready [(oSite 7 x, 2 * 2 ^ 61), (oRetireEnable, 0xFF)] with sites := [(512 * 7 + x, { SiteW.reset with acting := acting, used := used })] }

theorem wit_SitesAndLedgerCount_action :
    (∀ x ∈ [48, 96, 384, 396, 400], (lasting x false 0).siteState 7 x = 2 ∧ (Tbl.get SiteW.reset (lasting x false 0).sites (512 * 7 + x)).acting = false ∧
      (lasting x false 0).permitted 7 x = true ∧ (lasting x false 0).siteUnitFree 7 x = true) ∧
    (∀ e ∈ [(48, 1), (96, 2), (384, 4), (396, 5), (400, 6)], (lasting e.1 true 0).siteState 7 e.1 = 2 ∧ siteKind e.1 = e.2 ∧
      (Tbl.get SiteW.reset (lasting e.1 true 4).sites (512 * 7 + e.1)).used = 4) := by decide +kernel

end Sys2Proof.Tests
end

