-- ==== Sys2Proof/Tests/Power.lean ====
section
/-! SUPPORT. Witnesses: states that meet the hypotheses of the statements on power, starts, supplies, ports, the panel and sites. -/

namespace Sys2Proof.Tests

set_option Elab.async false

open Sys2Proof Sys2Proof.Machine

/-- What is held of cluster 23. -/
def clustered (x : ClusterU) (l : List (Nat × Nat)) : State := { set ready l with clusters := [(23, x)] }

theorem wit_PowerActs_clusters :
    ((clustered { ClusterU.reset with goal := 1 } []).cluster 23).goal ≠ 0 ∧
    (∀ e ∈ [(0, 2, 900), (2, 0, 900), (3, 0, 1100), (0, 3, 1100)],
      let s := clustered { ClusterU.reset with slewing := true, target := e.1, calibrated := 12 } [(oPointLimit 23, e.2.1), (oCalVolt 23, 900 * 2 ^ 32 + 1100 * 2 ^ 48)]
      let n := max (s.cluster 23).target (s.ctr (oPointLimit 23))
      (s.cluster 23).slewing = true ∧ (s.cluster 23).calibrated.testBit n = true ∧ s.pointMv 23 n = e.2.2 ∧ (s.pointMv 23 n ≤ 900 ∨ 3 ≤ n)) ∧
    (∀ e ∈ [(1, 899), (2, 1100)],
      let s := clustered { ClusterU.reset with slewing := true, target := e.1, calibrated := 14 } [(oCalVolt 23, 901 * 2 ^ (16 * e.1) + e.2 * 2 ^ (16 * e.1 + 16))]
      let n := max (s.cluster 23).target (s.ctr (oPointLimit 23))
      (s.cluster 23).calibrated.testBit n = true ∧ 900 < s.pointMv 23 n ∧ n < 3 ∧ (s.cluster 23).calibrated.testBit (n + 1) = true ∧
        (s.pointMv 23 (n + 1) ≤ 900 ∨ n = 2)) ∧
    ((clustered ClusterU.reset []).cluster 23).slewing = false := by decide +kernel

theorem wit_PowerActs_limits :
    (let s := set ready [(oPowerCap, 9000)]; s.objD 9600 oPowerCap < 9001 ∧ s.overCap < 10000000 ∧ 9001 ≤ 12000 ∧ 9000 ≤ s.objD 9600 oPowerCap) ∧
    (let s : State := { set ready [(oPowerCap, 9000)] with overCap := 10000000 }; s.objD 9600 oPowerCap < 9001 ∧ 10000000 ≤ s.overCap) := by decide +kernel

theorem wit_PowerActs_margins :
    ready.val (oSramVmin 7 11) = none ∧ (set ready [(oSramVmin 7 11, 700)]).val (oSramVmin 7 11) = some 700 ∧
    ready.val (oLaneEye 7 (8 * 5 + 7)) = none ∧ ready.val (oTimingMin 7 2) = none ∧ (ready.ctr (oProvisional 23)).testBit (ready.ctr (oPoint 23)) = false ∧
    3 ≤ (set ready [(oPoint 23, 3)]).ctr (oPoint 23) := by decide +kernel

/-! ### Starts and supplies -/

/-- A start under way. -/
def startOf (kind : Nat) (safe : Bool) : Start := { kind := kind, cause := 1, began := 0, life := 0, fromSafe := safe, quiescing := true }

theorem wit_StartsAndSupplies :
    (let s : State := { ready with aux := false, vin48 := false }; s.aux = false ∧ s.refclk = true ∧ s.vin48 = false) ∧
    (let s := set ready [(oModuleState, msAuxOnly)]; s.ctlReady = true ∧ s.mstate = msAuxOnly) ∧ ready.vin48 = true ∧ ready.aux = true ∧ ready.refclk = true ∧
    ({ ready with refclk := false } : State).refclk = false ∧ (startOf kWarm false).quiescing = true ∧ ready.starting = none ∧ ready.up = true ∧
    (∀ k ∈ [kWarm, kCold, kExtended], ({ ready with starting := some (startOf k true) } : State).starting = some (startOf k true)) ∧
    ({ ready with failedStart := some (0, 0x1004) } : State).failedStart = some (0, 0x1004) ∧
    ({ ready with failedStart := some (kExtended, 0x1004) } : State).failedStart = some (kExtended, 0x1004) ∧
    ready.mstate ≠ msAuxOnly ∧ ready.mstate ≠ msSafe ∧ ([0, 47] : List Nat).all isStack = true ∧ isDie 7 = true ∧ kCold ≠ kWarm ∧ kExtended ≠ kWarm := by
  refine ⟨⟨rfl, by decide +kernel, rfl⟩, by decide +kernel, by decide +kernel, by decide +kernel, by decide +kernel, rfl, rfl, rfl, by decide +kernel, fun k _ => rfl, rfl, rfl,
    by decide +kernel, by decide +kernel, by decide, by decide, by decide, by decide⟩

/-! ### Ports and the panel -/

theorem wit_PortsAndPanel :
    ready.powered = true ∧ (∀ p ∈ [0, 1], ready.ctr (oPllLock (7 * p)) = 1) ∧ ready.up = true ∧
    (∀ st ∈ [msConfiguring, msSafe], (set ready [(oModuleState, st)]).mstate = st) ∧ ready.mstate ≠ msConfiguring ∧ ready.mstate ≠ msSafe ∧
    (ready.nat oIdentify).testBit 8 = false ∧ ((set ready [(oIdentify, 256)]).nat oIdentify).testBit 8 = true ∧
    ((set ready [(oBtnEnable, 0)]).nat oBtnEnable).testBit 8 = false ∧ ((set ready [(oBtnEnable, 256)]).nat oBtnEnable).testBit 8 = true ∧
    (set ready [(oBtnEnable, 256)]).startOk kCold = true ∧ ready.nat oLatchState ≠ 1 ∧ (set ready [(oLatchState, 1)]).nat oLatchState ≠ 0 ∧
    (set ready [(oLatchAction, 0)]).nat oLatchAction = 0 ∧ (set ready [(oLatchAction, 1)]).nat oLatchAction = 1 ∧
    (let s := set ready [(oLinkState 47, lsUp)]; s.linkState 47 = lsUp) ∧
    ({ ready with latchTimer := some 5 } : State).latchTimer = some 5 ∧ ({ ready with identifyEnds := [(8, 5)] } : State).identifyEnds = [(8, 5)] := by decide +kernel

/-- Host ports: lost and not, with and without a running core, without 48 V, and in a start. -/
theorem wit_PortsAndPanel_ports : (∀ p ∈ [0, 1], (Tbl.get false ready.hostLost p = false ∧ Tbl.get false ({ ready with hostLost := [(p, true)] } : State).hostLost p = true)) ∧
    (∀ e, e < 32 → (ready.ring (kCopyRing e)).copying = []) ∧ (∀ k, k < 96 → ready.running k = false) ∧ (runs ready 95).running 95 = true ∧
    ((runs ready 95).core 95).shard = some shard ∧ (∀ e, e < 32 → ((runs ready 95).ring (kCopyRing e)).copying = []) ∧
    (∀ p ∈ [0, 1], Tbl.get false (runs ready 95).hostLost p = false) ∧ ({ ready with powered := false } : State).powered = false ∧
    (let s : State := { ready with starting := some (startOf kExtended false) }; s.powered = true ∧ s.ctr (oPllLock 7) = 1 ∧ s.starting = some (startOf kExtended false)) ∧
    2 ≤ (set ready [(oLatchAction, 2)]).nat oLatchAction ∧ (set ready [(oLatchAction, 2)]).up = true ∧
    (∀ l, l < 48 → (set ready [(oLatchAction, 2)]).linkState l ≠ lsUp ∧ (set ready [(oLatchAction, 2)]).linkState l ≠ lsDraining) ∧
    (let s := set ready [(oLatchAction, 2), (oLinkState 47, lsUp)]; 2 ≤ s.nat oLatchAction ∧ s.up = true ∧ s.linkState 47 = lsUp) := by
  refine ⟨by decide +kernel, by decide +kernel, by decide +kernel, by decide +kernel, by decide +kernel, by decide +kernel, by decide +kernel, rfl, ⟨by decide +kernel, by decide +kernel, rfl⟩,
    by decide +kernel, by decide +kernel, by decide +kernel, by decide +kernel⟩

/-- The links of the last group: one with a cable in a state, the others without. -/
def grouped (st : Nat) : State :=
  { set ready [(oBtnEnable, 128), (oLinkState 47, st)] with links := [(47, { Link.reset with prsntSince := some 0 })] }

theorem wit_GroupPressDrainsOrResumes : (∀ st ∈ [lsUp, lsDraining, lsDrained], ((grouped st).nat oBtnEnable).testBit 7 = true ∧
      (grouped st).mstate ≠ msConfiguring ∧ (grouped st).mstate ≠ msSafe) ∧
    (∃ l ∈ groupLinks 7, ((grouped lsUp).link l).prsntSince.isSome = true ∧ ¬((grouped lsUp).linkState l = lsDraining ∨ (grouped lsUp).linkState l = lsDrained)) ∧
    ∀ st ∈ [lsDraining, lsDrained], ∀ l ∈ groupLinks 7, ((grouped st).link l).prsntSince = none ∨ (grouped st).linkState l = lsDraining ∨ (grouped st).linkState l = lsDrained := by
  decide +kernel

/-! ### Sites -/

/-- The site of a way group of die 7 is LASTING, and its action has begun or not. -/
def lastingAct (acting : Bool) : State :=
  { set ready [(oSite 7 96, 2 * 2 ^ 61), (oRetireEnable, 4)] with sites := [(512 * 7 + 96, { SiteW.reset with acting := acting })] }

theorem wit_SitesAndLedgerCount_ways : ∀ a ∈ [true, false], (lastingAct a).siteState 7 96 = 2 ∧ siteKind 96 = 2 ∧
    (Tbl.get SiteW.reset (lastingAct a).sites (512 * 7 + 96)).acting = a ∧ (lastingAct a).permitted 7 96 = true := by decide +kernel

end Sys2Proof.Tests
end

