-- ==== Sys2Proof/Tests/Requests.lean ====
section
/-! SUPPORT. Witnesses: states, requests and sessions that meet the hypotheses of the statements on the dictionary's server. -/

namespace Sys2Proof.Tests

set_option Elab.async false

open Sys2Proof Sys2Proof.Machine

theorem wit_StepRunsFrontCommand : ({ ready with pending := [.bypass] } : State).pending = [Instr.bypass] ∧ ready.pending = [] := ⟨rfl, rfl⟩

theorem wit_CommandsOnUnitsComplete : (Instr.droop 23).wf = true ∧ (Instr.droop 24).wf = false := by decide

/-- An L2 session on the I3C port. -/
def sI : State := State.withSess ready (sessOn i3c 2)
def fRead : Frame := asks 1 0 [item oModuleState []]

theorem wit_ReadIsAnswered_read : sI.Admits i3c fRead (sessOn i3c 2) ∧ fRead.op = 1 ∧ fRead.flags.testBit 5 = false ∧ fRead.flags.testBit 6 = false ∧
    fRead.items = [item oModuleState []] ∧
    (sI.forRequest (sessOn i3c 2) fRead).readItem ((sessOn i3c 2).asking sI.now fRead.seq) (item oModuleState []) true .one false = (0, [2]) ∧
    ([2] : List Byte).length ≤ 512 ∧ 0 ≠ stNotApplied :=
  ⟨admits_of (by decide +kernel), by decide +kernel⟩

def fConsume : Frame := asks 1 64 [item (oParityErrors 383) []]

theorem wit_ReadIsAnswered_consume : sI.Admits i3c fConsume (sessOn i3c 2) ∧ fConsume.op = 1 ∧ fConsume.flags.testBit 5 = false ∧
    fConsume.flags.testBit 6 = true ∧ fConsume.items = [item (oParityErrors 383) []] ∧
    (sI.forRequest (sessOn i3c 2) fConsume).readItem ((sessOn i3c 2).asking sI.now fConsume.seq) (item (oParityErrors 383) []) false .one false =
      (0, leBytes 4 0) :=
  ⟨admits_of (by decide +kernel), by decide +kernel⟩

def fDesc : Frame := asks 1 32 [item oModuleState []]

theorem wit_ReadIsAnswered_desc : sI.Admits i3c fDesc (sessOn i3c 2) ∧ fDesc.flags.testBit 5 = true ∧ fDesc.flags.testBit 6 = false ∧
    fDesc.items = [item oModuleState []] ∧
    (sI.forRequest (sessOn i3c 2) fDesc).gate ((sessOn i3c 2).asking sI.now fDesc.seq) (oModuleState / 256) (oModuleState % 256) = 0 ∧
    (objRow oModuleState).isSome = true :=
  ⟨admits_of (by decide +kernel), by decide +kernel⟩

def fMulti : Frame := asks 3 0 [item oModuleState [], item oVin48Mv []]

theorem wit_ReadMultiIsAnswered : sI.Admits i3c fMulti (sessOn i3c 2) ∧ fMulti.op = 3 ∧ fMulti.flags.testBit 5 = false ∧
    fMulti.flags.testBit 6 = false ∧ fMulti.items.length ≤ 64 ∧
    ∀ it ∈ fMulti.items, ((sI.forRequest (sessOn i3c 2) fMulti).readItem ((sessOn i3c 2).asking sI.now fMulti.seq) it true .multi true).2.length ≤ 8 :=
  ⟨admits_of (by decide +kernel), by decide +kernel⟩

def fConsumes : Frame := asks 3 64 [item (oParityErrors 383) [], item (oParityErrors 0) [], item oModuleState []]

theorem wit_ReadMultiIsAnswered_consume : sI.Admits i3c fConsumes (sessOn i3c 2) ∧ fConsumes.op = 3 ∧ fConsumes.flags.testBit 5 = false ∧
    fConsumes.flags.testBit 6 = true ∧ fConsumes.items.length ≤ 64 ∧
    (∀ v ∈ ((sI.forRequest (sessOn i3c 2) fConsumes).readItems ((sessOn i3c 2).asking sI.now fConsumes.seq) fConsumes).2, v.2.length ≤ 8) ∧
    (((sI.forRequest (sessOn i3c 2) fConsumes).readItems ((sessOn i3c 2).asking sI.now fConsumes.seq) fConsumes).2.map fun v => v.1) = [0, 0, stAccess] :=
  ⟨admits_of (by decide +kernel), by decide +kernel⟩

/-- Descriptors of `n` items: two fit a frame, and 64 do not. -/
def fDescs (n : Nat) : Frame := asks 3 32 (List.replicate n (item oModuleState []))

theorem wit_ReadMultiIsAnswered_desc : ∀ n ∈ [2, 64], sI.Admits i3c (fDescs n) (sessOn i3c 2) ∧ (fDescs n).op = 3 ∧ (fDescs n).flags.testBit 5 = true ∧
    (fDescs n).flags.testBit 6 = false ∧ (fDescs n).items.length ≤ 64 ∧
    (let v := fun it => (sI.forRequest (sessOn i3c 2) (fDescs n)).readItem ((sessOn i3c 2).asking sI.now (fDescs n).seq) it true .desc true
     let whole := response (fDescs n) (firstBad ((fDescs n).items.map fun it => (v it).1)) ((fDescs n).items.map fun it => answerItem it (v it).1 (v it).2)
     tooLong ((sessOn i3c 2).asking sI.now (fDescs n).seq) { whole with time := sI.mtime } = decide (n = 64)) := by
  intro n h
  rcases (by simpa using h : n = 2 ∨ n = 64) with rfl | rfl <;> exact ⟨admits_of (by decide +kernel), by decide +kernel⟩

/-- The clauses of one item, by the first check that fails: a hidden object, a WO object, a wrong type, a segment, no value, a unit that is off, a
value. -/
theorem wit_ReadItemValue :
    (sI.gate (sessOn i3c 0) (oHaltReq 0 / 256) (oHaltReq 0 % 256) ≠ 0) ∧
    (sI.gate (sessOn i3c 2) (oHaltReq 0 / 256) (oHaltReq 0 % 256) = 0 ∧ ((objRow (oHaltReq 0)).map fun r => r.acc) = some 2) ∧
    (((objRow oModuleState).map fun r => (inSegments r, r.acc, r.ty)) = some (false, 0, 0)) ∧ textOf oModuleState = none ∧
    ((objRow oModuleState).bind fun r => sI.valueFor (sessOn i3c 2) r oModuleState) = some 2 ∧
    ((objRow oModuleState).map fun r => sI.unitOff r oModuleState) = some false ∧
    ((objRow (oBusyCycles 0)).map fun r => (set sI [(oArrayState 0, 3)]).unitOff r (oBusyCycles 0)) = some true ∧
    ((objRow oVin48Mv).bind fun r => sI.valueFor (sessOn i3c 2) r oVin48Mv) = none := by decide +kernel

/-- A routing table, of 48 segments; of the second of them, where the table has changed since the session read the first, and where it has not. -/
theorem wit_ReadItemValue_segments : ∃ r, objRow (oRouteTable 0) = some r ∧ inSegments r = true ∧ r.acc ≠ 2 ∧
    sI.gate (sessOn i3c 2) (oRouteTable 0 / 256) (oRouteTable 0 % 256) = 0 ∧ sI.valueBytes (sessOn i3c 2) r (oRouteTable 0) = some (leBytes 24576 0) ∧
    (leBytes 24576 0).length ≤ 512 * 48 ∧ 512 * 47 < (leBytes 24576 0).length ∧ sI.unitOff r (oRouteTable 0) = false ∧
    (let c : Sess := { sessOn i3c 2 with seg0 := [(oRouteTable 0, 0)] }
     (∃ e ∈ c.seg0, e.1 = oRouteTable 0 ∧ e.2 ≠ Tbl.get 0 (sI.changed (oRouteTable 0)).vers (oRouteTable 0)) ∧
       ∀ e ∈ c.seg0, e.1 = oRouteTable 0 → e.2 = Tbl.get 0 sI.vers (oRouteTable 0)) := by
  obtain ⟨r, hr⟩ : ∃ r, objRow (oRouteTable 0) = some r := Option.isSome_iff_exists.mp (by decide +kernel)
  have h1 : (objRow (oRouteTable 0)).map (fun r => (r.ty, r.acc, r.size, sI.unitOff r (oRouteTable 0), sI.valueFor (sessOn i3c 2) r (oRouteTable 0))) =
      some (0xA, 0, 24576, false, some 0) := by decide +kernel
  rw [hr] at h1
  simp only [Option.map_some, Option.some.injEq, Prod.mk.injEq] at h1
  obtain ⟨ht, ha, hz, hu, hv⟩ := h1
  have hx : textOf (oRouteTable 0) = none := by decide +kernel
  refine ⟨r, hr, by simp [inSegments, ht], by simp [ha], by decide +kernel, ?_, by rw [leBytes_length], by rw [leBytes_length]; decide, hu, by decide +kernel⟩
  simp [State.valueBytes, hx, hv, hz]

def fWrite : Frame := asks 2 0 [item oPowerCap (leBytes 4 8000)]

theorem plain_powerCap : plainObject oPowerCap := by
  refine ⟨by decide, by decide, by decide, by decide, by decide, fun s c v => ⟨?_, ?_⟩⟩
  · rfl
  · rfl

theorem wit_WriteApplies : sI.Admits i3c fWrite (sessOn i3c 2) ∧ fWrite.op = 2 ∧ fWrite.items.length ≤ 64 ∧
    (∀ it ∈ fWrite.items, plainObject (it.idx * 256 + it.sub)) ∧
    ∀ st ∈ (sI.forRequest (sessOn i3c 2) fWrite).itemStatuses ((sessOn i3c 2).asking sI.now fWrite.seq) i3c fWrite.items, st = 0 := by
  refine ⟨admits_of (by decide +kernel), by decide +kernel, by decide +kernel, ?_, by decide +kernel⟩
  intro it h
  rw [show fWrite.items = [item oPowerCap (leBytes 4 8000)] from rfl, List.mem_singleton] at h
  subst h
  exact plain_powerCap

def fBad : Frame := asks 2 0 [item oPowerCap (leBytes 4 8000), item oModuleState [1]]

theorem wit_WriteIsAllOrNothing : sI.Admits i3c fBad (sessOn i3c 2) ∧ fBad.op = 2 ∧ fBad.items.length ≤ 64 ∧
    (∀ it ∈ fBad.items, it.idx * 256 + it.sub ≠ oSessionProof ∧ it.idx * 256 + it.sub ≠ oSvcToken) ∧
    ∃ st ∈ (sI.forRequest (sessOn i3c 2) fBad).itemStatuses ((sessOn i3c 2).asking sI.now fBad.seq) i3c fBad.items, st ≠ 0 :=
  ⟨admits_of (by decide +kernel), by decide +kernel⟩

/-- A WRITE that waits for flash. -/
theorem wit_WriteApplies_durable : ({ ready with flash := [⟨[], i3c, fRead⟩] } : State).flash = ⟨[], i3c, fRead⟩ :: [] := rfl

/-- An opening value of a level: the level, and a nonce of ones. -/
def opening (level : Nat) : List Byte := leBytes 16 level ++ List.replicate 16 1

def asker (p : Port) : Who := ⟨p, 0, 0, none⟩
def eth : Port := { tr := .eth, fn := 0 }
def mbx0 : Port := { tr := .mbx, fn := 0 }
/-- The module with its Ethernet link up. -/
def ethLinked : State := set ready [(oEthLink, 1)]

/-- An opening at L2 where the port grants it, and on Ethernet, where it is pending. -/
theorem wit_SessionOpens : (∀ p ∈ [i3c, eth, mbx0], ethLinked.hears p = true ∧ (asker p).sess = 0 ∧ (asker p).tag = none ∧ (opening 2).length = 32 ∧
      (∀ d ∈ ethLinked.sess, d.id ≠ 0) ∧ (isVf p = true → ethLinked.received.nat oMbxVfEnable ≠ 0) ∧ (p.tr = .mbx → ethLinked.mbxFree p.fn = true) ∧
      ethLinked.received.openStatus p (opening 2) = 0) ∧
    portLevel i3c = 2 ∧ portLevel eth = 0 ∧ ready.sess.length ≤ 32 ∧ ready.sids.length ≤ 1024 := by decide +kernel

/-- A pending session on Ethernet. -/
def pendSess (level : Nat) : Sess := { sessOn eth level with pending := true }
def sP : State := State.withSess ethLinked (pendSess 2)

theorem wit_SessionProofJudged_right : sP.Takes (who eth) oSessionProof (proofOf (pendSess 2)) (pendSess 2) :=
  takes_of (admits_of (by decide +kernel)) (by decide +kernel)

theorem wit_SessionProofJudged_wrong : sP.Admits (who eth).port (writeOf (who eth) oSessionProof (List.replicate 32 0)) (pendSess 2) ∧
    (pendSess 2).pending = true ∧ (pendSess 2).proven = false ∧ ((pendSess 2).level = 3 → (pendSess 2).port.tr = .eth) ∧
    (List.replicate 32 (0 : Byte)).length = 32 ∧ (List.replicate 32 0 ≠ proofOf (pendSess 2) ∨ (pendSess 2).key = [] ∨ scopeOk (pendSess 2) = false) :=
  ⟨admits_of (by decide +kernel), by decide +kernel⟩

theorem wit_SessionWrites_close : sI.Takes (who i3c) oSessionClose (leBytes 1 1) (sessOn i3c 2) :=
  takes_of (admits_of (by decide +kernel)) (by decide +kernel)

theorem wit_SessionWrites_svcEnable : sI.Takes (who i3c) oSvcEnable (leBytes 1 0) (sessOn i3c 2) :=
  takes_of (admits_of (by decide +kernel)) (by decide +kernel)

/-- A pending L3 session on the I3C port, with a token: whether its signature verifies depends on the fused SERIAL. -/
def sT : State := State.withSess ready { sessOn i3c 3 with pending := true }
def token : List Byte := leBytes 4 5 ++ leBytes 4 28800 ++ List.replicate 120 0

theorem wit_SessionWrites_svcToken : sT.Admits i3c (writeOf (who i3c) oSvcToken token) { sessOn i3c 3 with pending := true } ∧
    ({ sessOn i3c 3 with pending := true } : Sess).pending = true ∧ ({ sessOn i3c 3 with pending := true } : Sess).level = 3 ∧ token.length = 128 :=
  ⟨admits_of (by decide +kernel), by decide +kernel⟩

theorem wit_SessionWrites_restore : sI.Admits i3c (writeOf (who i3c) oRestore (leBytes 1 0xA5)) (sessOn i3c 2) ∧
    ∀ it ∈ (writeOf (who i3c) oRestore (leBytes 1 0xA5)).items,
      (sI.forRequest (sessOn i3c 2) (writeOf (who i3c) oRestore (leBytes 1 0xA5))).writeStatus ((sessOn i3c 2).asking sI.now 1) i3c
        ((sI.forRequest (sessOn i3c 2) (writeOf (who i3c) oRestore (leBytes 1 0xA5))).postOf
          (writeOf (who i3c) oRestore (leBytes 1 0xA5)).items) it = 0 :=
  ⟨admits_of (by decide +kernel), by decide +kernel⟩

theorem restoreStatus_bad (s : State) (c : Sess) (p : Port) {key : Nat} (h : key ∈ restoreSet) (hb : s.restoreOne c p key ≠ 0) :
    s.restoreStatus c p ≠ 0 := by
  have run : ∀ (l : List Nat) (a : Nat × Nat), (a.2 ≠ 0 ∨ key ∈ l) → (l.foldl (fun (a : Nat × Nat) key =>
      let st := s.restoreOne c p key
      if st ≠ 0 && (a.2 = 0 || key < a.1) then (key, st) else a) a).2 ≠ 0 := by
    intro l
    induction l with
    | nil => intro a ha; simpa using ha
    | cons k l ih =>
      intro a ha
      rw [List.foldl_cons]
      apply ih
      by_cases hk : s.restoreOne c p k = 0
      · rcases ha with ha | ha
        · exact Or.inl (by simpa [hk] using ha)
        · rcases List.mem_cons.mp ha with rfl | ha
          · exact absurd hk hb
          · exact Or.inr ha
      · left
        by_cases h0 : a.2 = 0
        · simp [hk, h0]
        · by_cases hl : k < a.1 <;> simp [hk, hl, h0]
  exact run restoreSet (0, 0) (Or.inr h)

/-- On Ethernet, in a proven session of L2, RESTORE meets an object that is not written there. -/
theorem wit_SessionWrites_restore_fails : (State.withSess ethLinked (sessOn eth 2)).restoreStatus (sessOn eth 2) eth ≠ 0 :=
  restoreStatus_bad _ _ _ (key := 0x700101) (by decide +kernel) (by decide +kernel)

theorem wit_SessionTimers :
    (sP.sess.find? fun c => c.id = 5) = some (pendSess 2) ∧ (sP.sess.find? fun c => c.id = 5 && c.pending) = some (pendSess 2) ∧
    (({ ready with sess := [{ sessOn i3c 3 with tokenEnd := some 9 }] } : State).sess.find? fun c => c.id = 5) = some { sessOn i3c 3 with tokenEnd := some 9 } ∧
    Tbl.get 0 ({ ready with locks := [(15, 60000000000)] } : State).locks 15 ≠ 0 := by decide +kernel

/-- A subscription's header. -/
def hdr (mode : Nat) : SubHdr := { period := 100000000, mode := mode, plan := 0xFF, subid := 0, dropped := 0 }
def fSub (mode : Nat) : Frame := sealed { asks 4 0 [item oModuleState []] with hdr := some (hdr mode) }

theorem wit_SubscriptionsNotify_subscribe : ∀ mode ∈ [0, 1], sI.Admits i3c (fSub mode) (sessOn i3c 2) ∧ (fSub mode).op = 4 ∧ (fSub mode).hdr = some (hdr mode) ∧
    (fSub mode).flags.testBit 4 = false ∧ (fSub mode).items.length ≤ 64 ∧ leastPeriod i3c = some 100000000 ∧
    (sI.forRequest (sessOn i3c 2) (fSub mode)).subs.length < 64 ∧ (hdr mode).mode ≤ 1 ∧ (hdr mode).plan = 0xFF ∧ 100000000 ≤ (hdr mode).period ∧
    ∀ it ∈ (fSub mode).items, (sI.forRequest (sessOn i3c 2) (fSub mode)).subStatus ((sessOn i3c 2).asking sI.now (fSub mode).seq)
      (decide ((hdr mode).mode = 1)) it = 0 := by
  intro mode h
  rcases (by simpa using h : mode = 0 ∨ mode = 1) with rfl | rfl <;> exact ⟨admits_of (by decide +kernel), by decide +kernel⟩

/-- A plan of one object, and a subscription of it without a period of its own. -/
def sPlan : State := set sI [((0x1840 + 15) * 256 + 1, 100000000), (oPlanItem 15 0, (oModuleState / 256) * 2 ^ 16 + oModuleState % 256 * 2 ^ 8)]
def fPlan : Frame := sealed { asks 4 0 [] with hdr := some { hdr 0 with period := 0, plan := 15 } }

theorem wit_SubscriptionsNotify_plan : sPlan.Admits i3c fPlan (sessOn i3c 2) ∧ fPlan.op = 4 ∧ fPlan.hdr = some { hdr 0 with period := 0, plan := 15 } ∧
    fPlan.flags.testBit 4 = false ∧ fPlan.items.length ≤ 64 ∧ 100000000 ≤ (sPlan.forRequest (sessOn i3c 2) fPlan).nat ((0x1840 + 15) * 256 + 1) ∧
    ((sPlan.forRequest (sessOn i3c 2) fPlan).planItems 15).length = 1 ∧
    ∀ it ∈ ((sPlan.forRequest (sessOn i3c 2) fPlan).planItems 15).map sampleItem,
      (sPlan.forRequest (sessOn i3c 2) fPlan).subStatus ((sessOn i3c 2).asking sPlan.now fPlan.seq) false it = 0 :=
  ⟨admits_of (by decide +kernel), by decide +kernel⟩

/-- A subscription of session 5. -/
def sub (onChange : Bool) : Sub := { id := 1, sess := 5, period := 100000000, onChange := onChange, items := [(oModuleState / 256, oModuleState % 256)], lastTime := 0,
                                     lastVals := [7], dropped := 3 }
def fCancel (subid : Nat) : Frame := sealed { asks 4 16 [] with hdr := some { hdr 0 with subid := subid } }
def sS (p : Port) (onChange : Bool) : State := { State.withSess ready (sessOn p 2) with subs := [sub onChange] }

/-- The refusals of SUBSCRIBE: 64 open, a mode of 2, a plan of 16, a period too short, and an item that is not there. -/
def fSubBad (h : SubHdr) (items : List Item) : Frame := sealed { asks 4 0 items with hdr := some h }

theorem wit_SubscriptionsNotify_refused :
    (∀ e ∈ [({ hdr 0 with mode := 2 }, [item oModuleState []]), ({ hdr 0 with plan := 16 }, []), ({ hdr 0 with period := 99999999 }, [item oModuleState []]),
        (hdr 0, [item 0 []])], (fSubBad e.1 e.2).op = 4 ∧ (fSubBad e.1 e.2).hdr = some e.1 ∧ (fSubBad e.1 e.2).flags.testBit 4 = false ∧
      (fSubBad e.1 e.2).items.length ≤ 64 ∧ admitsB sI i3c (fSubBad e.1 e.2) (sessOn i3c 2) = true) ∧
    (sI.forRequest (sessOn i3c 2) (fSubBad (hdr 0) [item 0 []])).subStatus ((sessOn i3c 2).asking sI.now 1) false (item 0 []) ≠ 0 ∧
    (let s : State := { sI with subs := List.replicate 64 (sub false) }
     admitsB s i3c (fSub 0) (sessOn i3c 2) = true ∧ 64 ≤ (s.forRequest (sessOn i3c 2) (fSub 0)).subs.length) := by decide +kernel

/-- The test access port has no subscriptions. -/
def tapP : Port := { tr := .tap, fn := 0 }
theorem wit_SubscriptionsNotify_tap : let s : State := { State.withSess ready (sessOn tapP 2) with tapIr := 4 }
    leastPeriod tapP = none ∧ admitsB s tapP (fSub 0) (sessOn tapP 2) = true ∧ admitsB s tapP (fCancel 1) (sessOn tapP 2) = true := by decide +kernel

theorem wit_SubscriptionsNotify_cancel : ∀ n ∈ [1, 2], (sS i3c false).Admits i3c (fCancel n) (sessOn i3c 2) ∧ (fCancel n).op = 4 ∧
    (fCancel n).hdr = some { hdr 0 with subid := n } ∧ (fCancel n).flags.testBit 4 = true ∧
    ((∃ x ∈ ((sS i3c false).forRequest (sessOn i3c 2) (fCancel n)).subs, x.id = n ∧ x.sess = (sessOn i3c 2).id) ↔ n = 1) := by
  intro n h
  rcases (by simpa using h : n = 1 ∨ n = 2) with rfl | rfl <;> exact ⟨admits_of (by decide +kernel), by decide +kernel⟩

/-- The two notifications: on the I3C port, into a mailbox with and without a free slot, on a transport that is off, and of a session whose time is
over; and on-change with the value that was last notified. -/
theorem wit_SubscriptionsNotify_notify :
    (∀ b ∈ [false, true], let s := sS i3c b
      let u := (s.atTime 100000000).expire
      s.subOf 1 = some (sub b, sessOn i3c 2) ∧ s.ctlReady = true ∧ (u.subOf 1).isSome = true ∧ u.delivers i3c = true ∧
        ((u.sampleAll (sessOn i3c 2) (sub b).items).map sampled ≠ (sub b).lastVals)) ∧
    (sS mbx0 false).subOf 1 = some (sub false, sessOn mbx0 2) ∧ (((sS mbx0 false).atTime 100000000).expire.delivers mbx0) = true ∧
    (let s : State := { sS mbx0 false with mbx := [(0, { Mbx.reset with unread := 3 })] }
     s.subOf 1 = some (sub false, sessOn mbx0 2) ∧ ((s.atTime 100000000).expire.subOf 1).isSome = true ∧ (s.atTime 100000000).expire.delivers mbx0 = false) ∧
    (let s := set (sS i3c false) [(oI3cEnable, 0)]
     s.subOf 1 = some (sub false, sessOn i3c 2) ∧ ((s.atTime 100000000).expire.subOf 1).isSome = true ∧ (s.atTime 100000000).expire.delivers i3c = false) ∧
    (∀ b ∈ [false, true], let s := set (sS i3c b) [(oSessionIdle, 1)]
      s.subOf 1 = some (sub b, sessOn i3c 2) ∧ ((s.atTime 100000000).expire.subOf 1).isSome = false) ∧
    (let s : State := { sS i3c true with subs := [{ sub true with lastVals := [3] }] }
     s.subOf 1 = some ({ sub true with lastVals := [3] }, sessOn i3c 2) ∧
       (((s.atTime 100000000).expire.sampleAll (sessOn i3c 2) (sub true).items).map sampled = [3])) := by decide +kernel

/-- A mailbox that holds a submitted frame. -/
def submitted (f : Frame) : State := { ready with mbx := [(0, { Mbx.reset with busy := true, len := f.size, frame := frameBytes f })] }

/-- The mailbox of function 31, free, busy, and holding a response; one whose request is served, discarded, or waits for flash. -/
theorem wit_MailboxRegisters :
    isFn 31 = true ∧ ready.portReady (31 / 16) = true ∧ ready.ctlReady = true ∧ (ready.mbxOf 31).busy = false ∧ (ready.mbxOf 31).ready = false ∧
    (2 : Nat) ≤ 2 ∧ 1231 + ([7] : List Byte).length ≤ 1232 ∧
    (({ ready with mbx := [(31, { Mbx.reset with ready := true })] } : State).mbxOf 31).ready = true ∧
    (∀ f ∈ [{ fRead with session := 0 }, { fRead with flags := 128 }], ((submitted f).mbxOf 0).busy = true ∧ (submitted f).mbxWaits 0 = false) ∧
    (((submitted { fRead with session := 0 }).serveFrame (mbxPort 0)
      { frameFrom ((submitted { fRead with session := 0 }).mbxOf 0).frame with size := ((submitted { fRead with session := 0 }).mbxOf 0).len }).2).isSome = true ∧
    (((submitted { fRead with flags := 128 }).serveFrame (mbxPort 0)
      { frameFrom ((submitted { fRead with flags := 128 }).mbxOf 0).frame with size := ((submitted { fRead with flags := 128 }).mbxOf 0).len }).2) = none := by
  decide +kernel

/-- A WRITE of an F object through a mailbox waits for flash. -/
def fFlash : Frame := asks 2 0 [item oPowerCap (leBytes 4 8000)]

theorem wit_MailboxRegisters_flash :
    let s : State := { State.withSess ready (sessOn mbx0 2) with mbx := [(0, { Mbx.reset with busy := true, len := fFlash.size, frame := frameBytes fFlash })] }
    let v := s.serveFrame (mbxPort 0) { frameFrom (s.mbxOf 0).frame with size := (s.mbxOf 0).len }
    (s.mbxOf 0).busy = true ∧ s.mbxWaits 0 = false ∧ v.2 = none ∧ v.1.mbxWaits 0 = true := by decide +kernel

theorem wit_BadItemsAreRefused : let f := asks 1 0 [{ item oModuleState [] with rsv := 1 }]
    sI.hears i3c = true ∧ frameLost f = false ∧ tagFails (sI.received.findSess i3c f.session) f = false ∧
      (∃ it ∈ f.items, it.rsv ≠ 0 ∨ it.istatus ≠ 0 ∨ it.padOk = false) ∧ i3c.tr ≠ .mbx ∧ sI.mbxFree 0 = true := by decide +kernel

theorem itemFits_powerCap : ItemFits (item oPowerCap (leBytes 4 8000)) := by
  constructor <;> decide +kernel

theorem wit_FramesRoundTrip : FrameFits fWrite := by
  refine ⟨by decide, by decide, by decide, by decide, by decide, by decide, rfl, by decide, by decide, by decide +kernel, ?_, by decide, by decide,
    by decide, by decide, by decide +kernel⟩
  intro i h
  rw [show fWrite.items = [item oPowerCap (leBytes 4 8000)] from rfl, List.mem_singleton] at h
  subst h
  exact itemFits_powerCap

theorem wit_StepKeepsBounds : ready.Bounded ∧ step ready = .next { ready with now := 1 } := ⟨⟨by decide, by decide, by decide⟩, rfl⟩

/-! ### Tests of single commands -/

/-- A doorbell on a busy mailbox is an overrun (R46). -/
theorem test_mbxDoorbell_overrun : (match exec (.mbxDoorbell 0 20) { ready with mbx := [(0, { Mbx.reset with busy := true })] } with
    | .next t => (t.mbxOf 0).overrun
    | _ => false) = true := by decide +kernel

/-- R38's worked shape: the response to an opening carries the session's number in its first four octets. -/
theorem test_sessionOpen_pending : (match exec (.sessionOpen (asker eth) (opening 2)) ethLinked with
    | .next t => t.sess.map fun c => (c.level, c.pending)
    | _ => []) = [(2, true)] := by decide +kernel

end Sys2Proof.Tests
end

