-- ==== Sys2Proof/Tests/Rings.lean ====
section
/-! SUPPORT. Witnesses: states that meet the hypotheses of the statements on rings, control commands and translation faults. -/

namespace Sys2Proof.Tests

set_option Elab.async false

open Sys2Proof Sys2Proof.Machine

/-! ### Doorbells, fetching, acceptance, records -/

theorem wit_RingsAndTheirCommands_doorbells :
    (ringed Ring.reset).up = true ∧ (ringed Ring.reset).ringAt 0 1 = some ring5 ∧ ((ringed Ring.reset).ring ring5).kind < 4 ∧
    (let r := (ringed Ring.reset).ring ring5
     moves r.prod 64 (2 ^ r.log2 - ringUsed r.prod r.cons) = true ∧ moves r.prod 65 (2 ^ r.log2 - ringUsed r.prod r.cons) = false) ∧
    (ringed Ring.reset).ringAt 0 9 = none ∧ (ringed Ring.reset).ringAt 0 2 = some comp7 ∧
    (let s : State := { ready with rings := [(comp7, { aComp with prod := 3 })] }
     let r := s.ring comp7
     s.ringAt 0 2 = some comp7 ∧ 4 ≤ r.kind ∧ moves r.cons 3 (ringUsed r.prod r.cons) = true ∧ moves r.cons 4 (ringUsed r.prod r.cons) = false ∧
       ∀ e ∈ s.rings, e.2.recon = false) ∧
    (let s : State := { ready with rings := [(comp7, { aComp with prod := 3 }), (ring5, { aRing with recon := true })] }
     ∃ e ∈ s.rings, e.2.live = true ∧ e.2.kind < 4 ∧ compKey e.2 = comp7 ∧ e.2.recon = true) ∧
    (let s := set ready [(oCtlEnable 31, 1)]
     let c := s.ctl 31
     s.ctr (oCtlEnable 31) ≠ 0 ∧ moves c.prod (s.ctlSize 31) (s.ctlSize 31 - ringUsed c.prod c.cons) = true ∧
       moves c.prod (s.ctlSize 31 + 1) (s.ctlSize 31 - ringUsed c.prod c.cons) = false) := by decide +kernel

/-- A command, fetched or accepted. -/
def aCmd (op : Nat) : Cmd := { Cmd.reset with aseq := 1, op := op, ctx := ctxH, recs := [record op ctxH []] }

theorem wit_RingsAndTheirCommands_ways :
    (let s := inHost (ringed { Ring.reset with prod := 1 }) 0x10000 (record 0 0 [])
     s.submits ring5 = true ∧ (s.ring ring5).fetched = none ∧ (s.readHead ring5).isSome = true ∧ 32 ≤ ring5 ∧
       (s.readHead ring5).bind s.parkedCtx = none) ∧
    (∀ c ∈ [aCmd 4, aCmd 6], let s := ringed { Ring.reset with prod := 1, fetched := some c }
      (s.ring ring5).fetched = some c ∧ compKey (s.ring ring5) ≠ ring5 ∧ s.acceptable ring5 c = true ∧
        (decide (s.checkCmd (s.ring ring5) c.recs = 0) = decide (c.op = 4))) ∧
    (let s := ringed { Ring.reset with prod := 1, fetched := some (aCmd 0) }
     (s.ring ring5).fetched = some (aCmd 0) ∧ s.submits ring5 = true ∧ (aCmd 0).bad = 0) ∧
    -- a NOP that something is wrong with is accepted and ends FAILED
    (let c : Cmd := { aCmd 0 with bad := 0x0912 }
     let s := ringed { Ring.reset with prod := 1, fetched := some c }
     (s.ring ring5).fetched = some c ∧ s.acceptable ring5 c = true) ∧
    (let c : Cmd := { aCmd 4 with waitSince := some 7 }
     let s := ringed { Ring.reset with accepted := [c] }
     (s.ring ring5).next = some c ∧ (s.ring ring5).kind = 0) ∧
    (∀ e ∈ [(3, 0x0A02), (4, 0x0907), (2, 0)], ∀ sig ∈ [0, 2 ^ 63], let c : Cmd := { aCmd 1 with ended := some e, recs := [sig * 2 ^ 128] }
      let s := ringed { Ring.reset with accepted := [c] }
      (s.ring ring5).accepted = [c] ∧ compKey (s.ring ring5) ≠ ring5 ∧ (s.ring ring5).live = true ∧ (s.ring ring5).recon = false ∧ s.up = true ∧
        s.compFree ring5 ≠ 0 ∧ s.performed ring5 c = true) := by decide +kernel

/-- Context 5,000 is parked, and `n` others are resident. -/
def parked (n : Nat) : State :=
  { ready with
    parkq := [5000]
    ctxs := (5000, { Ctx.reset with live := true }) :: (List.range n).map fun i => (i, { Ctx.reset with live := true, hw := some i }) }

theorem lowestFree_range (n : Nat) : lowestFree (List.range n) = n := by
  have h : ((List.range n).find? fun i => !(List.range n).contains i) = none := by
    rw [List.find?_eq_none]; intro x hx; simpa using hx
  simp only [lowestFree, List.length_range, List.range_succ, List.find?_append, h]
  simp

theorem parked_hwUsed (n : Nat) : (parked n).hwUsed = List.range n := by
  simp only [State.hwUsed, parked, List.filterMap_cons, List.filterMap_map]
  simp [Ctx.reset]

theorem parked_idle (n : Nat) (slot : Nat) : (parked n).ctxIdle slot = true := by
  have h1 : (parked n).rings = [] := rfl
  have h2 : (parked n).faults = [] := rfl
  simp [State.ctxIdle, h1, h2]

theorem parked_ctr (n k : Nat) (h : 0x8000 * 256 ≤ k) : (parked n).ctr k = 0 := by
  have hk : ∀ e ∈ ready.obj, e.1 < 0x8000 * 256 := by decide +kernel
  have run : ∀ t : Tbl (Option Nat), (∀ e ∈ t, e.1 < 0x8000 * 256) → Tbl.get (some 0) t k = some 0 := by
    intro t
    induction t with
    | nil => intro _; rfl
    | cons e t ih =>
      intro ht
      have h1 := ht e (List.mem_cons_self ..)
      have h2 := ih fun x hx => ht x (List.mem_cons_of_mem _ hx)
      simp only [Tbl.get]
      rw [if_neg (by omega)]
      exact h2
  have e : (parked n).obj = ready.obj := rfl
  simp only [State.ctr, e, run _ hk, Option.getD_some]

theorem parked_lastUse (n slot : Nat) : (parked n).lastUse slot = 0 := by
  unfold State.lastUse
  cases ((parked n).ctx slot).hw with
  | none => rfl
  | some hw => exact parked_ctr n _ (by unfold oSlotLastUse; omega)

theorem parked_first (n : Nat) : (parked (n + 1)).ctx 0 = { Ctx.reset with live := true, hw := some 0 } := by
  simp [parked, State.ctx, Tbl.get, List.range_succ_eq_map, Ctx.reset]

theorem parked_fold (n : Nat) (l : List Nat) :
    ((l.map fun i => (i, { Ctx.reset with live := true, hw := some i })).foldl
      (fun (b : Option Nat) (e : Nat × Ctx) => match b with
        | none => some e.1
        | some x => if (parked n).lastUse e.1 < (parked n).lastUse x then some e.1 else b) (some 0)) = some 0 := by
  induction l with
  | nil => rfl
  | cons a l ih =>
    simp only [List.map_cons, List.foldl_cons, parked_lastUse, Nat.lt_irrefl, if_false]
    simpa only [parked_lastUse, Nat.lt_irrefl, if_false] using ih

theorem parked_oldest (n : Nat) : (parked (n + 1)).oldestIdle = some 0 := by
  have hf : ((parked (n + 1)).ctxs.filter fun e => e.2.live && e.2.hw.isSome && !e.2.destroying && (parked (n + 1)).ctxIdle e.1) =
      (List.range (n + 1)).map fun i => (i, { Ctx.reset with live := true, hw := some i }) := by
    simp only [parked_idle]
    simp [parked, Ctx.reset, List.filter_map, Function.comp_def]
  unfold State.oldestIdle
  rw [hf, List.range_succ_eq_map]
  simp only [List.map_cons, List.foldl_cons]
  exact parked_fold _ _

/-- The same with none of the resident contexts idle: each is being destroyed. -/
def allHw (n : Nat) : State :=
  { ready with
    parkq := [5000]
    ctxs := (5000, { Ctx.reset with live := true }) :: (List.range n).map fun i => (i, { Ctx.reset with live := true, hw := some i, destroying := true }) }

theorem allHw_oldest (n : Nat) : (allHw n).oldestIdle = none ∧ (allHw n).hwUsed = List.range n := by
  constructor
  · have hf : ((allHw n).ctxs.filter fun e => e.2.live && e.2.hw.isSome && !e.2.destroying && (allHw n).ctxIdle e.1) = [] := by
      simp [allHw, Ctx.reset, List.filter_map, Function.comp_def]
    unfold State.oldestIdle
    rw [hf]
    rfl
  · simp only [State.hwUsed, allHw, List.filterMap_cons, List.filterMap_map]
    simp [Ctx.reset]

theorem parked_waits (n : Nat) : (parked n).parkq = [5000] ∧ ((parked n).ctx 5000).live = true ∧ ((parked n).ctx 5000).hw = none := ⟨rfl, rfl, rfl⟩

theorem wit_RingsAndTheirCommands_park :
    ((parked 1).parkq = [5000] ∧ ((parked 1).ctx 5000).live = true ∧ ((parked 1).ctx 5000).hw = none ∧ lowestFree (parked 1).hwUsed < 4096) ∧
    ((parked 4096).parkq = [5000] ∧ ((parked 4096).ctx 5000).live = true ∧ ((parked 4096).ctx 5000).hw = none) ∧
    4096 ≤ lowestFree (parked 4096).hwUsed ∧ (parked 4096).oldestIdle = some 0 ∧ ((parked 4096).ctx 0).hw = some 0 ∧
    (allHw 4096).parkq = [5000] ∧ ((allHw 4096).ctx 5000).live = true ∧ ((allHw 4096).ctx 5000).hw = none ∧ 4096 ≤ lowestFree (allHw 4096).hwUsed ∧
    (allHw 4096).oldestIdle = none := by
  refine ⟨by decide +kernel, parked_waits 4096, ?_, parked_oldest 4095, ?_, rfl, rfl, rfl, ?_, (allHw_oldest 4096).1⟩
  · rw [parked_hwUsed, lowestFree_range]
  · rw [parked_first 4095]
  · rw [(allHw_oldest 4096).2, lowestFree_range]

/-! ### The control ring -/

/-- A record at the head of function 0's control ring. -/
def controlV (s : State) (v : Nat) : State := inHost { set s [(oCtlEnable 0, 1)] with ctls := [(0, ⟨1, 0, 0⟩)] } 0 v

theorem wit_ControlFormAndInvalidation_form :
    (let v := record 0x40 0 []; (controlV ready v).ctlHead 0 = some v ∧ isControlOp (hOp v) = false) ∧
    ∀ e ∈ [(0x41, [(1, 31, 4), (2, 63, 32), (3, 63, 0), (4, 63, 0), (5, 63, 0)]), (0x42, onlyHandle),
        (0x43, [(1, 15, 9), (1, 31, 24), (1, 59, 48), (3, 63, 36), (5, 63, 0)]), (0x44, onlyHandle), (0x45, [(2, 63, 4), (3, 63, 0), (4, 63, 0), (5, 63, 0)]),
        (0x46, onlyHandle), (0x47, [(0, 63, 2), (1, 63, 32), (5, 63, 0)]), (0x48, onlyHandle),
        (0x49, [(0, 63, 32), (2, 63, 17), (3, 63, 0), (4, 63, 0), (5, 63, 0)]), (0x4A, onlyHandle)],
      (let v := record e.1 1 []; (controlV ready v).ctlHead 0 = some v ∧ hOp v = e.1 ∧ ((controlV ready v).ctl 0).stale = 0 ∧ ctlHeadOk v = false) ∧
      let v := record e.1 0 (List.replicate 6 (2 ^ 64 - 1))
      (controlV ready v).ctlHead 0 = some v ∧ hOp v = e.1 ∧ ctlHeadOk v = true ∧ ∃ z ∈ e.2, bits z.2.1 z.2.2 (ctlW v z.1) ≠ 0 := by decide +kernel

/-- The first context in one of its states. -/
def ctxIs (hw : Option Nat) (error : Bool) : State := { ready with ctxs := [(0, { Ctx.reset with live := true, hw := hw, error := error })] }

theorem wit_ControlFormAndInvalidation_invalidate :
    (∀ e ∈ [(some 0, false), (none, false), (some 0, true)], ∀ va ∈ [0, 2 ^ 56 - 8],
      let v := record 0x4B 0 [ctxH, 0, 0, va, 1]; let s := controlV (ctxIs e.1 e.2) v
      s.ctlHead 0 = some v ∧ hOp v = 0x4B ∧ (s.ctl 0).stale = 0 ∧ ctlHeadOk v = true ∧ bits 63 32 (ctlW v 0) = 0 ∧ ctlW v 5 = 0 ∧
        s.ctlCtx 0 (bits 31 0 (ctlW v 0)) = 0 ∧ ctlW v 1 % 65536 = 0 ∧ ctlW v 3 % 8 = 0 ∧ (s.ctx 0).hw = e.1 ∧ (s.ctx 0).error = e.2) ∧
    ctlHeadOk (record 0x4B 1 []) = false ∧
    (let v := record 0x4B 0 [ctxH, 1]; let s := controlV (ctxIs none false) v
     s.ctlHead 0 = some v ∧ ctlHeadOk v = true ∧ s.ctlCtx 0 (bits 31 0 (ctlW v 0)) = 0 ∧ ctlW v 1 % 65536 ≠ 0) ∧
    -- the addition waits where its word has no translation
    (let v := record 0x4B 0 [ctxH, 0, 0, 8, 1]; let s := (controlV (ctxIs none false) v).bump 8 oInvalidations 1
     s.xlate ctxH 8 = none ∧ (s.ctxOf ctxH).isSome = true) ∧
    (let v := record 0x4B 0 [ctxH]; let s := controlV ready v
     s.ctlHead 0 = some v ∧ ctlHeadOk v = true ∧ bits 63 32 (ctlW v 0) = 0 ∧ ctlW v 5 = 0 ∧ s.ctlCtx 0 (bits 31 0 (ctlW v 0)) ≠ 0) ∧
    (let v := record 0x4B 0 [ctxH]; let s : State := { controlV (ctxIs (some 0) false) v with ctls := [(0, ⟨1, 0, 1⟩)] }
     s.ctlHead 0 = some v ∧ (s.ctl 0).stale = hSlot (bits 31 0 (ctlW v 0)) + 1 ∧ s.ctxInFlight (bits 31 0 (ctlW v 0)) = false) ∧
    (let v := record 0x4B 0 [ctxH]
     let s : State := { controlV (ctxIs (some 0) false) v with
       ctls := [(0, ⟨1, 0, 1⟩)], arcs := [(2, { Arc.reset with live := true, ctx := ctxH })]
       peers := [{ engine := 3, source := 0, va := 0, arc := 2, ring := 0, aseq := 0, data := none, bad := false }] }
     s.ctlHead 0 = some v ∧ (s.ctl 0).stale = hSlot (bits 31 0 (ctlW v 0)) + 1 ∧ s.ctxInFlight (bits 31 0 (ctlW v 0)) = true) := by
  decide +kernel

/-- A fault ring that the first fault ring handle names. -/
def fault8 : Nat := 65536 * 8
def aFault : Ring := { Ring.reset with live := true, kind := 5, base := 0x30000, log2 := 6, page := 3 }

theorem wit_ContextsAndRings_ctx :
    let zero := [(1, 31, 4), (2, 63, 32), (3, 63, 0), (4, 63, 0), (5, 63, 0)]
    (∀ w ∈ [[0], [1], [8192, 0, 3600000000], [0, 0, 3600000001], [0, 2 ^ 32 * ready.handle 8 0 + 0]],
      commandsB { ready with rings := [(fault8, aFault)] } 0x41 w zero = true) ∧
    commandsB (set ready [(oPartState 0, 2)]) 0x41 [0] zero = true ∧ ready.ctr (oPartState 0) ≠ 2 ∧ rootOk 0 = true ∧ rootOk 1 = false ∧
    timeoutOk 3600000000 = true ∧ timeoutOk 3600000001 = false ∧ rootOk (8 * octantBytes) = false ∧ rootOk 0x40000000000 = true ∧
    lowestFree ((ready.ctxs.filter fun e => e.2.live).map fun e => e.1) < 65536 ∧
    (let s : State := { ready with rings := [(fault8, aFault)] }; let fr := ready.handle 8 0
     s.ctlHandle 0 8 fr (s.ring (65536 * 8 + hSlot fr)).live (s.ring (65536 * 8 + hSlot fr)).part = 0 ∧ (s.ring (65536 * 8 + hSlot fr)).part = s.fnPart 0 0) ∧
    commandsB (ctxIs none false) 0x42 [ctxH] onlyHandle = true ∧ commandsB ready 0x42 [ctxH] onlyHandle = true ∧
    (ctxIs none false).ctlCtx 0 ctxH = 0 ∧ ready.ctlCtx 0 ctxH ≠ 0 ∧ (∀ k, k < 96 → ((ctxIs none false).core k).shard = none) ∧
    (∀ e, e < 32 → ((ctxIs none false).ring (kCopyRing e)).copying = []) ∧
    (let s := set ready [(oObjTable 1, 2 ^ 20)]; let h := s.handle 1 0
     hSlot h = 0 ∧ hKind h = 1 ∧ s.tableKey 0 ≠ s.tableKey 1 ∧ commandsB s 0x41 [0] zero = true) := by decide +kernel

/-- A context whose command waits for its record, and one whose destruction has begun and may end. -/
theorem wit_ContextsAndRings_destroy :
    (let s : State := { control (ctxIs none false) 0x42 [ctxH] with rings := [(ring5, { aRing with accepted := [{ Cmd.reset with aseq := 1, op := 4, ctx := ctxH }] })] }
     s.recordsDue ctxH = true ∧ s.ctlCtx 0 ctxH = 0) ∧
    (ctxIs none false).recordsDue ctxH = false ∧ (ctxIs none false).arcsBusy ctxH = false ∧
    (let s0 := control (ctxIs none false) 0x42 [ctxH]
     let s : State := { s0 with ctls := [(0, ⟨1, 0, hSlot ctxH + 1⟩)], ctxs := [(0, { Ctx.reset with live := true, destroying := true, formerly := ctxH, destroyedAt := 0 })], now := 9 }
     s.ctlHead 0 = some (record 0x42 0 [ctxH]) ∧ hOp (record 0x42 0 [ctxH]) = 0x42 ∧ (s.ctl 0).stale = hSlot ctxH + 1 ∧ s.recordsDue ctxH = false ∧
       s.arcsBusy ctxH = false ∧ ∀ n ∈ (s.ctx 0).drains, s.engineBusy n = false) := by decide +kernel

/-- Operand words of RING_CREATE. -/
def ringW (kind log2 base comp us : Nat) : List Nat := [base, kind + 16 * log2, comp + 2 ^ 32 * us, us]

theorem wit_ContextsAndRings_ring :
    let zero := [(1, 15, 9), (1, 31, 24), (1, 59, 48), (3, 63, 36), (5, 63, 0)]
    let s : State := { ready with rings := [(comp7, aComp)] }
    let comp := ready.handle 7 0
    (∀ w ∈ [ringW 4 6 4096 0 0, ringW 5 20 0 0 0, ringW 0 6 0 comp 1000, ringW 3 6 0 comp 1000, ringW 6 6 0 0 0, ringW 4 5 0 0 0, ringW 0 6 0 0 1000],
      commandsB s 0x43 w zero = true) ∧
    (∀ k ∈ [0, 1, 2, 3], let v := record 0x43 0 (ringW k 6 0 comp 1000); s.submitCheck 0 v k 0 = 0) ∧
    s.submitCheck 0 (record 0x43 0 (ringW 0 6 0 0 1000)) 0 0 ≠ 0 ∧
    (let u : State := { s with rings := s.rings ++ [(ring5, { Ring.reset with live := true, comp := comp + 1 })] }
     u.submitCheck 0 (record 0x43 0 (ringW 0 6 0 comp 1000)) 0 0 = 0 ∧ commandsB u 0x43 (ringW 0 6 0 comp 1000) zero = true ∧
       (fixedSlot 0 0 0) = some 0 ∧ 0 ∈ (u.rings.filter fun e => e.2.live && e.1 / 65536 = ringHandleKind 0).map fun e => e.1 % 65536) ∧
    commandsB s 0x44 [comp] onlyHandle = true ∧ s.ctlRing 0 comp = 0 ∧ 65536 * hKind comp + hSlot comp = comp7 ∧ (s.ring comp7).prod = (s.ring comp7).cons ∧
    (s.ring comp7).accepted = [] ∧ ready.ctlRing 0 comp ≠ 0 ∧
    (let u : State := { ready with rings := [(comp7, { aComp with prod := 1 })] }
     (u.ring comp7).prod ≠ (u.ring comp7).cons ∧ u.ctlRing 0 comp = 0 ∧ commandsB u 0x44 [comp] onlyHandle = true) ∧
    commandsB (ringed Ring.reset) 0x44 [comp] onlyHandle = true ∧ commandsB ready 0x44 [comp] onlyHandle = true := by decide +kernel

/-! ### Objects of a context -/

/-- A state of which a memory object is asked for. -/
def askMem : State := control ready 0x45 [0, 65536]

theorem askMem_octant : Octant0 askMem := ⟨by decide +kernel, by decide +kernel, by decide +kernel, by decide +kernel⟩

theorem wit_ObjectsOfContexts_mem :
    let zero := [(2, 63, 4), (3, 63, 0), (4, 63, 0), (5, 63, 0)]
    commandsB ready 0x45 [0, 65536] zero = true ∧ askMem.inRegion 0 0 65536 = true ∧ askMem.fnPart 0 0 = 0 ∧ askMem.mems = [] ∧
    commandsB ready 0x45 [0, 65537] zero = true ∧ commandsB ready 0x45 [0] zero = true := by
  exact ⟨by decide +kernel, askMem_octant.inRegion 0 65536 (by decide) (by decide), by decide +kernel, by decide +kernel, by decide +kernel,
    by decide +kernel⟩

theorem wit_ObjectsOfContexts :
    (let s : State := { ready with mems := [(0, { live := true, pa := 0, len := 65536, part := 0, fn := 0 })] }; let h := ready.handle 2 0
     commandsB s 0x46 [h] onlyHandle = true ∧ s.ctlHandle 0 2 h true 0 = 0 ∧ ready.ctlHandle 0 2 h false 0 ≠ 0 ∧ commandsB ready 0x46 [h] onlyHandle = true) ∧
    (let zero := [(0, 63, 32), (2, 63, 17), (3, 63, 0), (4, 63, 0), (5, 63, 0)]
     commandsB (ctxIs none false) 0x49 [ctxH, 2 ^ 56 - 8, 2 ^ 16 + 2047] zero = true ∧ commandsB (ctxIs none false) 0x49 [ctxH, 1] zero = true ∧
       commandsB (ctxIs none false) 0x49 [ctxH, 0, 2048] zero = true ∧ commandsB ready 0x49 [ctxH] zero = true) ∧
    (let s : State := { ctxIs none false with sigs := [(0, { SigObj.reset with live := true, ctx := ctxH })] }; let h := ready.handle 4 0
     commandsB s 0x4A [h] onlyHandle = true ∧ s.ctlHandle 0 4 h true 0 = 0 ∧ ready.ctlHandle 0 4 h false 0 ≠ 0 ∧ commandsB ready 0x4A [h] onlyHandle = true) ∧
    (let zero := [(0, 63, 2), (1, 63, 32), (5, 63, 0)]
     (∀ w ∈ [[0, ctxH], [1, ctxH, 7 + 65536 * 15, 9, 10000], [2, ctxH, 7, 9, 5], [3, ctxH], [1, ctxH, 7, 0], [1, ctxH, 7, 9, 4]],
       commandsB (ctxIs none false) 0x47 w zero = true) ∧ commandsB ready 0x47 [0, ctxH] zero = true ∧
     7 ≠ (ctxIs none false).vertex ∧ unassignable 7 = false ∧ (ctxIs none false).carrier ctxH 7 = none ∧ (ctxIs none false).arcs = []) ∧
    (let s : State := { ctxIs none false with arcs := [(0, { Arc.reset with live := true })] }; let h := ready.handle 3 0
     commandsB s 0x48 [h] onlyHandle = true ∧ s.ctlHandle 0 3 h (s.arc 0).live (s.arc 0).part = 0 ∧ (s.arc 0).unacked = [] ∧ s.peers = [] ∧ (∀ i, i < 64 → s.remotes i = []) ∧
       ready.ctlHandle 0 3 h false 0 ≠ 0 ∧ commandsB ready 0x48 [h] onlyHandle = true) := by decide +kernel

/-! ### Translation faults -/

/-- An access of core 3 in the first context. -/
def acc3 (va : Nat) : Access := { ctx := ctxH, tag := 0, engine := 3, source := 0, kind := 0, va := va, rep := 0, since := none }

/-- A walk of die 0 for that access, from a root whose table stands in the window of host port 0: its first entry is the table again, and its second
a leaf. -/
def walking (va : Nat) : State :=
  { inHost ready 0 (leNat (leBytes 8 (2 ^ 63 + 0x40000000000) ++ leBytes 8 (2 ^ 63 + 3 * 2 ^ 61 + 2 ^ 59 + 0x40000000000))) with
    walks := [⟨0, acc3 va, none⟩]
    ctxs := [(0, { Ctx.reset with live := true, hw := some 0, root := 0x40000000000, fring := ready.handle 8 0 })], rings := [(fault8, aFault)] }

/-- Whether a walk ends in a leaf, in a fault, or not yet. -/
def walkEnds (s : State) (va : Nat) : Nat :=
  match (s.walkFrom (engineAgent 3) va 0x40000000000 4).2 with
  | .leaf _ _ => 1
  | .fault _ _ _ => 2
  | .busy _ _ => 3

theorem wit_FaultsAreServed_walk :
    (walking 0).walkPages 0 = [acc3 0] ∧ ((walking 0).ctxOf ctxH).map (fun c => (c.hw, c.root)) = some (some 0, 0x40000000000) ∧
    walkEnds (walking 0) 0 = 2 ∧ walkEnds (walking (2 ^ 36)) (2 ^ 36) = 1 ∧
    -- a home that serves another write of the table's line
    walkEnds { walking 0 with tx := [⟨0x40000000000 / 128, .iwr (.host 1) 0x40000000000 1 [], [1000], [], false⟩] } 0 = 3 := by decide +kernel

/-- A fault of that access. -/
def fault3 (recorded : Bool) : TFault :=
  { die := 0, acc := acc3 0, kind := 1, level := 4, entry := 0, time := 0, outstanding := true, recorded := recorded, seq := 1, joined := [] }

theorem wit_FaultsAreServed :
    (let s : State := { walking 0 with walks := [], faults := [fault3 false] }
     (s.faults.find? fun f => f.die = 0 && f.outstanding && !f.recorded && (s.faultRing f.acc.ctx).isSome) = some (fault3 false) ∧
       s.faultRing ctxH = some fault8) ∧
    (let s : State := { walking 0 with walks := [], faults := [fault3 true] }
     s.up = true ∧ s.ringAt 0 3 = some fault8 ∧ (s.ring fault8).kind = 5 ∧ (∀ v ∈ [1, 2 ^ 63 + 1], bits 62 32 v = 0 ∧
       s.replayed (s.handle 8 (fault8 % 65536)) (bits 31 0 v) (fault3 true) = true) ∧
       (s.firstLate 0 1).map (fun e => e.1) = some (fault3 true) ∧ (s.ctxOf ctxH).isSome = true) := by decide +kernel

end Sys2Proof.Tests
end

