-- ==== Sys2Proof/Tests/Sequencer.lean ====
section
/-! SUPPORT. Witnesses: states that meet the hypotheses of the statements on arrays, sequencers, movers and the debugger. -/

namespace Sys2Proof.Tests

set_option Elab.async false

open Sys2Proof Sys2Proof.Machine

/-- A vector in flight. -/
def vec : Vec := { cycle := 3, serial := 0, act := 0, asc := 0, hasAsc := false, afmt := 1, wfmt := 1, apiece := 0, n := 32, rows := 32, tail := 32, inj := none, toPs := false,
                   ofmt := 4, affine := false, ownCols := true, extent := 0xFFFFFFFF, fullcol := false, queue := 31, token := 7, last := true }

/-- The last array with a vector in flight. -/
def sVec : State := { runs ready 95 with arrays := [(383, { ArrayU.reset with vecs := [vec], gated := false })] }

theorem wit_ArraysStartAndPush :
    let idle : State := { ready with arrays := [(383, { ArrayU.reset with gated := false })] }
    let starts : State := { ready with arrays := [(47, { ArrayU.reset with starting := true, gated := true })] }
    (isArray 383 = true ∧ (idle.array 383).gated = false ∧ (idle.array 383).starting = false ∧ (idle.array 383).vecs = [] ∧ idle.ctr (oArrayState 383) = 0) ∧
    ((starts.array 47).starting = true ∧ (∀ j, j < 47 % 48 → (starts.array (48 * (47 / 48) + j)).starting = false) ∧ (Tbl.get (0, 0) starts.ramp (47 / 48)).2 ≤ 6) ∧
    (sVec.array 383).vecs = [vec] ∧ sVec.tileLate 95 = false := by decide +kernel

/-- A module whose fuses skip nothing of array 383. -/
def fused (s : State) : State := { s with obj := Tbl.set (Tbl.set s.obj (oFuseRows 383) (some 0xFFFF)) (oFuseCols 383) (some 0xFFFF) }

theorem wit_ArrayParityAndRepairs_parity : isArray 383 = true ∧ isRank 31 = true ∧ ((fused sVec).array 383).vecs = [vec] ∧
    (fused sVec).logicalOf false 383 31 = some 31 ∧ 31 < vec.rows ∧ (fused sVec).logicalOf true 383 0 = some 0 ∧
    vecColumn ((fused sVec).array 383).ops vec 0 = true ∧ ((fused sVec).core 95).shard = some shard ∧ shard.code = 0 := by decide +kernel

theorem wit_ArrayParityAndRepairs_request : (State.withSess ready (sessOn i3c 3)).Takes (who i3c) oRepairRequest (leBytes 4 (383 * 2 ^ 23 + 33 * 2 ^ 16)) (sessOn i3c 3) :=
  takes_of (admits_of (by decide +kernel)) (by decide +kernel)

/-- The answers of a repair request: queued; the core retired; the row skipped already; two taken already. -/
theorem wit_ArrayParityAndRepairs_queued : let v := 383 * 2 ^ 23 + 33 * 2 ^ 16
    let taken := fun (s : State) => s.skipped (v.testBit 22) (bits 31 23 v) ++
      ((s.array (bits 31 23 v)).wants.filter fun x => x.1 = v.testBit 22).map fun x => x.2
    let wanted := fun (l : List (Bool × Nat)) => ({ fused ready with arrays := [(383, { ArrayU.reset with wants := l })] } : State)
    ((fused ready).ctr (oCoreState (bits 31 23 v / 4)) ≠ 2 ∧ bits 21 16 v ∉ taken (fused ready) ∧ (taken (fused ready)).length < 2) ∧
      (set ready [(oCoreState 95, 2)]).ctr (oCoreState (bits 31 23 v / 4)) = 2 ∧
      bits 21 16 v ∈ taken (wanted [(false, 33)]) ∧
      (bits 21 16 v ∉ taken (wanted [(false, 1), (false, 2)]) ∧ 2 ≤ (taken (wanted [(false, 1), (false, 2)])).length) := by
  decide +kernel

theorem wit_ArrayParityAndRepairs_done : ∀ site ∈ [true, false],
    let s : State := { set ready [(oArrayState 383, 2)] with arrays := [(383, { ArrayU.reset with wants := [(true, 33)], spare := some (true, 33, site) })] }
    isArray 383 = true ∧ s.ctr (oArrayState 383) = 2 ∧ (s.array 383).spare = some (true, 33, site) := by decide +kernel

/-! ### Sequencers -/

/-- A queue table: Q0 DATA 1,024 B; Q1, Q2 DATA 128 B; Q3 DATA 512 B; Q4 DATA 32 B; Q8 DATA 64 B; Q5 TOKEN; Q6 ADDR. -/
def qtab : Tbl QDesc :=
  [(0, ⟨true, 0, 1024, 4, 0⟩), (1, ⟨true, 0, 128, 4, 4096⟩), (2, ⟨true, 0, 128, 4, 8192⟩), (3, ⟨true, 0, 512, 4, 12288⟩), (4, ⟨true, 0, 32, 4, 16384⟩),
   (5, ⟨true, 1, 32, 4, 0⟩), (6, ⟨true, 2, 256, 4, 20480⟩), (8, ⟨true, 0, 64, 4, 24576⟩)]

/-- An entry of zeros. -/
def zeros : Entry := ⟨0, 7, true, 0, 0⟩

/-- Core 95 at a control word, with an entry in each of its data queues. -/
def atWord (w : Nat) : State :=
  { runs ready 95 with
    obj := Tbl.set (runs ready 95).obj (oSeqState 95) (some 2)
    arrays := [(380, { ArrayU.reset with gated := false })]
    seqs := [(95, { Seq.reset with
      loaded := true, nwords := 1, words := [(0, w)], qdesc := qtab
      queues := [(0, ⟨[zeros, zeros], 0⟩), (1, ⟨[zeros], 0⟩), (3, ⟨[zeros], 0⟩), (4, ⟨[zeros], 0⟩)]
      gens := [(0, { Gen.reset with configured := true, dq := 0, run := 32, levels := 1, base := 0x2000, bounds := [64], strides := [32] })] })] }

/-- A STEP word: VEC to array 0, L8 by L8 to binary16, ACTQ 0, OUTQ 8. -/
def wStep : Nat := 2 ^ 175 + 2 ^ 168 + 2 ^ 149 + 2 ^ 145 + 4 * 2 ^ 141 + 8 * 2 ^ 103

theorem wit_StepsRepeatVectors :
    let s := atWord wStep
    let n := (s.seq 95).count.getD (if (s.curWord 95).testBit 239 then Tbl.get 0 (s.seq 95).ct (bits 242 240 (s.curWord 95)) else bits 251 240 (s.curWord 95) + 1)
    isCore 95 = true ∧ s.onClass 95 0 = true ∧ n = 1 ∧
    (match (s.setSeq 95 { s.seq 95 with count := some 1 }).drive 95 (s.curWord 95) (decide ((s.seq 95).rep = 0))
        (stepDrive (s.curWord 95) (s.seq 95).rep 1 (s.seq 95).gens) with
      | .issued _ _ got => got.length
      | _ => 0) = 1 ∧
    -- a word that takes a count of 0 from CT0
    (atWord (wStep + 2 ^ 239)).onClass 95 0 = true ∧ Tbl.get 0 ((atWord (wStep + 2 ^ 239)).seq 95).ct 0 = 0 := by decide +kernel

theorem wit_StepsRepeatVectors_vector : let d := stepDrive wStep 0 1 []
    d.vec = true ∧ d.arrays.testBit 0 = true ∧ d.loads = [] ∧ d.cps = [] := by decide +kernel

/-- An image of one word of zeros: VERSION 1, and no queue or generator. -/
theorem wit_ProgramsLoadAndWordsComplete :
    let s0 := runs ready 95
    let s : State := { s0 with
      host := Memory.putNum [] (hostKey 0 0x1000) 64 (1 + 2 ^ 16)
      cores := [(95, { CoreU.reset with shard := some { shard with recd := 0x1000 * 2 ^ 456 } })]
      obj := Tbl.set s0.obj (oSeqState 95) (some 1), seqs := [(95, { Seq.reset with loading := true })] }
    isCore 95 = true ∧ (s.seq 95).loading = true ∧ s.running 95 = true ∧ s.seqState 95 = 1 ∧
    (match s.imageRead 95 { shard with recd := 0x1000 * 2 ^ 456 } 64 with
      | (u, .data head false) =>
        (match u.imageRead 95 { shard with recd := 0x1000 * 2 ^ 456 } (832 + 32 * bits 31 16 head) with
          | (_, .data img false) => (headFault head, tableFault img)
          | _ => (1, 1))
      | _ => (1, 1)) = (0, 0) := by decide +kernel

/-- A TILE word: M 1, K 32, N 1, array 0, L8 by L8 to binary16, ACTQ 0, WQ 0, PSQ 9, OUTQ 8. -/
def wTile : Nat := 2 ^ 252 + 2 ^ 160 + 31 * 2 ^ 140 + 2 ^ 88 + 2 ^ 84 + 2 ^ 80 + 4 * 2 ^ 76 + 2 ^ 72 + 9 * 2 ^ 45 + 8 * 2 ^ 40

theorem wit_TileRuns :
    let s := atWord wTile
    let f := s.foldTile 95 wTile
    isCore 95 = true ∧ s.onClass 95 1 = true ∧ (s.seq 95).tile = none ∧ f.n ≠ 0 ∧ f.single = true ∧
    (∀ a ∈ f.named, s.pairOn 95 a (bits 87 84 wTile) (bits 83 80 wTile) (bits 75 74 wTile) = f.n) := by decide +kernel

/-- The tile with its one weight set loaded, which its one vector swaps in. -/
def pTile : Tile := { Tile.reset with word := wTile, sets := 1 }
def sTile : State := { atWord wTile with seqs := [(95, { (atWord wTile).seq 95 with tile := some pTile })] }

theorem wit_TileRuns_issue :
    let f := sTile.foldTile 95 wTile
    let v := withVector f pTile (tileDrive wTile f pTile (sTile.seq 95).gens)
    let d := withLoads f pTile (sTile.tileLoads 95 f pTile v) v
    sTile.onClass 95 1 = true ∧ (sTile.seq 95).tile = some pTile ∧ f.finished pTile = false ∧ sTile.tileReady 95 wTile f pTile = true ∧
    ((decide (pTile.sets < pTile.swapped) || (v.swap && decide (pTile.sets = f.setNo pTile))) && d.loads.isEmpty) = false ∧
    sTile.sumsHeld 95 wTile f pTile = false ∧
    (match sTile.drive 95 wTile (!pTile.awaited.testBit 32) d with
      | .issued _ _ _ => true
      | _ => false) = true := by decide +kernel

/-- The tile whose weight set is not loaded yet: with and without the entries of its rows in the queue. -/
def sLoad (wq : Queue) : State :=
  { atWord wTile with seqs := [(95, { (atWord wTile).seq 95 with
      tile := some Tile.reset, queues := Tbl.set ((atWord wTile).seq 95).queues (bits 64 60 wTile) wq })] }

theorem wit_TileRuns_load : ∀ n ∈ [0, 32],
    let s := sLoad ⟨List.replicate n zeros, 0⟩
    let f := s.foldTile 95 wTile
    let d := tileDrive wTile f Tile.reset (s.seq 95).gens
    let alone := withLoads f Tile.reset (s.tileLoads 95 f Tile.reset d) d
    s.onClass 95 1 = true ∧ (s.seq 95).tile = some Tile.reset ∧ f.finished Tile.reset = false ∧ s.tileReady 95 wTile f Tile.reset = false ∧
    (alone.loads = [] ↔ n = 0) ∧
    (n = 32 → (match s.drive 95 wTile (!Tile.reset.awaited.testBit 32) alone with
      | .issued _ _ _ => true
      | _ => false) = true) := by decide +kernel

/-- PARAM words: column parameters of array 0 from Q1, a table from Q4, zero points from Q4. -/
def wParam (kind q : Nat) : Nat := 2 * 2 ^ 252 + kind * 2 ^ 173 + 2 ^ 169 + q * 2 ^ 164

def issues (s : State) (k : Nat) (n : Need) : Bool :=
  match s.tryIssue k (s.curWord k) true n with
  | .issued _ _ _ => true
  | _ => false

theorem wit_ControlWordsAct_param : ∀ p ∈ [(0, 1), (1, 4), (2, 4), (3, 4)], let s := atWord (wParam p.1 p.2)
    s.onClass 95 2 = true ∧ bits 175 173 (s.curWord 95) = p.1 ∧ issues s 95 (paramNeed (s.curWord 95)) = true := by decide +kernel

theorem wit_ControlWordsAct_scalar : (let s := atWord (3 * 2 ^ 252 + 7 * 2 ^ 173); s.onClass 95 3 = true ∧ issues s 95 Need.empty = true ∧
      ((s.seq 95).streams.any fun e => e.1 = bits 175 173 (s.curWord 95)) = false) ∧
    (∀ op ∈ [0, 1, 2], let s := atWord (4 * 2 ^ 252 + op * 2 ^ 173); s.onClass 95 4 = true ∧ bits 175 173 (s.curWord 95) = op ∧ issues s 95 Need.empty = true) ∧
    (∀ op ∈ [1, 2], let s := atWord (5 * 2 ^ 252 + op * 2 ^ 174 + 0x2000 * 2 ^ 112 + 1 * 2 ^ 80); s.onClass 95 5 = true ∧ isSync (s.curWord 95) op = true ∧
      (s.seq 95).waiting = false ∧ s.sigPeer ctxH 0x2000 = false ∧ s.sigReached ctxH 0x2000 1 = false ∧ issues s 95 Need.empty = true) ∧
    (let s := atWord (15 * 2 ^ 252); s.onClass 95 15 = true ∧ issues s 95 Need.empty = true) := by decide +kernel

/-- SYNC CHORD of a member that has arrived for the round. -/
def sChord : State :=
  let s := atWord (5 * 2 ^ 252 + 63 * 2 ^ 168)
  { s with obj := Tbl.set (Tbl.set (Tbl.set s.obj (oMembers 63) (some (2 ^ 95 + 1))) (oOwner 63) (some 0)) (oArrived 63) (some (2 ^ 95)) }

theorem wit_ControlWordsAct_chord : isSync (sChord.curWord 95) 0 = true ∧ syncChordOf (sChord.curWord 95) = 63 ∧ sChord.onClass 95 5 = true ∧ (sChord.seq 95).waiting = false ∧
    (sChord.ctr (oMembers 63)).testBit 95 = true ∧ sChord.objD 0xFF (oOwner 63) = sChord.corePart 95 ∧ sChord.ctr (oChordState 63) ≠ 3 ∧
    sChord.arrivalFor 63 95 = some true ∧ issues sChord 95 Need.empty = true := by decide +kernel

/-- SYNC words that wait, released and not. -/
theorem wit_ControlWordsAct_waiting : ∀ op ∈ [0, 1], ∀ r ∈ [true, false],
    let s0 := atWord (5 * 2 ^ 252 + op * 2 ^ 174 + 0x2000 * 2 ^ 112 + 1 * 2 ^ 80)
    let s : State := { s0 with seqs := [(95, { s0.seq 95 with waiting := true, released := r })] }
    (s.seq 95).waiting = true ∧ s.onClass 95 5 = true ∧ isSync (s.curWord 95) op = true ∧ (s.seq 95).released = r := by decide +kernel

/-! ### Movers -/

/-- Core 95 with a stream of its first generator. -/
def streams (store : Bool) (st : Stream) : State :=
  let s := atWord 0
  { s with seqs := [(95, { s.seq 95 with
      streams := [(7, st)]
      gens := [(7, { Gen.reset with configured := true, store := store, dq := 4, run := 32, levels := 1, base := 0x2000, bounds := [64], strides := [32] })] })] }
def st0 : Stream := { Stream.reset with base := some 0x2000, stamp := some 9 }

theorem wit_MoversMoveEntries_load : let s := streams false st0
    isGen 7 = true ∧ s.stream 95 7 = some st0 ∧ (s.core 95).shard = some shard ∧ s.movers 95 = true ∧ (s.gen_ 95 7).store = false ∧
    st0.partEntry < (s.qdesc 95 (s.gen_ 95 7).dq).width ∧ st0.finished = false ∧ s.streamBase 95 7 st0 = (s, .ok (some (st0, 0x2000))) ∧
    (s.gen_ 95 7).addr 0x2000 st0.pos % 32 = 0 ∧
    (match s.unitRead (.mover 95 7) (moverAccess shard 95 7 0 ((s.gen_ 95 7).addr 0x2000 st0.pos)) 32 shard.ring shard.aseq with
      | (u, .data _ false) => decide (u.seqs = s.seqs)
      | _ => false) = true ∧
    (s.queue 95 4).occ < (s.qdesc 95 4).depth := by decide +kernel

/-- An INDIRECT stream takes the next address record, and from there its base. -/
theorem wit_MoversMoveEntries_indirect :
    let x : Gen := { Gen.reset with configured := true, indirect := true, dq := 4, aq := 6, run := 32, levels := 1, bounds := [64], strides := [32] }
    let s0 := streams false { st0 with base := none, recs := [] }
    let s : State := { s0 with seqs := [(95, { s0.seq 95 with gens := [(7, x)], queues := [(6, ⟨[{ zeros with data := 0x2000 + 2 ^ 62 + 2 ^ 63 }], 0⟩)] })] }
    (match s.streamBase 95 7 { st0 with base := none, recs := [] } with
      | (_, .ok (some (_, b))) => decide (x.addr b 0 % 32 = 0)
      | _ => false) = true := by decide +kernel

/-- A STORE stream at an entry, and at the rest of one. -/
theorem wit_MoversMoveEntries_store : ∀ rest ∈ [0, 32], let st : Stream := { st0 with partEntry := rest, partData := 0 }
    let s := streams true st
    let data := if rest = 0 then zeros.data else 0
    (s.gen_ 95 7).store = true ∧ s.stream 95 7 = some st ∧ s.movers 95 = true ∧ st.finished = false ∧
    s.streamBase 95 7 st = (s, .ok (some (st, 0x2000))) ∧ (s.queue 95 (s.gen_ 95 7).dq).entries = [zeros] ∧
    (match (if rest = 0 then s.setQueue 95 4 { s.queue 95 4 with entries := (s.queue 95 4).entries.drop 1 } else s).unitWrite (.mover 95 7)
        (moverAccess shard 95 7 1 ((s.gen_ 95 7).addr 0x2000 st0.pos)) 32 (data % 2 ^ (8 * 32)) shard.ring shard.aseq with
      | (_, .data _ _) => true
      | _ => false) = true := by decide +kernel

theorem wit_MoversMoveEntries_ends :
    (let st : Stream := { st0 with finished := true }
     (streams false st).streamOver 95 7 st shard = true) ∧
    (let s := atWord 0
     let t : State := { s with seqs := [(95, { s.seq 95 with emits := [⟨0, 5, 200⟩] })] }
     t.running 95 = true ∧ t.seqState 95 ≠ 4 ∧ t.readyEmit 95 = some ⟨0, 5, 200⟩) := by decide +kernel

/-! ### Halts -/

def sL2 (s : State) : State := State.withSess s (sessOn i3c 3)
def halted (s : State) : State := { s with obj := Tbl.set s.obj (oSeqState 95) (some 3) }

theorem wit_CoresHaltAndResume_halt : (sL2 (atWord 0)).Takes (who i3c) (oHaltReq 95) [1] (sessOn i3c 3) ∧ (sL2 (atWord 0)).seqState 95 = 2 :=
  ⟨takes_of (admits_of (by decide +kernel)) (by decide +kernel), by decide +kernel⟩

theorem wit_CoresHaltAndResume_resume : ∀ n ∈ [0, 1, 65535], (sL2 (halted (atWord 0))).Takes (who i3c) (oResume 95) (leBytes 2 n) (sessOn i3c 3) := by
  intro n h
  rcases (by simpa using h : n = 0 ∨ n = 1 ∨ n = 65535) with rfl | rfl | rfl <;> exact takes_of (admits_of (by decide +kernel)) (by decide +kernel)

/-- What RESUME meets: a halt, a breakpoint at which the shard has not begun, HELD; and the end of a counted run. -/
theorem wit_CoresHaltAndResume_state : let s := sL2 (halted (atWord 0))
    (s.seqState 95 = 3 ∧ (s.core 95).shard = some shard ∧ shard.begun = true ∧ (s.seq 95).ended = false) ∧
    (let t : State := { s with cores := [(95, { CoreU.reset with shard := some { shard with begun := false } })] }
     (∀ n ∈ [0, 1, 65535], takesB t (oResume 95) (leBytes 2 n) 3 = true) ∧ t.seqState 95 = 3 ∧
       (t.core 95).shard = some { shard with begun := false } ∧ (t.ctxOf ctxH).any (fun x => x.error) = false) ∧
    (let t := sL2 (set (atWord 0) [(oSeqState 95, 4)])
     (∀ n ∈ [0, 1, 65535], takesB t (oResume 95) (leBytes 2 n) 3 = true) ∧ t.seqState 95 = 4 ∧ (t.core 95).shard = some shard ∧ shard.code = 0) ∧
    (let t : State := { atWord 0 with seqs := [(95, { (atWord 0).seq 95 with stepLeft := some 0 })] }
     t.seqState 95 = 2 ∧ (t.seq 95).stepLeft = some 0 ∧ (t.seq 95).ended = false) := by decide +kernel

/-- A halt request while the image is loaded, and on a core that is idle. -/
theorem wit_CoresHaltAndResume_haltNext : ∀ n ∈ [0, 1], takesB (set (atWord 0) [(oSeqState 95, n)]) (oHaltReq 95) [1] 3 = true ∧
    (set (atWord 0) [(oSeqState 95, n)]).seqState 95 = n := by decide +kernel

theorem wit_CoresHaltAndResume_groups : ∀ n ∈ [0, 1, 2], (sL2 (runs ready 95)).Takes (who i3c) (oThrHalt 95) [BitVec.ofNat 8 n] (sessOn i3c 3) := by
  intro n h
  rcases (by simpa using h : n = 0 ∨ n = 1 ∨ n = 2) with rfl | rfl | rfl <;> exact takes_of (admits_of (by decide +kernel)) (by decide +kernel)

/-- A halted core whose group 0 is live. -/
def sStep : State := let s := sL2 (runs ready 95)
  { s with obj := Tbl.set s.obj (oThrHalt 95) (some 1), groups := [(64 * 95, { Group.reset with live := true, nregs := 8 })] }

theorem wit_CoresHaltAndResume_step : sStep.Takes (who i3c) (oThrStep 95) [1] (sessOn i3c 3) ∧ sStep.thrHalt 95 ≠ 0 ∧
    (sStep.group 95 (sStep.ctr (oGrpSel 95))).live = true :=
  ⟨takes_of (admits_of (by decide +kernel)) (by decide +kernel), by decide +kernel⟩

end Sys2Proof.Tests
end

