-- ==== Sys2Proof/Tests/Slice0.lean ====
section
/-! SUPPORT. A smoke test of well-formedness: for each check a command that names a unit just past the last one, which the check refuses and by which
`exec` changes nothing; and a few values of the spec's tables. -/

namespace Sys2Proof.Tests

set_option Elab.async false

open Sys2Proof Sys2Proof.Machine

/-- An outcome is the state that the command found. -/
def idle : Res → Bool
  | .next t => decide (t = ready)
  | _ => false

/-- The check refuses each command, and none changes anything. -/
def illFormed (l : List Instr) : Bool := l.all fun c => !c.wf && idle (exec c ready)

theorem test_cores : illFormed [.programLoaded 96, .ifetchMiss 96 0, .ifetchMiss 95 64, .moverReadReturn 96 0, .moverReadReturn 95 8] = true := by
  decide +kernel

theorem test_arrays : illFormed [.arrayClockGate 384, .arrayParityError 384 0 0, .arrayParityError 383 34 0, .arrayParityError 383 0 34] = true := by
  decide +kernel

theorem test_functions : illFormed [.mbxDoorbell 32 0, .hostConfigReady 2] = true := by decide +kernel

theorem test_agents : illFormed [.rds (.core 96) 0 15 false, .rds (.mover 96 0) 0 15 false, .rds (.mover 95 8) 0 15 false, .rds (.copyEngine 32) 0 15 false,
    .rds (.link 48) 0 15 false, .rds (.host 2) 0 15 false] = true := by decide +kernel

theorem test_caches : illFormed [.cacheDrained (.l1d 96), .cacheDrained (.l1i 96), .cacheDrained (.slice 8 0), .cacheDrained (.slice 7 6)] = true := by decide +kernel

theorem test_buckets : illFormed [.bucketAdmit (.slice 16 0 0), .bucketAdmit (.slice 15 8 0), .bucketAdmit (.slice 15 7 6), .bucketAdmit (.lattice 16 0),
    .bucketAdmit (.lattice 15 8)] = true := by decide +kernel

theorem test_dies : illFormed [.waymaskReclaimDone 8, .siteEvent 8 0 ⟨.corrected, 0⟩, .siteEvent 7 409 ⟨.corrected, 0⟩] = true := by
  decide +kernel

theorem test_channels : illFormed [.channelClearDone 1536] = true := by decide +kernel

theorem test_engines : illFormed [.copyComplete 32, .runTimeout 96, .runTimeout 255, .runTimeout 288, .staleClearDone 96 true, .staleClearDone 0xFF true, .staleClearDone 0x120 true,
    .staleClearDone 0x1180 true] = true := by decide +kernel

theorem test_links : illFormed [.linkTrainingStart 48, .marginSample (.lane 48 0 0), .marginSample (.lane 47 8 0)] = true := by decide +kernel

theorem test_clusters : illFormed [.startComplete [48], .startTimeout (some 8), .pointSettled 24, .marginSample (.timing 24 0 0 0), .marginSample (.sram 96 0)] = true := by decide +kernel

/-- The commands that spell a WRITE of a unit's object: the check refuses each, and exec answers it as that WRITE. -/
theorem test_writes : ([.haltReq (who i3c) 96 1, .watchCfg (who i3c) 384 0, .waymask (who i3c) 8 [], .waymask (who i3c) 7 [(16, 0)],
    .chanOwner (who i3c) [(1536, 0)], .teardown (who i3c) 16 1, .coreMask (who i3c) [(16, 0)], .credKey (who i3c) 16 [], .mgmtArrive (who i3c) 64 0] : List Instr).all
      (fun c => !c.wf) = true := by decide +kernel

/-- The last unit of each kind is one: nothing above is refused by a bound that is too low. -/
theorem test_lastUnits : ([.programLoaded 95, .ifetchMiss 95 63, .moverReadReturn 95 7, .arrayParityError 383 33 33, .mbxDoorbell 31 0, .hostConfigReady 1,
    .rds (.link 47) 0 15 false, .rds (.copyEngine 31) 0 15 false, .cacheDrained (.slice 7 5), .bucketAdmit (.slice 15 7 5), .siteEvent 7 408 ⟨.corrected, 0⟩, .channelClearDone 1535,
    .runTimeout 287, .staleClearDone 0x117F true, .linkTrainingStart 47, .pointSettled 23, .mgmtArrive (who i3c) 63 0] : List Instr).all Instr.wf = true := by decide +kernel

/-- The largest codes of L8 and L4 (R60, R61). -/
theorem wit_LCodesHaveTheirValues : decodeFmt 1 127 = .fin false 0xEAC1 (-8) ∧ decodeFmt 0 7 = .fin false 0xB505 (-14) ∧ lOperand 0 7 = lOperand 1 76 := by decide +kernel

/-- The last function, die and core that the statement on reset speaks of. -/
theorem wit_ResetValues : isFn 31 = true ∧ isDie 7 = true ∧ isCore 95 = true := by decide

end Sys2Proof.Tests
end

