-- ==== Sys2Proof/Tests/Threads.lean ====
section
/-! SUPPORT. Witnesses and tests: states that meet the hypotheses of the statements on thread groups, and single instructions. -/

namespace Sys2Proof.Tests

set_option Elab.async false

open Sys2Proof Sys2Proof.Machine

/-- Group 63 of core 95, with lane 31 active: X2 and X3 hold 0x2000, X4 holds 3, X5 holds 0, X6 holds 64. -/
def grp : Group :=
  { Group.reset with
    live := true, pc := 0x1000, active := 2 ^ 31, nregs := 16
    regs := [(256 * 31 + 2, 0x2000), (256 * 31 + 4, 3), (256 * 31 + 6, 64)] }
def withGroup (s : State) (x : Group) : State :=
  { s with groups := [(64 * 95 + 63, x)], blocks := [(16 * 95, { Block.reset with live := true, groups := [63], size := 4096 })] }
def sG : State := withGroup (runs ready 95) grp
/-- The same with the context's pages in octant 0. -/
def sO : State := { sG with tlbs := [⟨95, 0, 3, 0, 2 ^ 63 + 3 * 2 ^ 61, 0⟩] }

/-- A payload of form R: DST, SRCA, SRCB, SRCC, RND, MOD. -/
def formR (d a b c rnd m : Nat) : Nat := d * 2 ^ 36 + a * 2 ^ 28 + b * 2 ^ 20 + c * 2 ^ 12 + rnd * 2 ^ 8 + m
/-- An instruction without a predicate. -/
def ti (cls op payload : Nat) : TInstr :=
  { cls := BitVec.ofNat 4 cls, op := BitVec.ofNat 8 op, pen := false, psel := 0, pneg := false, immb := false, rsv := 0, payload := BitVec.ofNat 44 payload }

/-- The state whose group 63 of core 95 has an instruction before it, served without the L1 instruction cache. -/
def fetches (s : State) (i : TInstr) : State :=
  s.setGroup 95 63 { s.group 95 63 with ibuf := some ((s.group 95 63).fetchVa, instrWord i) }

/-- The checks of `State.Ready`. -/
def readyB (s : State) (i : TInstr) (fm : OpForm) : Bool :=
  let u := fetches s i
  isCore 95 && isGroup 63 && u.mayIssue 95 63 i && !(u.group 95 63).awaits fm.regs &&
    (match (u.group 95 63).lock with
     | none => true
     | some l => decide (l.count < 64) && fm.inLock) && fm.legal i && decide ((u.group 95 63).regsCode fm.regs = 0)

theorem ready_of_b {s : State} {i : TInstr} {fm : OpForm} (h : readyB s i fm = true) : (fetches s i).Ready 95 63 i fm := by
  simp only [readyB, Bool.and_eq_true, Bool.not_eq_true', decide_eq_true_eq] at h
  obtain ⟨⟨⟨⟨⟨⟨h1, h2⟩, h3⟩, h4⟩, h5⟩, h6⟩, h7⟩ := h
  exact ready_of ⟨h1, h2, h3, h4, h5, h6, h7⟩

/-- What a whole list of instructions and their forms meets. -/
def allReady (s : State) (l : List (TInstr × OpForm)) : Bool := l.all fun p => readyB s p.1 p.2

/-- The same of an instruction in the L1 instruction cache, fetched through a cacheable page. -/
theorem wit_IssueAdvances_cached : let i := ti 0 0 (formR 8 2 4 0 0 0)
    let s : State := { sG with
      tlbs := [⟨95, 0, 3, 0, 2 ^ 63 + 3 * 2 ^ 61 + 2 ^ 58, 0⟩], l1i := [(128 * 95 + 32, [⟨32, 0, 1, 1, 0, 0, instrWord i⟩])] }
    (s.group 95 63).ibuf = none ∧ s.mayIssue 95 63 i = true := by decide +kernel

theorem wit_IssueAdvances : (sG.group 95 63).live = true ∧ (sG.group 95 63).active ≠ 0 ∧ (sG.group 95 63).stack = [] ∧
    ((withGroup (runs ready 95) { grp with active := 0 }).group 95 63).active = 0 := by decide +kernel

theorem wit_IntRowsCompute : allReady sG
    (([0x00, 0x01, 0x08, 0x09, 0x0A, 0x0B, 0x10, 0x11, 0x12, 0x18, 0x19, 0x1A, 0x1B].flatMap fun op =>
        [(ti 0 op (formR 7 2 4 0 0 0), intForm (ti 0 op (formR 7 2 4 0 0 0)) op true),
         (ti 0 (op + 0x40) (formR 8 2 4 0 0 0), intForm (ti 0 (op + 0x40) (formR 8 2 4 0 0 0)) op true)]) ++
     ([0x02, 0x03, 0x04].map fun op => (ti 0 op (formR 7 2 4 0 0 0), intForm (ti 0 op (formR 7 2 4 0 0 0)) op false)) ++
     [(ti 0 0x20 (formR 7 2 4 0 0 7), { keys := [0x20], imm := false, modMask := 7, ok := true, regs := [(7, 1), (2, 1), (4, 1)], inLock := true })] ++
     ([0x28, 0x2D, 0x68, 0x6D].map fun op =>
        (ti 0 op (formR 6 2 4 0 0 0), setpForm (ti 0 op (formR 6 2 4 0 0 0)) [0x28, 0x29, 0x2A, 0x2B, 0x2C, 0x2D]))) = true := by decide +kernel

theorem wit_FloatRowsCompute : allReady sG
    (([(0, [2, 4]), (1, [2, 4]), (2, [2, 4]), (3, [2, 4, 6]), (4, [2, 4]), (5, [2, 4]), (6, [2, 4]), (7, [2])].flatMap fun p =>
        [0, 0x20].map fun m => (ti 1 (p.1 + m) (formR 8 2 4 6 5 0), fpForm (ti 1 (p.1 + m) (formR 8 2 4 6 5 0)) [p.1] p.2 false)) ++
     ([(0, [2, 4]), (1, [2, 4]), (2, [2, 4]), (3, [2, 4, 6]), (4, [2, 4]), (5, [2, 4]), (6, [2, 4]), (7, [2])].map fun p =>
        (ti 2 p.1 (formR 8 2 4 6 0 0), fpForm (ti 2 p.1 (formR 8 2 4 6 0 0)) [p.1] p.2 false)) ++
     [(ti 1 0xD (formR 6 2 4 0 0 0), fpForm (ti 1 0xD (formR 6 2 4 0 0 0)) [8, 9, 0xA, 0xB, 0xC, 0xD] [2, 4] true)] ++
     ([0x06, 0x60, 0xA6, 0x6A, 0x14, 0x41].map fun op =>
        (ti 3 op (formR 8 2 0 0 0 0),
          { keys := [0x300 + op], imm := false, modMask := 0x3F, ok := true, regs := [(8, cvtRegs (op / 16)), (2, cvtRegs (op % 16))], inLock := true })) ++
     ([0, 1, 2, 3].map fun op =>
        (ti 4 op (formR 8 2 0 0 0 0), { keys := [0x400 + op], imm := false, modMask := 0, ok := true, regs := [(8, 1), (2, 1)], inLock := false }))) = true := by
  decide +kernel

theorem wit_MoveRowsAct : allReady sG
    ([(ti 5 0 (8 * 2 ^ 36 + 0xFFFFFFFF), moveForm 0 false 0xFF true [(8, 1)]), (ti 5 1 (formR 8 2 0 0 0 0), moveForm 1 false 0 true [(8, 1), (2, 1)])] ++
     ([8, 9, 10, 11].map fun op => (ti 5 op (formR 8 2 4 0 0 0), moveForm op true 0 true [(8, 1), (2, 1), (4, 1)])) ++
     ([0x10, 0x11].map fun op => (ti 5 op (formR 6 0 0 0 0 7), moveForm op false 7 true [])) ++
     [(ti 5 0x12 (formR 8 0 0 0 0 7), moveForm 0x12 false 7 true [(8, 1)])] ++
     ([0x18, 0x19, 0x1A, 0x1B].map fun op => (ti 5 op (formR 6 7 0 0 0 0), moveForm op false 0 true [])) ++
     ((List.range 7).map fun a => (ti 5 0x20 (formR 8 a 0 0 0 0), moveForm 0x20 false 0 true [(8, if a = 5 ∨ a = 6 then 2 else 1)])) ++
     [({ ti 13 0 (5 * 2 ^ 8) with immb := true }, envForm { ti 13 0 (5 * 2 ^ 8) with immb := true } 0 true true []),
      (ti 13 1 (formR 8 0 0 0 0 0), envForm (ti 13 1 (formR 8 0 0 0 0 0)) 1 false true [(8, 1)]), (ti 13 2 0, envForm (ti 13 2 0) 2 false true [])]) = true ∧
    grp.execLanes (ti 13 0 0) = [31] := by decide +kernel

/-! ### Branches and blocks -/

/-- Two active lanes, one of which a predicate selects. -/
def twoLanes (stack : List SEnt) : Group := { grp with active := 3, preds := [(1, 1)], stack := stack }
def onP0 (i : TInstr) : TInstr := { i with pen := true, psel := 0 }
def deep (n : Nat) : List SEnt := List.replicate n ⟨0x3000, 3, 2⟩

/-- The form of an arrival instruction. -/
def arr (op : Nat) : OpForm := { keys := [0x700 + op], imm := true, modMask := 0xF, ok := true, regs := [(4, 1)], inLock := false }

/-- Branches in all lanes, in none, and in one of two. -/
theorem wit_BranchesSteer :
    (allReady sG ([0, 1, 2, 3, 4].map fun op => (ti 10 op 0, branchForm (ti 10 op 0) op)) = true ∧ maskOf (grp.execLanes (ti 10 0 0)) = grp.active ∧
      grp.active ≠ 0) ∧
    (allReady sG ([0, 1, 2, 3].map fun op => (onP0 (ti 10 op 0), branchForm (onP0 (ti 10 op 0)) op)) = true ∧ maskOf (grp.execLanes (onP0 (ti 10 0 0))) = 0) ∧
    (∀ n ∈ [0, 30, 31], let s := withGroup (runs ready 95) (twoLanes (deep n))
      allReady s ([0, 1, 2, 3].map fun op => (onP0 (ti 10 op 0), branchForm (onP0 (ti 10 op 0)) op)) = true ∧
      maskOf ((twoLanes (deep n)).execLanes (onP0 (ti 10 1 0))) = 2) ∧
    (∀ n ∈ [31, 32], let s := withGroup (runs ready 95) { grp with stack := deep n }
      readyB s (ti 10 2 0) (branchForm (ti 10 2 0) 2) = true ∧ readyB s (ti 10 3 0) (branchForm (ti 10 3 0) 3) = true) ∧
    readyB (withGroup (runs ready 95) { grp with stack := [⟨0x3000, 2 ^ 31, 0⟩] }) (ti 10 3 0) (branchForm (ti 10 3 0) 3) = true ∧
    (let o : LoadOp := { dst := 8, width := 4, lanes := [(31, 0x2000)], policy := 2, order := 0, vals := none }
     readyB (withGroup (runs ready 95) { grp with loads := [o] }) (ti 10 4 0) (branchForm (ti 10 4 0) 4) = true) ∧
    allReady sG ([8, 9, 10].map fun op => (ti 7 op (formR 0 0 4 0 0 15), arr op)) = true ∧
    allReady sG ([8, 9, 10].map fun op => (onP0 (ti 7 op (formR 0 0 4 0 0 15)), arr op)) = true ∧
    grp.execLanes (onP0 (ti 7 8 0)) = [] ∧
    -- X4 holds 3: an arrival counter of 3 is enough, and one of 0 is not
    (∀ e ∈ [(3, 0), (0, 2 ^ 32 - 3)], (e.1 + 2 ^ 32 - 3 % 2 ^ 32) % 2 ^ 32 = e.2) := by decide +kernel

/-- A launch of one block of four groups of 16 registers and 4 KiB at 0x2000. -/
def launch : Shard := { shard with recd := 0x2000 * 2 ^ 392 + 1 * 2 ^ 304 + 4 * 2 ^ 281 + 16 * 2 ^ 273 + 2 ^ 263 }

theorem wit_BlocksArePlaced_place :
    let s : State := { runs ready 95 with cores := [(95, { CoreU.reset with shard := some launch })] }
    isCore 95 = true ∧ (s.core 95).shard = some launch ∧ s.canPlace 95 launch = true ∧ bits 287 281 launch.recd = 4 := by decide +kernel

/-- The fetch of a missing line through a cacheable page, and of a word through one that is not. -/
theorem wit_BlocksArePlaced_fetch : ∀ leaf ∈ [2 ^ 63 + 3 * 2 ^ 61 + 2 ^ 58, 2 ^ 63 + 3 * 2 ^ 61 + 2 ^ 59 + 0x40000000000],
    let s : State := { sG with tlbs := [⟨95, 0, 3, 0, leaf, 0⟩] }
    let a : Access := { ctx := shard.ctx, tag := shard.tag, engine := 95, source := 63, kind := 3, va := twos 56 (s.group 95 63).pc, rep := 0, since := none }
    isGroup 63 = true ∧ (s.core 95).shard = some shard ∧ s.running 95 = true ∧ (s.group 95 63).live = true ∧ s.fetched 95 63 = none ∧
    (match s.translate a with
      | (u, some (.mem pa true)) => u.l1On true 95 && (u.l1Find true 95 (pa / 128)).isNone && u.lattice.isEmpty
      | (u, some (.mem pa false)) => !u.rangeBusy pa 8 && (u.letIn (.core 95) pa 8 false).2
      | _ => false) = true := by decide +kernel

/-! ### Memory, atomics, locks -/

/-- Loads and stores of 4 bytes at X2, with a policy and no order. -/
def mPol (op pol : Nat) : TInstr := ti 6 op (8 * 2 ^ 36 + 2 * 2 ^ 28 + 2 + 8 * pol)
/-- The same with the streaming policy. -/
def mMem (op : Nat) : TInstr := mPol op 2
/-- Block loads and stores of 4 bytes at X6. -/
def mBlk (op : Nat) : TInstr := ti 6 op (8 * 2 ^ 36 + 6 * 2 ^ 28 + 2)
def lanes0 : List (Nat × Nat) := [(31, 0x2000)]

/-- Whether the targets of a translated access pass a check. -/
def targets (s : State) (kind : Nat) (ok : State → Nat → Bool → Bool) : Bool :=
  match s.laneTargets shard 95 63 kind lanes0 with
  | (u, some ts) => (u.peersReady shard.ctx ts).isNone && ts.all fun p => match p.2.2 with
      | .mem pa c => ok u pa c
      | _ => false
  | _ => false

/-- Loads, and stores that go to their home. -/
theorem wit_MemoryRowsAct : ∀ op ∈ [0, 1], let s := fetches sG (mMem op)
    (s.core 95).shard = some shard ∧ grp.execLanes (mMem op) = [31] ∧ s.acquiring 95 63 = false ∧
    readyB sG (mMem op) (memForm (mMem op) op 2 true) = true ∧
    laneAddrs [31] (fun ln => grp.addr ln 2 (fImm (mMem op)) 4) = some lanes0 ∧ s.tracks 95 1 = true ∧ s.fenced 95 63 0 = true ∧
    s.clash 95 63 0x2000 = false ∧ targets s op (fun u pa _ => !u.coreWrites 95 (pa / 128)) = true ∧ memPolicy (mMem op) = 2 := by decide +kernel

theorem wit_MemoryRowsAct_block :
    (match laneOffs [31] (fun ln => blockOff (grp.reg ln 6) 0 4 4 4096) with
      | .ok os => os == [(31, 64)]
      | _ => false) = true ∧
    readyB sG (mBlk 2) (memForm (mBlk 2) 2 1 false) = true ∧ readyB sG (mBlk 3) (memForm (mBlk 3) 3 1 false) = true ∧
    sG.fenced 95 63 (memOrder (mBlk 3)) = true := by decide +kernel

/-- The same with the context's pages in octant 0, cacheable; line 64 as the core's L1 data cache holds it. -/
def sC (l : List L1Line) : State := { sG with tlbs := [⟨95, 0, 3, 0, 2 ^ 63 + 3 * 2 ^ 61 + 2 ^ 58, 0⟩], l1d := [(256 * 95 + 64, l)] }

/-- A store to a line that the core does not hold, and to one that it holds unique. -/
theorem wit_MemoryRowsAct_cached : ∀ l ∈ [[], [(⟨64, 0, 2, 15, 0, 0, 0⟩ : L1Line)]], let s := fetches (sC l) (mPol 1 0)
    readyB (sC l) (mPol 1 0) (memForm (mPol 1 0) 1 2 true) = true ∧ memPolicy (mPol 1 0) ≠ 2 ∧ s.l1On false 95 = true ∧ s.clash 95 63 0x2000 = false ∧
    targets s 1 (fun u pa c => c && !u.homeWrites 95 (pa / 128) && decide (u.l1Find false 95 (pa / 128) = l.head?) && u.l1On false 95 &&
      (u.core 95).stores.isEmpty) = true := by decide +kernel

/-- In a locked sequence of the line of 0x2000. -/
def sHeld : State := withGroup (runs ready 95) { grp with lock := some { line := 0x40000002000 / 512, pd := 6, fail := 0x4000, lanes := 2 ^ 31, active := 2 ^ 31,
                                                                         stack := [], count := 0, held := true, since := 5, buf := [] } }
theorem wit_MemoryRowsAct_locked : ∀ op ∈ [0, 1], readyB sHeld (mMem op) (memForm (mMem op) op 2 true) = true ∧
    targets (fetches sHeld (mMem op)) op (fun _ pa _ => pa / 512 = 0x40000002000 / 512) = true := by decide +kernel

/-- A peer's page behind an arc of the context. -/
def sPeer : State := { sG with
  tlbs := [⟨95, 0, 3, 0, 2 ^ 63 + 3 * 2 ^ 61 + 2 ^ 60 + 7 * 2 ^ 42, 0⟩]
  arcs := [(2, { Arc.reset with live := true, kind := 1, ctx := ctxH, vertex := 7, state := 1 })] }

/-- What an access to the peer meets: the carrying arc takes a message. -/
def peerTarget (s : State) (kind : Nat) : Bool :=
  match s.laneTargets shard 95 63 kind lanes0 with
  | (u, some [(31, 0x2000, .peer 7 0x2000)]) =>
    (match u.peerArc shard.ctx 7 with
      | .ok slot => slot = 2 && (u.arc 2).live && decide ((u.arc 2).unacked.length < 256)
      | _ => false) && (u.arcSend 2 0 1 0x2000 0 0 (leBytes 4 0) none shard.ring shard.aseq).isSome &&
      (u.peersReady shard.ctx [(31, 0x2000, .peer 7 0x2000)]).isNone
  | _ => false

theorem wit_MemoryRowsAct_peer : readyB sPeer (mMem 1) (memForm (mMem 1) 1 2 true) = true ∧ peerTarget (fetches sPeer (mMem 1)) 1 = true := by decide +kernel

theorem wit_MemoryRowsAct_copies :
    readyB sG (ti 7 0 (formR 0 2 6 0 0 (2 * 16 + 15)))
      { keys := [0x700], imm := false, modMask := 0x3F, ok := true, regs := [(2, 2), (6, 1)], inLock := false } = true ∧
    laneAddrs [31] (fun ln => grp.addr ln 2 0 16) = some lanes0 ∧
    readyB sG (ti 7 1 (formR 0 2 5 6 0 15)) { keys := [0x701], imm := false, modMask := 0xF, ok := true, regs := [(2, 2), (5, 1), (6, 1)], inLock := false } = true ∧
    grp.addr 31 2 0 32 = some 0x2000 ∧ grp.reg 31 6 % 32 = 0 ∧ grp.reg 31 6 ≠ 0 ∧ grp.reg 31 6 ≤ 65536 ∧
    (match blockOff (grp.reg 31 5) 0 32 (grp.reg 31 6) 4096 with
      | .ok o => o == 0
      | _ => false) = true := by decide +kernel

/-- A load of lane 31 whose data are in host memory, and an atomic whose old value has come. -/
def ld0 : LoadOp := { dst := 8, width := 4, lanes := lanes0, policy := 2, order := 0, vals := none }
def atm0 : LoadOp := { dst := 8, width := 8, lanes := lanes0, policy := 3, order := 0, vals := some [(31, 7)] }

/-- Loads whose data come, whole and with an error, and an atomic's old value. -/
theorem wit_LoadsReturnAndAtomicsIssue_loads :
    (let s := withGroup (runs ready 95) { grp with loads := [ld0] }
     s.running 95 = true ∧ (s.group 95 63).live = true ∧ (s.group 95 63).loads = [ld0] ∧ ld0.vals = none ∧ ld0.width ≤ 16 ∧ ld0.dst + widthRegs ld0.width ≤ 256 ∧
     (match s.tryLoad shard 95 63 ld0 with
       | (_, some vs) => decide ((∀ p ∈ vs, p.2 < 2 ^ 128) ∧ (vs.map Prod.fst).Nodup ∧ vs ≠ [])
       | _ => false) = true) ∧
    (let o : LoadOp := { ld0 with vals := some [(31, 2 ^ 128)] }
     let s := withGroup (runs ready 95) { grp with loads := [o] }
     (s.group 95 63).loads = [o] ∧ o.policy ≠ 3 ∧
     (match s.tryLoad shard 95 63 o with
       | (_, some vs) => decide (∃ p ∈ vs, 2 ^ 128 ≤ p.2)
       | _ => false) = true) ∧
    (let s := withGroup (runs ready 95) { grp with loads := [atm0] }
     (s.group 95 63).loads = [atm0] ∧ atm0.policy = 3 ∧ s.atomVals 95 63 atm0 = [(31, 7)]) := by decide +kernel

/-- A part of a copy, and one whose data are uncorrectable. -/
theorem wit_LoadsReturnAndAtomicsIssue_parts :
    let a : Acp := { group := 63, block := 0, src := 0x2040, off := 0, len := 64, counter := 15 }
    let s : State := { sG with cores := [(95, { CoreU.reset with shard := some shard, acps := [a] })] }
    let bad : State := { sC [⟨64, 0, 1, 15, 0, 15, 0⟩] with cores := [(95, { CoreU.reset with shard := some shard, acps := [a] })] }
    (s.core 95).acps = [a] ∧ s.running 95 = true ∧
    (match s.copyRead shard 95 a (min (min 64 a.len) (128 - a.src % 128)) with
      | (_, .data _ false) => true
      | _ => false) = true ∧
    (bad.core 95).acps = [a] ∧ bad.running 95 = true ∧
    (match bad.copyRead shard 95 a (min (min 64 a.len) (128 - a.src % 128)) with
      | (_, .data _ true) => true
      | _ => false) = true := by decide +kernel

/-- Atomics of 4 bytes at X2, with X4 and, for the compare-and-swap, X6. -/
def mAtom (op : Nat) : TInstr := ti 8 op (formR 8 2 4 6 0 2)
def mRed (op : Nat) : TInstr := ti 8 op (formR 0 2 4 0 0 2)

/-- What a vector reduction's form is. -/
def redForm (op : Nat) : OpForm := { keys := [0x800 + op], imm := false, modMask := 0xE7, ok := true, regs := [(2, 2), (4, 1)], inLock := false }
def fenceForm : OpForm := { keys := [0x900], imm := false, modMask := 0xE0, ok := true, regs := [], inLock := false }

theorem wit_LoadsReturnAndAtomicsIssue_atomics :
    allReady sO ((List.range 10).map fun op => (mAtom op, atomForm (mAtom op) [op] false)) = true ∧
    allReady sO ([0x10, 0x18].map fun op => (mRed op, atomForm (mRed op) [0x10, 0x11, 0x12, 0x13, 0x14, 0x15, 0x16, 0x17, 0x18] true)) = true ∧
    allReady sO ([0x20, 0x21, 0x22].map fun op => (mRed op, redForm op)) = true ∧
    laneAddrs [31] (fun ln => grp.addr ln 2 0 4) = some lanes0 ∧ grp.addr 31 2 0 128 = some 0x2000 ∧
    (let s := fetches sO (mAtom 0)
     s.acquiring 95 63 = false ∧ s.fenced 95 63 (memOrder (mAtom 0)) = true ∧ s.clash 95 63 0x2000 = false ∧ s.tracks 95 1 = true ∧
     targets s 2 (fun u pa _ => decide (pa < 8 * octantBytes) && !u.coreWrites 95 (pa / 128) && !u.onHost pa) = true) := by decide +kernel

/-- Atomics on a host page: of a PCIe operation, and of one that PCIe does not have; a reduction; and atomics on a peer's page. -/
theorem wit_LoadsReturnAndAtomicsIssue_far :
    (∀ op ∈ [0, 1], readyB sG (mAtom op) (atomForm (mAtom op) [op] false) = true ∧
      targets (fetches sG (mAtom op)) 2 (fun u pa _ => u.onHost pa && !u.coreWrites 95 (pa / 128)) = true ∧ atomOnHost (atomOp op) = decide (op = 0)) ∧
    readyB sG (mRed 0x20) (redForm 0x20) = true ∧
    (match (fetches sG (mRed 0x20)).translate (groupAccess shard 95 63 2 0x2000) with
      | (u, some (.mem pa _)) => u.onHost pa
      | _ => false) = true ∧
    readyB sPeer (mAtom 0) (atomForm (mAtom 0) [0] false) = true ∧ readyB sPeer (mRed 0x10) (atomForm (mRed 0x10) [0x10, 0x11, 0x12, 0x13, 0x14, 0x15, 0x16, 0x17, 0x18] true) = true ∧
    peerTarget (fetches sPeer (mAtom 0)) 2 = true := by decide +kernel

/-- Fences that pass, and one that a load of its group holds back. -/
theorem wit_LoadsReturnAndAtomicsIssue_fence :
    (∀ o ∈ [1, 4], readyB sO (ti 9 0 (o * 32)) fenceForm = true ∧ (fetches sO (ti 9 0 (o * 32))).fenced 95 63 o = true ∧
      (fetches sO (ti 9 0 (o * 32))).acquiring 95 63 = false) ∧
    (let s := withGroup (runs ready 95) { grp with loads := [ld0] }
     readyB s (ti 9 0 32) fenceForm = true ∧ (fetches s (ti 9 0 32)).fenced 95 63 1 = false) := by decide +kernel

def beginForm : OpForm := { keys := [0xB00], imm := false, modMask := 0xFF, ok := true, regs := [(2, 2)], inLock := false }

/-- LOCK.BEGIN of a line of octant 0, and of one of host memory. -/
theorem wit_LockedSequencesAndSeqRows_begin : ∀ s0 ∈ [sO, sG], let i := ti 11 0 (2 * 2 ^ 16 + 6 * 2 ^ 13)
    let s := fetches s0 i
    readyB s0 i beginForm = true ∧ grp.addr 31 2 0 1 = some 0x2000 ∧ s.acquiring 95 63 = false ∧
    (match s.translate (groupAccess shard 95 63 2 0x2000) with
      | (u, some (.mem pa _)) =>
        if s0 = sO then decide (pa = 0x2000) && (List.range 4).all fun j =>
            !u.coreWrites 95 (4 * (pa / 512) + j) && !u.clash 95 63 (0x2000 / 512 * 512 + 128 * j)
        else decide (8 * octantBytes ≤ pa)
      | _ => false) = true := by decide +kernel

/-- A locked sequence, on a line of a host window (a home with little to look up). -/
def lock0 (held : Bool) (count : Nat) : LockSt :=
  { line := 2 ^ 33, pd := 6, fail := 0x4000, lanes := 2 ^ 31, active := 2 ^ 31, stack := [], count := count, held := held, since := 5, buf := [] }

theorem wit_LockedSequencesAndSeqRows_go :
    (let s : State := { withGroup (runs ready 95) { grp with lock := some (lock0 false 0), wait := .lock } with txq := [(2 ^ 35, HomeReq.lock 95 63)] }
     (s.group 95 63).lock = some (lock0 false 0) ∧ s.running 95 = true ∧ s.lockFree 95 63 (2 ^ 33) = true) ∧
    (let s := withGroup (runs ready 95) { grp with lock := some (lock0 true 63) }
     let fm : OpForm := { keys := [0xB01], imm := false, modMask := 0, ok := true, regs := [], inLock := true }
     readyB s (ti 11 1 0) fm = true ∧ grp.execLanes (ti 11 1 0) ≠ [] ∧
     readyB s (onP0 (ti 11 1 0)) fm = true ∧ grp.execLanes (onP0 (ti 11 1 0)) = [] ∧ readyB sG (ti 11 1 0) fm = true ∧ grp.lock = none) ∧
    (let s := withGroup (runs ready 95) { grp with lock := some (lock0 true 64) }
     (s.group 95 63).lock = some (lock0 true 64) ∧ 64 ≤ (lock0 true 64).count ∧ s.canIssue 95 63 = true ∧
       (lock0 true 64).active &&& (s.group 95 63).alive ≠ 0) := by decide +kernel

theorem wit_LockedSequencesAndSeqRows_rows :
    let pushForm : OpForm := { keys := [0xC00], imm := false, modMask := 0x1F, ok := true, regs := [(2, 2)], inLock := false }
    (let s : State := { sG with seqs := [(95, { Seq.reset with loaded := true, qdesc := [(31, ⟨true, 2, 256, 1, 0⟩)] })] }
     readyB s (ti 12 0 (formR 0 2 0 0 0 31)) pushForm = true ∧
     (s.seq 95).loaded = true ∧ shard.seqDone = false ∧ s.isKind 95 31 2 = true ∧ s.storesOut 95 = false ∧ (s.queue 95 31).occ < (s.qdesc 95 31).depth) ∧
    (readyB sG (ti 12 0 (formR 0 2 0 0 0 31)) pushForm = true ∧ (sG.seq 95).loaded = false) ∧
    (∀ s0 ∈ [sG, sPeer], ∀ op ∈ [1, 2], let s := fetches s0 (ti 12 op (formR 0 2 4 0 0 0))
      readyB s0 (ti 12 op (formR 0 2 4 0 0 0))
        { keys := [0xC00 + op], imm := false, modMask := 0, ok := true, regs := [(2, 2), (4, 2)], inLock := false } = true ∧
      grp.addr 31 2 0 8 = some 0x2000 ∧ (∀ a ∈ s.watch, a.who ≠ .group 95 63) ∧ s.fenced 95 63 4 = true ∧ s.acquiring 95 63 = false ∧
      (match s.translate (groupAccess shard 95 63 (op - 1) 0x2000) with
        | (_, some (.mem _ _)) => s0 = sG
        | (u, some (.peer vx _)) => s0 = sPeer && (match u.peerArc shard.ctx vx with
            | .ok _ => true
            | _ => false)
        | _ => false) = true) := by decide +kernel

/-! ### Tests of single instructions, from the rows of R180 -/

/-- What a register of lane 31 holds after an instruction. -/
def after (c : Nat → Nat → TInstr → Instr) (i : TInstr) (s : State) (r : Nat) : Option Nat :=
  match exec (c 95 63 i) (fetches s i) with
  | .next t => some ((t.group 95 63).reg 31 r)
  | _ => none

theorem test_add : after .add (ti 0 0 (formR 8 2 4 0 0 0)) sG 8 = some 0x2003 := by decide +kernel
theorem test_sub_wraps : after .sub (ti 0 1 (formR 8 4 6 0 0 0)) sG 8 = some (2 ^ 32 - 61) := by decide +kernel
theorem test_mulHiU : after .mulHiU (ti 0 4 (formR 8 2 2 0 0 0)) sG 8 = some 0 := by decide +kernel
theorem test_shl : after .shl (ti 0 0x10 (formR 8 4 4 0 0 0)) sG 8 = some 24 := by decide +kernel
theorem test_andn : after .andn (ti 0 0x0B (formR 8 4 6 0 0 0)) sG 8 = some 3 := by decide +kernel
/-- 1.0 + 1.0 in binary32. -/
theorem test_fadd : after .fadd (ti 1 0 (formR 8 9 9 0 1 0)) (withGroup (runs ready 95) { grp with regs := [(256 * 31 + 9, 0x3F800000)] }) 8 =
    some 0x40000000 := by decide +kernel
/-- X255 discards what is written and reads zero (R170). -/
theorem test_x255 : after .add (ti 0 0 (formR 255 2 4 0 0 0)) sG 255 = some 0 := by decide +kernel
/-- A reserved bit of an instruction ends the shard with ILLEGAL-INSTR (R178, R179). -/
theorem test_illegal : let i := { ti 0 0 (formR 8 2 4 0 0 0) with rsv := 1 }
    (match exec (.add 95 63 i) (fetches sG i) with
    | .next t => ((t.core 95).shard.map fun h => h.code)
    | _ => none) = some 0x0501 := by decide +kernel

end Sys2Proof.Tests
end

section
/-! SUPPORT. A request of bad form: how the server answers it, and that nothing else comes of it (R22, R46, R480, R481). -/

namespace Sys2Proof.Machine

/-- The rows of the table that are a frame of a request are all served as their frame says. -/
theorem exec_request {cmd : Instr} {p : Port} {f : Frame}
    (h : cmd ∈ ([.read p f, .consumeRead p f, .descriptorRead p f, .readMulti p f, .write p f, .subscribe p f, .subscribeCancel p f] : List Instr))
    (s : State) : exec cmd s = .next (s.answerFrame p f) := by
  simp only [List.mem_cons, List.not_mem_nil, or_false] at h
  obtain rfl | rfl | rfl | rfl | rfl | rfl | rfl := h <;> rfl

/-! ### Answering -/

/-- Sending a response touches what has been sent, the mailboxes and the test access port's register only. -/
theorem State.repliedFrom_answer (s : State) (p : Port) (f : Frame) : s.RepliedFrom (s.answer p f) := by
  unfold State.answer State.RepliedFrom
  split
  · split <;> rfl
  · split <;> rfl

theorem State.RepliedFrom.obj {u t : State} (h : u.RepliedFrom t) : t.obj = u.obj := by rw [h]
theorem State.RepliedFrom.subs {u t : State} (h : u.RepliedFrom t) : t.subs = u.subs := by rw [h]

/-- A frame whose transport is free, and that is answered at once, leaves the state that its answer is sent from. -/
theorem State.answerFrame_of_serveFrame {s t : State} {p : Port} {f rsp : Frame} (free : p.tr = .mbx → s.mbxFree p.fn = true)
    (h : s.serveFrame p f = (t, some rsp)) : s.answerFrame p f = t.answer p rsp := by
  have hm : (p.tr = .mbx && s.hears p && !s.mbxFree p.fn) = false := by
    by_cases hp : p.tr = .mbx
    · simp [free hp]
    · simp [hp]
  simp [State.answerFrame, hm, h]

/-! ### BAD-FRAME (R481) -/

/-- One item with reserved bits, an ISTATUS or a padding byte that is not 0 makes the whole request bad, whatever else it holds. -/
theorem frameBad_of_badItem {f : Frame} (h : ∃ it ∈ f.items, it.rsv ≠ 0 ∨ it.istatus ≠ 0 ∨ it.padOk = false) (tagged : Bool) :
    frameBad f tagged = true := by
  have hany : (f.items.any fun it => it.rsv ≠ 0 || it.istatus ≠ 0 || !it.padOk) = true := by
    obtain ⟨it, hit, hbad⟩ := h
    exact List.any_eq_true.mpr ⟨it, hit, by simpa [or_assoc] using hbad⟩
  simp only [frameBad, hany, Bool.or_true, Bool.true_or]

/-- A frame that is heard and whose tag is right, but whose form is bad, is counted and answered BAD-FRAME, without items, to its session or to none. -/
theorem State.serveFrame_of_frameBad {s : State} {p : Port} {f : Frame} (hears : s.hears p = true) (sound : frameLost f = false)
    (tag : tagFails (s.received.findSess p f.session) f = false) (bad : ∀ tagged, frameBad f tagged = true) :
    ∃ rsp : Frame, s.serveFrame p f = (s.received, some rsp) ∧ rsp.seq = f.seq ∧ rsp.status = stBadFrame ∧ rsp.items = [] := by
  cases hc : s.received.findSess p f.session with
  | none =>
    rw [hc] at tag
    rw [State.received] at hc
    refine ⟨sealed (response f stBadFrame []), ?_, rfl, rfl, rfl⟩
    simp [State.serveFrame, State.received, hears, sound, tag, bad, hc]
  | some c =>
    rw [hc] at tag
    rw [State.received] at hc
    refine ⟨sentTo c (response f stBadFrame []), ?_, sentTo_seq c _, sentTo_status c _, sentTo_items c _⟩
    simp [State.serveFrame, State.received, hears, sound, tag, bad, hc]

end Sys2Proof.Machine

open Sys2Proof Sys2Proof.Machine

/-- Settles O54: the server looks at a request's form before it looks at its session or its items, so that a bad item has the frame answered from
the state in which it was received. -/
theorem badItemsAreRefused : Obligations.BadItemsAreRefused := by
  unfold Obligations.BadItemsAreRefused
  intro s p f cmd hcmd hears sound tag hitem free
  obtain ⟨rsp, hserve, hseq, hstatus, hitems⟩ :=
    State.serveFrame_of_frameBad hears sound tag (frameBad_of_badItem hitem)
  have hfrom : s.received.RepliedFrom (s.received.answer p rsp) := State.repliedFrom_answer _ _ _
  refine ⟨s.received.answer p rsp, ?_, ⟨rsp, State.sent_answer _ _ _, hseq, hstatus, hitems⟩, ?_, hfrom.subs, State.answer_sess _ _ _⟩
  · rw [exec_request hcmd, State.answerFrame_of_serveFrame free hserve]
  · intro key hkey
    calc (s.received.answer p rsp).nat key
      _ = s.received.nat key := State.nat_congr hfrom.obj key
      _ = s.nat key := State.received_nat s hkey

end

section
/-! SUPPORT. The codes of L8 and L4: what an element of sign and code is as an operand and as a value (R59 to R62). -/

namespace Sys2Proof.Machine

/-! ### Sign and code of a field -/

/-- The sign of a number format of `w` code bits stands above its code. -/
theorem testBit_sign_add (neg : Bool) {w c : Nat} (h : c < 2 ^ w) : ((if neg then 2 ^ w else 0) + c).testBit w = neg := by
  have hc : c.testBit w = false := Nat.testBit_lt_two_pow h
  cases neg with
  | false => simpa using hc
  | true => simpa [Nat.testBit_two_pow_add_eq] using hc

theorem sign_add_mod (neg : Bool) {w c : Nat} (h : c < 2 ^ w) : ((if neg then 2 ^ w else 0) + c) % 2 ^ w = c := by
  cases neg with
  | false => simpa using Nat.mod_eq_of_lt h
  | true => simpa using Nat.mod_eq_of_lt h

/-! ### L operands (R60 to R62) -/

/-- An L8 operand is its own code in eighths. -/
theorem lOperand_l8 (neg : Bool) {c : Nat} (pos : c ≠ 0) (h : c < 2 ^ 7) : lOperand 1 ((if neg then 2 ^ 7 else 0) + c) = some (neg, c) := by
  simp only [lOperand, Nat.one_ne_zero, if_false, testBit_sign_add neg h, sign_add_mod neg h, pos]

/-- An L4 operand is brought to eighths. -/
theorem lOperand_l4 (neg : Bool) {c : Nat} (pos : c ≠ 0) (h : c < 2 ^ 3) :
    lOperand 0 ((if neg then 2 ^ 3 else 0) + c) = some (neg, 4 * c + 48) := by
  simp only [lOperand, if_true, testBit_sign_add neg h, sign_add_mod neg h, pos, if_false, l4in8]

/-! ### The value of a code in eighths -/

/-- A code's low three bits choose the significand, and the others are the binade index. -/
theorem l8Mag_natCast (c : Nat) : l8Mag c = (t8 (c % 8), ((c / 8 : Nat) : Int) - 8 - 15) := by
  have hf : ((c : Int) % 8).toNat = c % 8 := by omega
  simp [l8Mag, hf]

/-- What an L element stands for follows from its sign and its code in eighths alone, whichever of the two formats it is of. -/
theorem decodeFmt_of_lOperand {f v c : Nat} {neg : Bool} (hf : f = 0 ∨ f = 1) (h : lOperand f v = some (neg, c)) (pos : c ≠ 0) :
    decodeFmt f v = .fin neg (t8 (c % 8)) (((c / 8 : Nat) : Int) - 8 - 15) := by
  have hlin : linFmt f = none := by rcases hf with rfl | rfl <;> rfl
  simp only [decodeFmt, hlin, hf, if_true, h, pos, if_false, l8Mag_natCast]

theorem t8_eq_getD : ∀ f < 8, t8 f = [0x8000, 0x8B96, 0x9838, 0xA5FF, 0xB505, 0xC567, 0xD745, 0xEAC1].getD f 0 := by decide

/-- The two constants of T2 are those of T8 at the fractions that an L4 code has in eighths (R59). -/
theorem t8_l4 (c : Nat) : t8 ((4 * c + 48) % 8) = if c % 2 = 0 then 0x8000 else 0xB505 := by
  have hf : (4 * c + 48) % 8 = 4 * (c % 2) := by omega
  rcases Nat.mod_two_eq_zero_or_one c with h | h <;> simp [hf, h, t8]

/-! ### The values of the codes -/

/-- Code 0 is zero, and with the sign set it is the single NaN (R60, R61). -/
theorem decodeFmt_code_zero (neg : Bool) :
    decodeFmt 1 (if neg then 2 ^ 7 else 0) = (if neg then .nan else .fin false 0 0) ∧
      decodeFmt 0 (if neg then 2 ^ 3 else 0) = (if neg then .nan else .fin false 0 0) := by
  cases neg with
  | false => decide
  | true => decide

/-- The codes of L8 (R60). -/
theorem decodeFmt_l8 (neg : Bool) {c : Nat} (pos : c ≠ 0) (h : c < 2 ^ 7) :
    decodeFmt 1 ((if neg then 2 ^ 7 else 0) + c) = .fin neg (t8 (c % 8)) (((c / 8 : Nat) : Int) - 8 - 15) :=
  decodeFmt_of_lOperand (.inr rfl) (lOperand_l8 neg pos h) pos

/-- The codes of L4 (R61): six binades are added on the way to eighths. -/
theorem decodeFmt_l4 (neg : Bool) {c : Nat} (pos : c ≠ 0) (h : c < 2 ^ 3) :
    decodeFmt 0 ((if neg then 2 ^ 3 else 0) + c) = .fin neg (if c % 2 = 0 then 0x8000 else 0xB505) (((c / 2 : Nat) : Int) - 2 - 15) := by
  have hexp : (((4 * c + 48) / 8 : Nat) : Int) - 8 - 15 = ((c / 2 : Nat) : Int) - 2 - 15 := by omega
  rw [decodeFmt_of_lOperand (.inl rfl) (lOperand_l4 neg pos h) (by omega), t8_l4, hexp]

/-- An L4 code and the L8 code of the same place in eighths are the same operand (R62). -/
theorem lOperand_l4_eq_l8 (neg : Bool) {c : Nat} (pos : c ≠ 0) (h : c < 2 ^ 3) :
    lOperand 0 ((if neg then 2 ^ 3 else 0) + c) = lOperand 1 ((if neg then 2 ^ 7 else 0) + (4 * c + 48)) :=
  (lOperand_l4 neg pos h).trans (lOperand_l8 neg (by omega) (by omega)).symm

/-- The conversion from L4 to L8 is exact (R62). -/
theorem decodeFmt_l4_eq_l8 (neg : Bool) {c : Nat} (pos : c ≠ 0) (h : c < 2 ^ 3) :
    decodeFmt 0 ((if neg then 2 ^ 3 else 0) + c) = decodeFmt 1 ((if neg then 2 ^ 7 else 0) + (4 * c + 48)) :=
  (decodeFmt_of_lOperand (.inl rfl) (lOperand_l4 neg pos h) (by omega)).trans (decodeFmt_l8 neg (by omega) (by omega)).symm

end Sys2Proof.Machine

open Sys2Proof Sys2Proof.Machine

/-- Settles O55: both formats are read through the sign and the code in eighths, so that the values of L4 are those of L8 at 4c + 48. -/
theorem lCodesHaveTheirValues : Obligations.LCodesHaveTheirValues := by
  unfold Obligations.LCodesHaveTheirValues
  intro neg sign zeroOrNan
  refine ⟨decodeFmt_code_zero neg, ?l8, ?l4⟩
  case l8 =>
    intro c h1 h127
    rw [← t8_eq_getD (c % 8) (Nat.mod_lt c (by decide))]
    exact decodeFmt_l8 neg (by omega) (by omega)
  case l4 =>
    intro c h1 h7
    have pos : c ≠ 0 := by omega
    have hlt : c < 2 ^ 3 := by omega
    exact ⟨decodeFmt_l4 neg pos hlt, decodeFmt_l4_eq_l8 neg pos hlt, lOperand_l4_eq_l8 neg pos hlt⟩

end

section
/-! SUPPORT. A WRITE of one object whose effect is on a unit (R28): once every check of it passes, that effect is all it does to the dictionary,
and its answer is OK. -/

namespace Sys2Proof.Machine

/-! ### The length of a response without data (R22, R24) -/

theorem payloadBytes_length_of_noData {f : Frame} (op : f.op ≠ 3) (hdr : f.hdr = none) (h : ∀ it ∈ f.items, it.data = []) :
    (payloadBytes f).length = 8 * f.items.length := by
  have hitem : ∀ it ∈ f.items, (itemBytes it).length = 8 := by
    intro it hit
    simp [itemBytes, padded, h it hit]
  have hsum : (f.items.map fun it => (itemBytes it).length) = f.items.map fun _ => 8 := List.map_congr_left hitem
  simp [payloadBytes, leadBytes, op, hdr, List.length_flatMap, hsum, Nat.mul_comm]

theorem sentTo_op (c : Sess) (f : Frame) : (sentTo c f).op = f.op := by unfold sentTo; split <;> rfl
theorem sentTo_hdr (c : Sess) (f : Frame) : (sentTo c f).hdr = f.hdr := by unfold sentTo; split <;> rfl
theorem payloadBytes_sealed (f : Frame) : payloadBytes (sealed f) = payloadBytes f := rfl
theorem sealed_size (f : Frame) : (sealed f).size = 20 + (payloadBytes (sealed f)).length + ((sealed f).tag.getD []).length := by
  rw [payloadBytes_sealed]; rfl
theorem sentTo_size (c : Sess) (f : Frame) :
    (sentTo c f).size = 20 + (payloadBytes (sentTo c f)).length + ((sentTo c f).tag.getD []).length := by
  unfold sentTo; split <;> exact sealed_size _

/-- A tag is at most 16 octets long (R42). -/
theorem sentTo_tag_length_le (c : Sess) (f : Frame) : ((sentTo c f).tag.getD []).length ≤ 16 := by
  unfold sentTo
  split
  · simp [sealed, frameTag, List.length_take]
  · simp [sealed]

/-- What is sent to a session has no more than a header, a CRC and a tag besides its payload (R22, R42). -/
theorem tooLong_of_noData (c : Sess) {f : Frame} (op : f.op ≠ 3) (hdr : f.hdr = none) (h : ∀ it ∈ f.items, it.data = [])
    (few : f.items.length ≤ 64) : tooLong c f = false := by
  have hpayload : (payloadBytes (sentTo c f)).length = 8 * (sentTo c f).items.length :=
    payloadBytes_length_of_noData (by rwa [sentTo_op]) (by rwa [sentTo_hdr]) (by rwa [sentTo_items])
  have hsize := sentTo_size c f
  have htag := sentTo_tag_length_le c f
  rw [sentTo_items] at hpayload
  exact decide_eq_false (by rw [maxFrame]; omega)

/-! ### The state in which a session's request is performed -/

/-- Sessions whose time is over end, with their subscriptions, and nothing else comes of it (R36). -/
theorem State.expire_eq (s : State) : s.expire = { s with sess := s.expire.sess, subs := s.expire.subs } := by
  unfold State.expire
  refine foldl_keeps (P := fun t : State => t = { s with sess := t.sess, subs := t.subs }) ?_ _ s rfl
  intro t c ht
  rw [ht]
  rfl

/-- A request that is received touches sessions, subscriptions and the count of frames only. -/
theorem State.forRequest_eq (s : State) (c : Sess) (f : Frame) : s.forRequest c f =
    { s with sess := (s.forRequest c f).sess, subs := (s.forRequest c f).subs, obj := (s.forRequest c f).obj } := by
  unfold State.forRequest State.received
  rw [State.expire_eq]
  rfl

theorem State.forRequest_ctr (s : State) (c : Sess) (f : Frame) {j : Nat} (h : j ≠ oFramesIn) : (s.forRequest c f).ctr j = s.ctr j := by
  rw [State.ctr_congr (State.forRequest_obj s c f), State.received, State.ctr_bump_ne _ _ _ h]
  exact State.ctr_congr (State.expire_obj s) j

theorem State.forRequest_core (s : State) (c : Sess) (f : Frame) (k : Nat) : (s.forRequest c f).core k = s.core k := by
  rw [State.forRequest_eq]; rfl

theorem State.forRequest_ctxOf (s : State) (c : Sess) (f : Frame) (n : Nat) : (s.forRequest c f).ctxOf n = s.ctxOf n := by
  rw [State.forRequest_eq]; rfl

/-! ### After a request -/

theorem State.afterRequest_obj (s : State) (p : Port) (c : Sess) (f : Frame) :
    (s.afterRequest p c f).obj = ((s.forRequest c f).performFit (c.asking s.now f.seq) p f).1.obj := by
  unfold State.afterRequest
  simp only
  split
  · rw [State.answer_obj, State.keepRsp_obj]
  · split
    · exact State.keepRsp_obj _ _ _ _
    · exact State.keepRsp_obj _ _ _ _

/-- The response to what was performed is sent to its session, or waits for flash (R20). -/
theorem State.afterRequest_replies {s : State} {p : Port} {c : Sess} {f rsp : Frame} {seq : Nat} {P : Frame → Prop}
    (h : ((s.forRequest c f).performFit (c.asking s.now f.seq) p f).2.1 = rsp) (hseq : rsp.seq = seq) (hP : ∀ e, P (sentTo e rsp)) :
    (s.afterRequest p c f).Replies p seq P := by
  have hsent (e : Sess) : (sentTo e rsp).seq = seq ∧ P (sentTo e rsp) := ⟨(sentTo_seq e rsp).trans hseq, hP e⟩
  unfold State.afterRequest State.Replies
  simp only [h, ← and_assoc]
  split
  · exact ⟨_, hsent _, .inl (State.sent_answer _ _ _)⟩
  · split <;> exact ⟨_, hsent _, .inr ⟨_, ⟨List.mem_append_right _ (List.mem_singleton_self _), rfl⟩, rfl⟩⟩

/-! ### A WRITE of one unit's object -/

/-- The item of a WRITE of one object. -/
def itemOf (key : Nat) (data : List Byte) : Item :=
  { idx := key / 256, sub := key % 256, ty := 0xF, rsv := 0, istatus := 0, seg := 0, data := data, padOk := true }

theorem writeOf_items (w : Who) (key : Nat) (data : List Byte) : (writeOf w key data).items = [itemOf key data] := rfl

@[simp] theorem itemOf_key (key : Nat) (data : List Byte) : (itemOf key data).idx * 256 + (itemOf key data).sub = key :=
  Nat.div_add_mod' key 256

/-- An object whose WRITE has an effect of its own, which is on a unit and opens, proves or restores nothing and changes no memory layout. -/
structure UnitObject (key : Nat) : Prop where
  plain : key ∉ [oSessionOpen, oSessionProof, oSvcToken, oRepairRequest, oRestore]
  layouts : ∀ (s : State) (v : Nat), s.layoutsOf key v = []

theorem State.applyItems_unitObject {s t : State} {key : Nat} {data : List Byte} (hk : UnitObject key)
    (ht : s.applyUnit key (leNat data) = some t) (c : Sess) (p : Port) :
    s.applyItems c p [itemOf key data] = (t, [answerItem (itemOf key data) 0 []]) := by
  have hplain := hk.plain
  simp only [List.mem_cons, List.not_mem_nil, or_false, not_or] at hplain
  obtain ⟨hopen, hproof, htoken, hrepair, hrestore⟩ := hplain
  have hitem (d : Sess) : s.applyItem d p (itemOf key data) = (t, []) := by
    have hdata : (itemOf key data).data = data := rfl
    simp only [State.applyItem, State.applyValue, itemOf_key, hdata, hopen, hproof, htoken, hrepair, hrestore, ht, if_false]
  have hls : s.layoutsBefore (s.writtenValues [itemOf key data]) = [] := by
    simp [State.layoutsBefore, State.writtenValues, hrestore, hk.layouts]
  simp [State.applyItems, hitem, hls]

/-- A WRITE of a unit's object that passes its checks is performed: it has its effect, and its answer is OK. -/
theorem State.performFit_unitObject {s t : State} {w : Who} {key : Nat} {data : List Byte} {c : Sess} (h : s.Takes w key data c)
    (hk : UnitObject key) (ht : (s.forRequest c (writeOf w key data)).applyUnit key (leNat data) = some t) :
    let r := (s.forRequest c (writeOf w key data)).performFit (c.asking s.now w.seq) w.port (writeOf w key data)
    r.1 = t ∧ r.2.1 = response (writeOf w key data) 0 [answerItem (itemOf key data) 0 []] := by
  have hfit := tooLong_of_noData (c.asking s.now w.seq) (f := response (writeOf w key data) 0 [answerItem (itemOf key data) 0 []])
    (show 2 ≠ 3 by decide) rfl (by simp [response, answerItem]) (by simp [response])
  have hdo : (s.forRequest c (writeOf w key data)).perform (c.asking s.now w.seq) w.port (writeOf w key data) =
      (t, response (writeOf w key data) 0 [answerItem (itemOf key data) 0 []],
        (s.forRequest c (writeOf w key data)).flashOld [itemOf key data]) := by
    have hpasses := h.passes
    rw [writeOf_items] at hpasses
    have hone : ¬ 64 < [itemOf key data].length := by simp
    show State.doWrite _ _ _ _ = _
    simp only [State.doWrite, writeOf_items, hone, hpasses, State.applyItems_unitObject hk ht, List.all_cons, List.all_nil, decide_true,
      Bool.and_true, if_true, if_false]
  simp only [State.performFit, hdo, hfit, Bool.false_eq_true, if_false, and_self]

/-- What follows the WRITE of a unit's object that passes its checks: the dictionary as its effect leaves it, and the answer OK. -/
theorem State.writeOne_unitObject {s t : State} {w : Who} {key : Nat} {data : List Byte} {c : Sess} (h : s.Takes w key data c)
    (hk : UnitObject key) (ht : (s.forRequest c (writeOf w key data)).applyUnit key (leNat data) = some t) :
    (s.writeOne w key data).obj = t.obj ∧ (s.writeOne w key data).Accepted w := by
  obtain ⟨hstate, hrsp⟩ := State.performFit_unitObject h hk ht
  rw [State.writeOne, State.answerFrame_of_admits h.admits]
  refine ⟨(State.afterRequest_obj _ _ _ _).trans (congrArg State.obj hstate), State.afterRequest_replies hrsp rfl fun e => ?_⟩
  rw [sentTo_status, sentTo_items]
  exact ⟨rfl, by simp [response, answerItem]⟩

end Sys2Proof.Machine

end

section
/-! SUPPORT. The debugger's objects of a core as a shard begins, at a breakpoint or not, and as it is resumed (R164, R165, R319). -/

namespace Sys2Proof.Machine

variable {s : State} {k j : Nat}

/-! ### Trace records and clocks leave them alone -/

theorem State.trace_ctr (s : State) (ty src tag ctx data : Nat) (h : j ≠ oTraceLost) : (s.trace ty src tag ctx data).ctr j = s.ctr j := by
  unfold State.trace
  split
  · rfl
  · split
    · split
      · rfl
      · exact State.ctr_bump_ne _ _ _ h
    · exact State.ctr_bump_ne _ _ _ h

/-- A trace record goes to the host's memory: it touches no sequencer and no core. -/
theorem State.trace_units (s : State) (ty src tag ctx data : Nat) : (s.trace ty src tag ctx data).seqs = s.seqs ∧
    (s.trace ty src tag ctx data).cores = s.cores := by
  unfold State.trace
  split
  · exact ⟨rfl, rfl⟩
  · split
    · split <;> exact ⟨rfl, rfl⟩
    · exact ⟨rfl, rfl⟩

theorem State.haltClock_units (s : State) (k : Nat) : (s.haltClock k).obj = s.obj ∧ (s.haltClock k).seqs = s.seqs := by
  unfold State.haltClock
  simp only
  split <;> exact ⟨rfl, rfl⟩

theorem State.moveWaits_obj (s : State) (k halt : Nat) : (s.moveWaits k halt).obj = s.obj := by
  unfold State.moveWaits
  simp only
  split <;> rfl

theorem State.runClock_obj (s : State) (k : Nat) : (s.runClock k).obj = s.obj := by
  unfold State.runClock
  simp only
  split
  · rfl
  · split
    · rfl
    · exact State.moveWaits_obj _ _ _

/-! ### A halt (R165) -/

theorem State.haltCore_seq (s : State) (k cause : Nat) : (s.haltCore k cause).seq k = s.seq k := by
  rw [State.seq, State.haltCore, (State.trace_units _ _ _ _ _ _).1, (State.haltClock_units _ _).2]; rfl

theorem State.haltCore_ctr (s : State) (k cause : Nat) (h : j ≠ oTraceLost) :
    (s.haltCore k cause).ctr j = ((s.put (oSeqState k) 3).put (oHaltCause k) cause).ctr j := by
  rw [State.haltCore, State.trace_ctr _ _ _ _ _ _ h]
  exact State.ctr_congr (State.haltClock_units _ _).1 j

theorem State.haltCore_seqState (s : State) (k cause : Nat) : (s.haltCore k cause).seqState k = 3 := by
  rw [State.seqState, State.haltCore_ctr _ _ _ (by simp only [oSeqState, oTraceLost]; omega),
    State.ctr_put_ne _ _ (by simp only [oSeqState, oHaltCause]; omega), State.ctr_put_self]

theorem State.haltCore_commandCount (s : State) (k cause : Nat) : (s.haltCore k cause).ctr (oCommandCount k) = s.ctr (oCommandCount k) := by
  rw [State.haltCore_ctr _ _ _ (by simp only [oCommandCount, oTraceLost]; omega),
    State.ctr_put_ne _ _ (by simp only [oCommandCount, oHaltCause]; omega), State.ctr_put_ne _ _ (by simp only [oCommandCount, oSeqState]; omega)]

/-! ### The beginning of a shard (R164) -/

/-- The objects of a core that begins the shard which it holds. -/
theorem State.startShard_ctr {h : Shard} (hs : (s.core k).shard = some h) (hj : j ≠ oTraceLost) :
    (s.startShard k).ctr j = (((s.put (oSeqState k) (if bits 511 456 h.recd = 0 then 0 else 1)).put (oHaltCause k) 0).bump 8 (oCommandCount k) 1).ctr j := by
  unfold State.startShard
  simp only [hs]
  rw [State.trace_ctr _ _ _ _ _ _ hj]
  refine State.ctr_congr ?_ j
  simp only [State.bump, State.put_obj, State.ctr, State.setSeq_obj]
  rw [forUpTo_same State.obj 4 (by intro _ _; rfl), State.setCore_obj]

theorem State.startShard_commandCount {h : Shard} (hs : (s.core k).shard = some h) :
    (s.startShard k).ctr (oCommandCount k) = min (s.ctr (oCommandCount k) + 1) (2 ^ 64 - 1) := by
  rw [State.startShard_ctr hs (by simp only [oCommandCount, oTraceLost]; omega), State.ctr_bump_self,
    State.ctr_put_ne _ _ (by simp only [oCommandCount, oHaltCause]; omega), State.ctr_put_ne _ _ (by simp only [oCommandCount, oSeqState]; omega)]
  rfl

theorem State.startShard_seqState {h : Shard} (hs : (s.core k).shard = some h) :
    (s.startShard k).seqState k = if bits 511 456 h.recd = 0 then 0 else 1 := by
  rw [State.seqState, State.startShard_ctr hs (by simp only [oSeqState, oTraceLost]; omega),
    State.ctr_bump_ne _ _ _ (by simp only [oSeqState, oCommandCount]; omega),
    State.ctr_put_ne _ _ (by simp only [oSeqState, oHaltCause]; omega), State.ctr_put_self]

/-! ### The breakpoints (R164) -/

/-- A command stands at a breakpoint when the count that it would take, or its tag under the mask, is the one looked for. -/
theorem State.breakpoint_ne_zero (s : State) (k tag : Nat) : s.breakpoint k tag ≠ 0 ↔
    ((s.ctr (oBrkCtrl k)).testBit 0 = true ∧ s.ctr (oCommandCount k) + 1 = s.ctr (oBrkCount k) ∨
      (s.ctr (oBrkCtrl k)).testBit 1 = true ∧ (tag ^^^ s.ctr (oBrkTag k)) &&& s.ctr (oBrkMask k) = 0) := by
  unfold State.breakpoint
  simp only [Bool.and_eq_true, decide_eq_true_eq]
  split
  · next hcount => exact iff_of_true Nat.one_ne_zero (.inl hcount)
  · next hcount =>
    split
    · next htag => exact iff_of_true (Nat.succ_ne_zero 1) (.inr htag)
    · next htag => exact iff_of_false (fun h => h rfl) (not_or.mpr ⟨hcount, htag⟩)

/-- The breakpoints are those of the core's debugger objects, whatever else of the state differs. -/
theorem State.breakpoint_congr {s u : State} {k tag : Nat} (h : ∀ j ∈ [oBrkCtrl k, oBrkCount k, oBrkTag k, oBrkMask k, oCommandCount k], u.ctr j = s.ctr j) :
    u.breakpoint k tag = s.breakpoint k tag := by
  simp only [List.forall_mem_cons] at h
  obtain ⟨hctrl, hcount, htag, hmask, hcommands, -⟩ := h
  simp only [State.breakpoint, hctrl, hcount, htag, hmask, hcommands]

/-! ### SHARD_BEGIN (R319) -/

/-- A context that is gone or not in ERROR keeps no shard from beginning (R264). -/
theorem State.ctxOf_any_error {n : Nat} (h : ∀ x, s.ctxOf n = some x → x.error = false) : (s.ctxOf n).any (fun x => x.error) = false := by
  cases hx : s.ctxOf n with
  | none => rfl
  | some x => exact h x hx

/-- The shard of a command that begins next. -/
def State.nextShard (s : State) (key : Nat) (c : Cmd) : Shard :=
  { Shard.reset with
    ring := key, aseq := c.aseq, index := c.shardsBegun, tag := c.tag, ctx := c.ctx
    recd := c.recs.getD (c.shardsBegun + 1) 0, bound := runBound (s.ring key) c, start := s.now }

/-- The state in which a core has taken the next shard of a ring, and has neither begun it nor halted. -/
def State.takeShard (s : State) (k key : Nat) (c : Cmd) : State :=
  let u := s.setCmd key c.aseq fun c => { c with shardsBegun := c.shardsBegun + 1, start := if c.shardsBegun = 0 then s.now else c.start }
  let u := if (s.ring key).kind = 0 then u.peak 8 (oLcWaitMax (s.ring key).part) (u.now - (s.ring key).ableAt) else u
  let more := match (u.ring key).next with
    | some n => (n.op = 1 || n.op = 2) && (n.begun || u.fenceOk n)
    | none => false
  let u := u.setRing key { u.ring key with able := more }
  u.setCore k { u.core k with shard := some (s.nextShard key c) }

theorem State.takeShard_seq (s : State) (k key : Nat) (c : Cmd) : (s.takeShard k key c).seq k = s.seq k := by
  simp only [State.takeShard, State.seq, State.setCore_seqs, State.setRing_seqs]
  split <;> rfl

theorem State.takeShard_shard (s : State) (k key : Nat) (c : Cmd) : ((s.takeShard k key c).core k).shard = some (s.nextShard key c) := by
  simp only [State.takeShard, State.core, State.setCore_cores, Tbl.get_set_self]

/-- Of the dictionary, only the longest wait of latency-critical shards may change as a core takes one (R324). -/
theorem State.takeShard_ctr (s : State) (k key : Nat) (c : Cmd) (h : j ≠ oLcWaitMax (s.ring key).part) :
    (s.takeShard k key c).ctr j = s.ctr j := by
  simp only [State.takeShard, State.ctr, State.setCore_obj, State.setRing_obj]
  split
  · exact State.ctr_put_ne _ _ h
  · rfl

theorem State.takeShard_commandCount (s : State) (k key : Nat) (c : Cmd) :
    (s.takeShard k key c).ctr (oCommandCount k) = s.ctr (oCommandCount k) :=
  State.takeShard_ctr s k key c (by simp only [oCommandCount, oLcWaitMax]; omega)

/-- The core to which the next shard goes takes it, and begins it or is halted before it by the breakpoint that matches (R164, R319). -/
theorem State.shardBegin_takes {key : Nat} {c : Cmd} (hfree : s.coreFree k = true) (hpick : s.pickRing k = some key)
    (hable : s.ableCmd key = some c) (hfirst : s.firstFree k key = true) (hctx : ∀ x, s.ctxOf c.ctx = some x → x.error = false) :
    s.shardBegin k = if s.breakpoint k c.tag = 0 then (s.takeShard k key c).startShard k
      else (s.takeShard k key c).haltCore k (s.breakpoint k c.tag) := by
  have herr := State.ctxOf_any_error hctx
  have hbrk : (s.takeShard k key c).breakpoint k c.tag = s.breakpoint k c.tag := by
    refine State.breakpoint_congr fun j hj => State.takeShard_ctr s k key c ?_
    simp only [oBrkCtrl, oBrkCount, oBrkTag, oBrkMask, oCommandCount, oLcWaitMax, List.mem_cons, List.not_mem_nil, or_false] at hj ⊢
    omega
  rw [← hbrk]
  simp only [State.shardBegin, hfree, hpick, hfirst, hable, herr, Bool.not_true, Bool.false_eq_true, if_true, if_false]
  rfl

/-! ### RESUME (R165) -/

/-- RESUME at a breakpoint begins the shard that the core holds, so that the command is counted, whatever the breakpoints now are (R164, R165). -/
theorem State.resumeCore_commandCount {h : Shard} (hstate : s.seqState k = 3) (hs : (s.core k).shard = some h) (hbegun : h.begun = false)
    (hctx : ∀ x, s.ctxOf h.ctx = some x → x.error = false) (v : Nat) :
    (s.resumeCore k v).ctr (oCommandCount k) = min (s.ctr (oCommandCount k) + 1) (2 ^ 64 - 1) := by
  have herr := State.ctxOf_any_error hctx
  have hcore : ((s.traceShard k 0x04 0).core k).shard = some h := by
    rw [State.core, State.traceShard, (State.trace_units _ _ _ _ _ _).2]
    exact hs
  have hcount : (s.traceShard k 0x04 0).ctr (oCommandCount k) = s.ctr (oCommandCount k) :=
    State.trace_ctr _ _ _ _ _ _ (by simp only [oCommandCount, oTraceLost]; omega)
  simp only [State.resumeCore, hstate, hs, hbegun, herr, Nat.reduceEqDiff, Bool.false_eq_true, if_true, if_false]
  calc (((s.traceShard k 0x04 0).startShard k).runClock k).ctr (oCommandCount k)
    _ = ((s.traceShard k 0x04 0).startShard k).ctr (oCommandCount k) := State.ctr_congr (State.runClock_obj _ _) _
    _ = min (s.ctr (oCommandCount k) + 1) (2 ^ 64 - 1) := by rw [State.startShard_commandCount hcore, hcount]

/-- RESUME's object is a unit's. -/
theorem unitObject_oResume (hk : isCore k = true) : UnitObject (oResume k) := by
  simp only [isCore, decide_eq_true_eq] at hk
  refine ⟨?_, fun s v => ?_⟩
  · simp only [oResume, oSessionOpen, oSessionProof, oSvcToken, oRepairRequest, oRestore, List.mem_cons, List.not_mem_nil, or_false]
    omega
  · have hidx : oResume k / 256 = 0x2900 + k := by simp only [oResume]; omega
    unfold State.layoutsOf
    simp only [hidx, Bool.and_eq_true, decide_eq_true_eq]
    rw [if_neg (by omega), if_neg (by omega)]

/-- A WRITE of RESUME resumes its core. -/
theorem State.applyUnit_oResume (s : State) (hk : isCore k = true) (v : Nat) : s.applyUnit (oResume k) v = some (s.resumeCore k v) := by
  simp only [isCore, decide_eq_true_eq] at hk
  have hidx : oResume k / 256 = 0x2900 + k := by simp only [oResume]; omega
  have hsub : oResume k % 256 = 10 := by simp only [oResume]; omega
  have hcore : 0x2900 + k ≤ 0x295F := by omega
  simp [State.applyUnit, hidx, hsub, hcore]

end Sys2Proof.Machine

open Sys2Proof Sys2Proof.Machine

/-- Settles O56: the breakpoints are looked at before the shard that a free core takes begins, and only its beginning counts the command; RESUME
goes to that beginning without looking at them again. -/
theorem breakpointsHalt : Obligations.BreakpointsHalt := by
  unfold Obligations.BreakpointsHalt
  refine ⟨?begin, ?resume⟩
  case begin =>
    intro s k key c hk hfree hpick hable hfirst hctx b hit
    have hexec : exec (.shardBegin k) s = .next (s.shardBegin k) := by
      simp only [exec, execShardBegin, onUnit, hk, if_true]
    have hbegin := State.shardBegin_takes hfree hpick hable hfirst hctx
    have hbrk : s.breakpoint k c.tag ≠ 0 ↔ hit := State.breakpoint_ne_zero s k c.tag
    have hshard := State.takeShard_shard s k key c
    have hhalt (h : hit) : Answers (.shardBegin k) s fun t =>
        t.seqState k = 3 ∧ t.seq k = s.seq k ∧ t.ctr (oCommandCount k) = s.ctr (oCommandCount k) := by
      refine ⟨_, hexec, ?_⟩
      rw [hbegin, if_neg (hbrk.mpr h)]
      exact ⟨State.haltCore_seqState _ _ _, (State.haltCore_seq _ _ _).trans (State.takeShard_seq _ _ _ _),
        (State.haltCore_commandCount _ _ _).trans (State.takeShard_commandCount _ _ _ _)⟩
    refine ⟨hhalt, fun h => ⟨_, hexec, ?_⟩, fun hb hmask => ?_⟩
    · rw [hbegin, if_pos (not_not.mp (mt hbrk.mp h))]
      refine ⟨?_, by rw [State.startShard_commandCount hshard, State.takeShard_commandCount]⟩
      rw [State.startShard_seqState hshard]
      split <;> decide
    · obtain ⟨t, ht, hstate, -⟩ := hhalt (.inr ⟨hb, by rw [hmask, Nat.and_zero]⟩)
      exact ⟨t, ht, hstate⟩
  case resume =>
    intro s w k c h hk htakes hstate hshard hbegun hctx
    have hexec : exec (.resume w k) s = .next (s.writeOne w (oResume k) (leBytes 2 0)) := by
      simp only [exec, execResume, keyFor, hk, if_true]
    obtain ⟨hobj, haccepted⟩ := State.writeOne_unitObject htakes (unitObject_oResume hk) (State.applyUnit_oResume _ hk _)
    have hctr (j : Nat) (hj : j ≠ oFramesIn) := State.forRequest_ctr s c (writeOf w (oResume k) (leBytes 2 0)) hj
    refine ⟨_, hexec, haccepted, ?_⟩
    rw [State.ctr_congr hobj, State.resumeCore_commandCount (h := h) _ _ hbegun _, hctr]
    · simp only [oCommandCount, oFramesIn]; omega
    · rw [State.seqState, hctr _ (by simp only [oSeqState, oFramesIn]; omega)]
      exact hstate
    · rwa [State.forRequest_core]
    · rwa [State.forRequest_ctxOf]

end

section
/-! SUPPORT. What DRAIN and RESUME make of the links' states, one link at a time and for a list of links, and what a press of a group button
writes to the links of its group (R374, R453). -/

namespace Sys2Proof.Machine

variable {s : State} {d l : Nat}

/-! ### LINK_STATE and what leaves it alone -/

theorem State.linkState_congr {s t : State} (h : s.obj = t.obj) (l : Nat) : s.linkState l = t.linkState l := State.ctr_congr h _

/-- Each link has its own LINK_STATE. -/
@[simp] theorem State.linkState_put (s : State) (a v l : Nat) : (s.put (oLinkState a) v).linkState l = if l = a then v else s.linkState l := by
  have hkey : oLinkState l = oLinkState a ↔ l = a := by simp only [oLinkState]; omega
  simp only [State.linkState, State.ctr_put, hkey]

theorem State.sendFlit_obj (s : State) (l : Nat) (f : Flit) : (s.sendFlit l f).obj = s.obj := by
  unfold State.sendFlit
  simp only
  split <;> rfl

/-- Flits that are sent change the link's queue, credits and replay buffer, and no object. -/
theorem State.pump_obj (s : State) (l n : Nat) : (s.pump l n).obj = s.obj := by
  induction n generalizing s with
  | zero => rfl
  | succ n ih =>
    unfold State.pump
    simp only
    split
    · rfl
    · split
      · rfl
      · split
        · rfl
        · rw [ih, State.sendFlit_obj, State.setLink_obj]

@[simp] theorem State.setLink_linkState (s : State) (a : Nat) (x : Link) (l : Nat) : (s.setLink a x).linkState l = s.linkState l :=
  State.linkState_congr (State.setLink_obj s a x) l

@[simp] theorem State.pumpAll_linkState (s : State) (a l : Nat) : (s.pumpAll a).linkState l = s.linkState l :=
  State.linkState_congr (State.pump_obj s a 512) l

/-! ### DRAIN and RESUME (R374) -/

/-- The state that DRAIN leaves a link in (R374; that one which is not UP keeps its state is log entry 60). -/
def stateAfterDrain (st : Nat) : Nat := if st = lsUp then lsDraining else st

/-- The state that RESUME leaves a link in (R374). -/
def stateAfterResume (st : Nat) : Nat := if st = lsDraining ∨ st = lsDrained then lsUp else st

theorem stateAfterDrain_idem (st : Nat) : stateAfterDrain (stateAfterDrain st) = stateAfterDrain st := by
  simp only [stateAfterDrain, lsUp, lsDraining]
  by_cases h : st = 2 <;> simp [h]

theorem stateAfterResume_idem (st : Nat) : stateAfterResume (stateAfterResume st) = stateAfterResume st := by
  simp only [stateAfterResume, lsUp, lsDraining, lsDrained]
  by_cases h : st = 3 ∨ st = 4 <;> simp [h]

theorem State.linkCtrl_drain_linkState_self (s : State) (a : Nat) : (s.linkCtrl a 1).linkState a = stateAfterDrain (s.linkState a) := by
  simp only [State.linkCtrl, stateAfterDrain]
  split <;> simp

theorem State.linkCtrl_drain_linkState_ne (s : State) {a l : Nat} (h : l ≠ a) : (s.linkCtrl a 1).linkState l = s.linkState l := by
  simp only [State.linkCtrl]
  split <;> simp [h]

theorem State.linkCtrl_resume_linkState_self (s : State) (a : Nat) : (s.linkCtrl a 2).linkState a = stateAfterResume (s.linkState a) := by
  simp only [State.linkCtrl, stateAfterResume, Bool.or_eq_true, decide_eq_true_eq]
  split <;> simp

theorem State.linkCtrl_resume_linkState_ne (s : State) {a l : Nat} (h : l ≠ a) : (s.linkCtrl a 2).linkState l = s.linkState l := by
  simp only [State.linkCtrl]
  split <;> simp [h]

/-- A command for every link of a list reaches these links alone; where done twice it does what it does once, the list may name a link again. -/
theorem State.foldl_linkState {f : State → Nat → State} {g : Nat → Nat} (idem : ∀ st, g (g st) = g st)
    (self : ∀ s a, (f s a).linkState a = g (s.linkState a)) (ne : ∀ s {a l}, l ≠ a → (f s a).linkState l = s.linkState l)
    (ls : List Nat) (s : State) (l : Nat) : (ls.foldl f s).linkState l = if l ∈ ls then g (s.linkState l) else s.linkState l := by
  induction ls generalizing s with
  | nil => simp
  | cons a ls ih =>
    rw [List.foldl_cons, ih]
    by_cases ha : l = a
    · subst ha
      simp [self, idem]
    · simp [ne s ha, ha]

/-! ### A press of a group button (R453) -/

/-- Whether a link is DRAINING or DRAINED. -/
def State.linkOut (s : State) (l : Nat) : Bool := s.linkState l = lsDraining || s.linkState l = lsDrained

/-- The links of a group that a press drains: those with a cable that are neither DRAINING nor DRAINED. -/
def State.groupLive (s : State) (d : Nat) : List Nat := (groupLinks d).filter fun l => (s.link l).prsntSince.isSome && !s.linkOut l

theorem State.linkOut_iff : s.linkOut l = true ↔ s.linkState l = lsDraining ∨ s.linkState l = lsDrained := by simp [State.linkOut]

theorem State.mem_groupLive : l ∈ s.groupLive d ↔
    l ∈ groupLinks d ∧ (s.link l).prsntSince.isSome = true ∧ ¬(s.linkState l = lsDraining ∨ s.linkState l = lsDrained) := by
  rw [← State.linkOut_iff]
  simp [State.groupLive]

/-- What an enabled press writes: DRAIN to the links it drains, or, where there is none, RESUME to those that are out. -/
theorem State.grpPress_eq (hbtn : (s.nat oBtnEnable).testBit d = true) (hconf : s.mstate ≠ msConfiguring) (hsafe : s.mstate ≠ msSafe) :
    s.grpPress d = if s.groupLive d = [] then ((groupLinks d).filter s.linkOut).foldl (fun s l => s.linkCtrl l 2) s
      else (s.groupLive d).foldl (fun s l => s.linkCtrl l 1) s := by
  simp only [State.grpPress, hbtn, hconf, hsafe, Bool.not_true, decide_false, Bool.or_self, Bool.false_eq_true, if_false]
  exact if_congr List.isEmpty_iff rfl rfl

/-- A press of a group with a link to drain writes DRAIN to every such link, and to no other. -/
theorem State.grpPress_linkState_of_live (hbtn : (s.nat oBtnEnable).testBit d = true) (hconf : s.mstate ≠ msConfiguring)
    (hsafe : s.mstate ≠ msSafe) (hlive : s.groupLive d ≠ []) (l : Nat) :
    (s.grpPress d).linkState l = if l ∈ s.groupLive d then stateAfterDrain (s.linkState l) else s.linkState l := by
  rw [State.grpPress_eq hbtn hconf hsafe, if_neg hlive]
  exact State.foldl_linkState stateAfterDrain_idem State.linkCtrl_drain_linkState_self State.linkCtrl_drain_linkState_ne _ s l

/-- A press of a group without such a link resumes its links: RESUME reaches those that are out, and would leave the others as they are. -/
theorem State.grpPress_linkState_of_noLive (hbtn : (s.nat oBtnEnable).testBit d = true) (hconf : s.mstate ≠ msConfiguring)
    (hsafe : s.mstate ≠ msSafe) (hlive : s.groupLive d = []) (l : Nat) :
    (s.grpPress d).linkState l = if l ∈ groupLinks d then stateAfterResume (s.linkState l) else s.linkState l := by
  rw [State.grpPress_eq hbtn hconf hsafe, if_pos hlive,
    State.foldl_linkState stateAfterResume_idem State.linkCtrl_resume_linkState_self State.linkCtrl_resume_linkState_ne]
  by_cases hout : s.linkOut l = true
  · simp only [List.mem_filter, hout, and_true]
  · rw [stateAfterResume, if_neg (mt State.linkOut_iff.mpr hout)]
    simp only [ite_self]

end Sys2Proof.Machine

open Sys2Proof Sys2Proof.Machine

/-- Settles O57: the press goes by whether the group has a cabled link that is not out; of the links that DRAIN is written to, the UP ones become
DRAINING (log entry 60), and RESUME brings every link that is out back UP. -/
theorem groupPressDrainsOrResumes : Obligations.GroupPressDrainsOrResumes := by
  unfold Obligations.GroupPressDrainsOrResumes
  intro s d hd hbtn hconf hsafe
  have hexec : exec (.grpBtnPress d) s = .next (s.grpPress d) := by simp only [exec, execGrpBtnPress, onUnit, hd, if_true]
  refine ⟨?drain, ?resume⟩
  case drain =>
    rintro ⟨l₀, hl₀, hcable, hout⟩
    have hstate := State.grpPress_linkState_of_live hbtn hconf hsafe (List.ne_nil_of_mem (State.mem_groupLive.mpr ⟨hl₀, hcable, hout⟩))
    refine ⟨_, hexec, fun l hl => ?_, fun l hl => ?_⟩
    · rw [hstate, stateAfterDrain, ← ite_and]
      refine if_congr ?_ rfl rfl
      simp +contextual [State.mem_groupLive, hl, lsUp, lsDraining, lsDrained]
    · rw [hstate, if_neg fun h => hl (State.mem_groupLive.mp h).1]
  case resume =>
    intro hall
    have hnone : s.groupLive d = [] := List.eq_nil_iff_forall_not_mem.mpr fun l h => by
      obtain ⟨hl, hcable, hout⟩ := State.mem_groupLive.mp h
      obtain hgone | hout' := hall l hl
      · simp [hgone] at hcable
      · exact hout hout'
    have hstate := State.grpPress_linkState_of_noLive hbtn hconf hsafe hnone
    refine ⟨_, hexec, fun l hl => ?_, fun l hl => ?_⟩
    · rw [hstate, if_pos hl, stateAfterResume]
    · rw [hstate, if_neg hl]

end
